-- ==== Sys2Proof/Word.lean ====
section
/-!
DEFINITION. The widths the manual works in, and the plainest arithmetic on them.
-/
namespace Sys2Proof

/-- R6: the unit of every memory. -/
abbrev Byte := BitVec 8
/-- A lane of a vector register (R56). -/
abbrev W32 := BitVec 32
/-- A scalar register (R56). -/
abbrev W64 := BitVec 64
/-- One bit per lane: masks, predicate registers (R56, R62). -/
abbrev Lanes := BitVec 96
/-- A program counter (R88). -/
abbrev Pc := BitVec 56
/-- A 128-byte line of memory (R194), byte 0 in the low bits (R6). -/
abbrev MemLine := BitVec 1024
/-- A 64-byte code line (R81), byte 0 in the low bits. -/
abbrev CodeLine := BitVec 512

/-- The field `[lo+len-1 : lo]` of a word (R5), as a number. -/
abbrev bits {w : Nat} (x : BitVec w) (lo len : Nat) : Nat := (x.extractLsb' lo len).toNat

/-- R8: `s64(x)` of a 32-bit value. -/
abbrev sext64 (x : W32) : W64 := x.signExtend 64

/-- A value of 8 bytes assembled from its low and high halves (R33). -/
abbrev pair64 (lo hi : W32) : W64 := hi ++ lo

/-- The lanes a mask holds, in increasing order (R8, `for L in Active`). -/
def lanesOf (m : Lanes) : List Nat := (List.range 96).filter fun l => m.getLsbD l

/-- The mask of one lane. -/
def laneBit (l : Nat) : Lanes := (1#96) <<< l

/-- The mask holding exactly the lanes of a list. -/
def lanesMask (ls : List Nat) : Lanes := ls.foldl (fun m l => m ||| laneBit l) 0#96

end Sys2Proof
end

