-- ==== Sys2Proof/Config.lean ====
section
/-!
DEFINITION. What an implementation fixes, and the free values: constants without a body, of which nothing can be proved.
-/
namespace Sys2Proof.Config

/-- Free: which of the enabled turns moves next when the agenda is empty (DESIGN CHOICE, log 2). The argument is a plain counter of State. -/
opaque choice : Nat → Nat
/-- Free: byte `i` of the image of the hidden state tagged `t` (sealed block, divergence-stack entry), whose layout R78 leaves open (DESIGN CHOICE, log 5). -/
opaque hiddenByte : Nat → Nat → Byte
/-- Free: PC, lanes and Z of a divergence-stack entry that a program has overwritten (R138: the wave is corrupted). (DESIGN CHOICE, log 5.) -/
opaque corruptPc : Nat → Pc
opaque corruptLanes : Nat → Lanes
opaque corruptZ : Nat → W32
/-- Free: a byte of a CBASE array that overlaps the write set, the ring or the argument block (R370: its contents are undefined). (DESIGN CHOICE, log 42.) -/
opaque cbaseByte : Nat → Byte
/-- Free: byte `i` of the XMSS signature over a report (R480); the key is the device's own (DESIGN CHOICE, log 15). -/
opaque signatureByte : List Byte → Nat → Byte
/-- Free: the audit generator's draw (R376: the generator is not architectural), an n32. (DESIGN CHOICE, log 16.) -/
opaque auditDraw : Nat → W32
/-- Free: TLEN, OFF, KIND and ATT of an acknowledgement or a hold, which R450 and R459 leave open. (DEDUCED, log 33.) -/
opaque ackFill : Nat → BitVec 88

/-- Fixed by the implementation: stepping in DEVID [23:16] (R469). (DESIGN CHOICE, log 14.) -/
opaque stepping : BitVec 8
/-- Fixed by the implementation: decode-table generation identifier DGEN (R110, R469). (DESIGN CHOICE, log 14.) -/
opaque dgen : W32
/-- Fixed by the implementation: MAC address of Edkin port p (R469). (DESIGN CHOICE, log 14.) -/
opaque portMac : Nat → BitVec 48
/-- Fixed by the ordering code: the module's power limit of 2,800 W applies (R1, R470). (DESIGN CHOICE, log 14.) -/
opaque isModule : Bool
/-- Fixed by the implementation: snoop-filter ways of a home slice (R471 gives 16). -/
def snoopWays : Nat := 16
/-- R469: DEVID [15:0]. -/
def devId : Nat := 0x0A58
/-- R17: entries of the copy queue of a core. (DESIGN CHOICE, log 19.) -/
def copyQueue : Nat := 16
/-- Fixed by the implementation: ranges that the range-lock table of a cluster holds (R215 gives no number). (DESIGN CHOICE, log 19.) -/
opaque rangeLocks : Nat
/-- R280: matrix permits and copy permits of a sequencer. (DESIGN CHOICE, log 19.) -/
def matrixPermits : Nat := 8
def copyPermits : Nat := 16
/-- R316: lane entries of the escalation queue of the geometric predicate unit. (DESIGN CHOICE, log 19.) -/
def escalationEntries : Nat := 192

end Sys2Proof.Config
end

