-- ==== Sys2Proof/Machine/Cells.lean ====
section
/-!
DEFINITION. Sparse storage in one canonical form: lists of (key, value) with strictly rising keys and no entry equal to
what an unlisted key reads as (0). Equal stores are equal lists. `Table` holds records under rising keys.
-/
namespace Sys2Proof.Machine

/-- Words of `w` bits under natural keys; an unlisted key reads 0. -/
abbrev Cells (w : Nat) := List (Nat × BitVec w)

/-- The word under a key. -/
def Cells.read {w : Nat} : Cells w → Nat → BitVec w
  | [], _ => 0
  | (k, v) :: m, n => if k = n then v else Cells.read m n

/-- Strictly rising keys, all above a bound, and no zero word. -/
def Cells.wfFrom {w : Nat} : Nat → Cells w → Bool
  | _, [] => true
  | lo, (k, v) :: m => decide (lo ≤ k) && decide (v ≠ 0) && Cells.wfFrom (k + 1) m

/-- The canonical form. -/
def Cells.wf {w : Nat} (m : Cells w) : Bool := Cells.wfFrom 0 m

/-- The entries `lo, …, lo+n-1` of a function, zeros left out. -/
def Cells.fresh {w : Nat} (lo : Nat) (f : Nat → BitVec w) : Nat → Cells w
  | 0 => []
  | n + 1 => if f lo = 0 then Cells.fresh (lo + 1) f n else (lo, f lo) :: Cells.fresh (lo + 1) f n

/-- The one primitive that writes: keys `lo, …, lo+n-1` get the values of `f`; every other key keeps its word. -/
def Cells.update {w : Nat} (m : Cells w) (lo n : Nat) (f : Nat → BitVec w) : Cells w :=
  m.filter (fun x => x.1 < lo) ++ Cells.fresh lo f n ++ m.filter fun x => lo + n ≤ x.1

/-- One word written. -/
def Cells.write {w : Nat} (m : Cells w) (k : Nat) (v : BitVec w) : Cells w := m.update k 1 fun _ => v

/-- `n` words cleared. -/
def Cells.clear {w : Nat} (m : Cells w) (lo n : Nat) : Cells w :=
  m.filter fun x => x.1 < lo || lo + n ≤ x.1

/-- The words of `c` below `n` take the place of keys `lo, …, lo+n-1`. -/
def Cells.splice {w : Nat} (m : Cells w) (lo n : Nat) (c : Cells w) : Cells w :=
  (c.filter fun x => x.1 < n).foldl (fun m x => m.write (lo + x.1) x.2) (m.clear lo n)

/-- Keys `[lo, lo+n)` of a store, moved to 0. -/
def Cells.slice {w : Nat} (m : Cells w) (lo n : Nat) : Cells w :=
  (m.filter fun x => lo ≤ x.1 && x.1 < lo + n).map fun x => (x.1 - lo, x.2)

/-- Main memory: bytes under physical addresses, in the host's cells (DESIGN CHOICE, log 1: an unlisted byte reads 0). -/
abbrev Memory := List Host.Cell

/-- The canonical form of main memory. -/
def Memory.wf (m : Memory) : Bool := Cells.wf (w := 8) m

/-- One byte read. (DESIGN CHOICE, log 1.) -/
def Memory.read (m : Memory) (a : Nat) : Byte := Cells.read (w := 8) m a

/-- Consecutive bytes written from a function of the address. -/
def Memory.update (m : Memory) (lo n : Nat) (f : Nat → Byte) : Memory := Cells.update (w := 8) m lo n f

/-- Records under rising keys. -/
abbrev Table (α : Type) := List (Nat × α)

def Table.get? {α : Type} : Table α → Nat → Option α
  | [], _ => none
  | (k, v) :: t, n => if k = n then some v else Table.get? t n

def Table.put {α : Type} : Table α → Nat → α → Table α
  | [], n, x => [(n, x)]
  | (k, v) :: t, n, x => if k = n then (n, x) :: t else if n < k then (n, x) :: (k, v) :: t else (k, v) :: Table.put t n x

def Table.erase {α : Type} (t : Table α) (n : Nat) : Table α := t.filter fun x => x.1 != n

def Table.modify {α : Type} (t : Table α) (n : Nat) (f : α → α) : Table α :=
  match t.get? n with
  | some x => t.put n (f x)
  | none => t

/-- A key above every listed one. -/
def Table.nextKey {α : Type} : Table α → Nat
  | [] => 0
  | (k, _) :: t => max (k + 1) (Table.nextKey t)

/-- Little-endian number of a list of bytes (R6). -/
def leNat (l : List Byte) : Nat := l.foldr (fun b n => b.toNat + 256 * n) 0

/-- The `n` bytes of a number, byte 0 first (R6). -/
def leBytes (n x : Nat) : List Byte := (List.range n).map fun i => BitVec.ofNat 8 (x / 256 ^ i)

/-- Byte `i` of a word (R6). -/
def byteOf {w : Nat} (x : BitVec w) (i : Nat) : Byte := x.extractLsb' (8 * i) 8

end Sys2Proof.Machine
end

