-- ==== Sys2Proof/Syntax.lean ====
section
/-!
DEFINITION. The instructions of Yuphor and the events of the device: one constructor of `Instr` per row of the table of
operations and events. Register fields have the width of their class, so a field out of range cannot be written down
(R57); fields that R103 to R107 code are inductive types.
-/
namespace Sys2Proof

/-- R32: element types. -/
inductive Ty where
  | none | s8 | s16 | s32 | s64 | n8 | n16 | n32 | n64 | b8 | b16 | b32 | b64
  | f64 | f32 | f16 | bf16 | e4m3 | e5m2 | dx8 | dx4
  deriving DecidableEq, Repr, Inhabited

/-- R41: the rounding field; `dyn` (0) takes the mode register's mode. Code 7 is reserved. -/
inductive Rnd where
  | dyn | rne | rtz | rdn | rup | rna | sr
  deriving DecidableEq, Repr, Inhabited

/-- R44: the saturation field. Code 3 is no instruction. -/
inductive Sat where
  | none | clamp | unit
  deriving DecidableEq, Repr, Inhabited

/-- R62, R94: guard predicate and its negation; `p15` plain is the unguarded encoding. -/
structure Guard where
  p : BitVec 4
  neg : Bool
  deriving DecidableEq, Repr, Inhabited

/-- B operand of the scalar groups (R103). -/
inductive SrcS where
  | reg (r : BitVec 6)
  | imm (v : W32)
  deriving DecidableEq, Repr, Inhabited

/-- B operand of the vector groups (R103): -vv, -vs, -vi. -/
inductive SrcV where
  | vec (r : BitVec 8)
  | scal (r : BitVec 6)
  | imm (v : W32)
  deriving DecidableEq, Repr, Inhabited

/-- R104: integer comparisons. -/
inductive ICond where
  | eq | ne | lt | le | gt | ge
  deriving DecidableEq, Repr, Inhabited

/-- R103: float comparisons, FN 0x10 to 0x17. -/
inductive FCond where
  | eq | ne | lt | le | gt | ge | un | or
  deriving DecidableEq, Repr, Inhabited

/-- R104: operations of vred and vscan. -/
inductive RedOp where
  | add | min | max | and | or | xor
  deriving DecidableEq, Repr, Inhabited

/-- R106: atomic operations. -/
inductive AtOp where
  | add | min | max | and | or | xor | exch
  deriving DecidableEq, Repr, Inhabited

/-- R106: memory order suffix. -/
inductive Order where
  | rlx | acq | rel | ar
  deriving DecidableEq, Repr, Inhabited

/-- R106, R234: scopes. -/
inductive Scope where
  | wv | crw | die | pkg | sys
  deriving DecidableEq, Repr, Inhabited

/-- R105: address modes AM. -/
inductive AMode where
  | base | s32 | n32 | b64
  deriving DecidableEq, Repr, Inhabited

/-- R105: cache hints HNT. -/
inductive Hint where
  | normal | stream | keep
  deriving DecidableEq, Repr, Inhabited

/-- R105, R193: register form RF. -/
inductive RForm where
  | packed | wide | pair
  deriving DecidableEq, Repr, Inhabited

/-- R66: special registers that srd reads. -/
inductive SReg where
  | lane | wslot | wid | crew | core | clus | die | clk | ctx | mode | flags | alloc
  deriving DecidableEq, Repr, Inhabited

/-- R409: grpv forms are told apart by constructor; R285: kinds of scpy. -/
inductive ScpyKind where
  | toA | fromA | toW | toWSparse
  deriving DecidableEq, Repr, Inhabited

/-- R331: leaf sizes. -/
inductive PgSize where
  | k64 | m2 | g1
  deriving DecidableEq, Repr, Inhabited

/-- R324: kinds of access that a walk decides. -/
inductive Access where
  | read | write | fetch
  deriving DecidableEq, Repr, Inhabited

/-- Class 0x1 (R153): C is read only by mad. -/
structure SInt where
  ty : Ty
  sat : Sat
  d : BitVec 6
  a : BitVec 6
  b : SrcS
  c : BitVec 6
  deriving DecidableEq, Repr, Inhabited

/-- The sf group and cvts operands (R161, R162). -/
structure SFlt where
  ty : Ty
  rnd : Rnd
  sat : Sat
  d : BitVec 6
  a : BitVec 6
  b : BitVec 6
  c : BitVec 6
  deriving DecidableEq, Repr, Inhabited

/-- Classes 0x3 and 0x4 and the special functions (R166, R167, R173). -/
structure VOp where
  g : Guard
  ty : Ty
  rnd : Rnd
  sat : Sat
  d : BitVec 8
  a : BitVec 8
  b : SrcV
  c : BitVec 8
  deriving DecidableEq, Repr, Inhabited

/-- fcmp (R172). -/
structure FCmp where
  g : Guard
  ty : Ty
  cc : FCond
  d : BitVec 4
  a : BitVec 8
  b : SrcV
  deriving DecidableEq, Repr, Inhabited

/-- cvt, pack and unpack (R177). -/
structure Cvt where
  g : Guard
  dst : Ty
  src : Ty
  rnd : Rnd
  sat : Sat
  d : BitVec 8
  a : BitVec 8
  q : BitVec 3
  deriving DecidableEq, Repr, Inhabited

/-- dxq and dxd (R180, R181). -/
structure DxOp where
  g : Guard
  dst : Ty
  src : Ty
  rnd : Rnd
  d : BitVec 8
  a : BitVec 8
  c : BitVec 8
  grp : BitVec 4
  deriving DecidableEq, Repr, Inhabited

/-- Forms of class 0x6 on vector registers (R183); unused fields are 0. -/
structure LaneOp where
  g : Guard
  ty : Ty
  d : BitVec 8
  a : BitVec 8
  b : BitVec 8
  c : BitVec 8
  deriving DecidableEq, Repr, Inhabited

/-- vred and vscan (R186, R187); vred writes scalar `d[5:0]`. -/
structure RedScan where
  g : Guard
  op : RedOp
  ex : Bool
  seg : Bool
  ty : Ty
  rnd : Rnd
  d : BitVec 8
  a : BitVec 8
  pc : BitVec 4
  deriving DecidableEq, Repr, Inhabited

/-- Lane-addressed loads and stores (R105, R198); `v` is the data register (D of a load, C of a store). -/
structure MemOp where
  g : Guard
  ty : Ty
  am : AMode
  hnt : Hint
  rf : RForm
  rnd : Rnd
  sat : Sat
  v : BitVec 8
  a : BitVec 6
  b : BitVec 8
  imm : W32
  deriving DecidableEq, Repr, Inhabited

/-- Atomics (R106, R209). -/
structure AtomOp where
  g : Guard
  op : AtOp
  ord : Order
  am : AMode
  scope : Scope
  ty : Ty
  d : BitVec 8
  a : BitVec 6
  b : BitVec 8
  c : BitVec 8
  imm : W32
  deriving DecidableEq, Repr, Inhabited

/-- Copies (R214); `bar` is the barrier register when IMM[0] = 1. -/
structure Cpy where
  d : BitVec 6
  a : BitVec 6
  b : BitVec 6
  bar : Option (BitVec 6)
  deriving DecidableEq, Repr, Inhabited

/-- mma and mmag (R285). -/
structure Mma where
  fmt : Ty
  d : BitVec 3
  xa : BitVec 4
  xb : BitVec 4
  rs : BitVec 16
  sp : Bool
  k : BitVec 15
  deriving DecidableEq, Repr, Inhabited

/-- mdrain (R297). -/
structure Drain where
  ty : Ty
  act : Bool
  rnd : Rnd
  sat : Sat
  d : BitVec 3
  xa : BitVec 4
  xc : BitVec 4
  rs : BitVec 16
  deriving DecidableEq, Repr, Inhabited

/-- Geometric predicates (R308). -/
structure GeoOp where
  g : Guard
  ty : Ty
  tb : Bool
  code : Bool
  d : BitVec 8
  a : BitVec 8
  b : BitVec 8
  deriving DecidableEq, Repr, Inhabited

/-- lpost and lsend (R463). -/
structure LinkOp where
  d : BitVec 6
  a : BitVec 6
  b : BitVec 6
  kind : BitVec 2
  sp : Bool
  bar : Option (BitVec 6)
  deriving DecidableEq, Repr, Inhabited

/-- An Edkin frame as it arrives or leaves (R450): the packet header and its payload. -/
structure Frame where
  fcsOk : Bool
  ver : BitVec 8
  typ : BitVec 8
  dqp : BitVec 16
  sqp : BitVec 16
  msn : W32
  tlen : W32
  off : W32
  kind : BitVec 8
  att : BitVec 8
  sts : BitVec 8
  rsv : BitVec 8
  payload : List Byte
  deriving DecidableEq, Repr, Inhabited

/-- One instruction of Yuphor, or one event of the device. An instruction acts for the agent that executes it; an event
names the object it happens to. -/
inductive Instr where
  -- class 0x0 (R133 to R152)
  | nop
  | br (t : W32)
  | brcNeS (a : BitVec 6) (t : W32)
  | brcEqS (a : BitVec 6) (t : W32)
  | brcAnyP (b : BitVec 4) (t : W32)
  | brcAllP (b : BitVec 4) (t : W32)
  | brcNoneP (b : BitVec 4) (t : W32)
  | brv (b : BitVec 4) (t : W32) (j : BitVec 24)
  | join
  | call (d : BitVec 6) (t : W32)
  | calli (d : BitVec 6) (a : BitVec 8)
  | ret (a : BitVec 6)
  | jmp (a : BitVec 6) (e : W32)
  | endF
  | yield
  | brk (e : BitVec 8)
  | sleep (e : W32)
  | timeWaitExpiry (w : Nat) (b : Bool)
  | rgn (a : BitVec 8) (m : W32)
  -- class 0x1 (R153, R154)
  | add (o : SInt)
  | sub (o : SInt)
  | mul (o : SInt)
  | mulh (o : SInt)
  | mad (o : SInt)
  | div (o : SInt)
  | rem (o : SInt)
  | and (o : SInt)
  | or (o : SInt)
  | xor (o : SInt)
  | shl (o : SInt)
  | shr (o : SInt)
  | sar (o : SInt)
  | min (o : SInt)
  | max (o : SInt)
  -- class 0x2 (R155 to R162)
  | clz (ty : Ty) (d a : BitVec 6)
  | popc (ty : Ty) (d a : BitVec 6)
  | brev (ty : Ty) (d a : BitVec 6)
  | bfe (ty : Ty) (d a : BitVec 6) (pos : BitVec 6) (len : BitVec 7)
  | bfi (d a b : BitVec 6) (pos : BitVec 6) (len : BitVec 7)
  | cmp (cc : ICond) (ty : Ty) (d a b : BitVec 6)
  | sel (d a b c : BitVec 6)
  | mov (d a : BitVec 6)
  | movi (d : BitVec 6) (e : W32)
  | movh (d : BitVec 6) (e : W32)
  | lea (d a b : BitVec 6) (sh : BitVec 3) (disp : BitVec 24)
  | srd (d : BitVec 6) (x : SReg)
  | swrMode (a : BitVec 6)
  | swrFlags (a : BitVec 6)
  | cvts (src : Ty) (o : SFlt)
  | sfadd (o : SFlt)
  | sfmul (o : SFlt)
  | sffma (o : SFlt)
  -- class 0x3 (R166)
  | vadd (o : VOp)
  | vsub (o : VOp)
  | vmul (o : VOp)
  | vmulh (o : VOp)
  | vmad (o : VOp)
  | vdiv (o : VOp)
  | vand (o : VOp)
  | vor (o : VOp)
  | vxor (o : VOp)
  | vshl (o : VOp)
  | vshr (o : VOp)
  | vsar (o : VOp)
  | vmin (o : VOp)
  | vmax (o : VOp)
  | vabs (o : VOp)
  | vbfe (o : VOp)
  | vbfi (o : VOp)
  | vclz (o : VOp)
  | vpopc (o : VOp)
  -- class 0x4 (R167 to R172)
  | fadd (o : VOp)
  | fsub (o : VOp)
  | fmul (o : VOp)
  | ffma (o : VOp)
  | fdiv (o : VOp)
  | fsqrt (o : VOp)
  | frcp (o : VOp)
  | frsq (o : VOp)
  | fldexp (o : VOp)
  | frint (o : VOp)
  | fmin (o : VOp)
  | fmax (o : VOp)
  | fclass (o : VOp)
  | fdot2 (o : VOp)
  | fcmp (o : FCmp)
  -- class 0x5 (R173 to R182)
  | fexp2 (o : VOp)
  | flog2 (o : VOp)
  | fsin (o : VOp)
  | fcos (o : VOp)
  | fact (g : Guard) (rnd : Rnd) (sat : Sat) (d a : BitVec 8) (b : BitVec 6)
  | actflip
  | activationBankFlip (core : Nat)
  | cvt (o : Cvt)
  | pack (o : Cvt)
  | unpack (o : Cvt)
  | dxq (o : DxOp)
  | dxd (o : DxOp)
  | fdp4 (o : VOp)
  -- class 0x6 (R183 to R190)
  | vmov (o : LaneOp)
  | vbcast (g : Guard) (ty : Ty) (d : BitVec 8) (a : BitVec 6)
  | vperm (o : LaneOp)
  | vshflUp (o : LaneOp) (n : BitVec 7)
  | vshflDown (o : LaneOp) (n : BitVec 7)
  | vshflXor (o : LaneOp) (n : BitVec 7)
  | vshflIdx (o : LaneOp)
  | vred (o : RedScan)
  | vscan (o : RedScan)
  | vmovrel (o : LaneOp)
  | vstrel (o : LaneOp)
  | vcmp (g : Guard) (cc : ICond) (ty : Ty) (d : BitVec 4) (a b : BitVec 8)
  | vsel (g : Guard) (ty : Ty) (d a b : BitVec 8) (c : BitVec 4)
  | plop (g : Guard) (d a b : BitVec 4) (t : BitVec 4)
  | ppopc (g : Guard) (d : BitVec 6) (a : BitVec 4)
  | pfirst (g : Guard) (d a : BitVec 4)
  | pballot (g : Guard) (d : BitVec 6) (a : BitVec 4) (b : BitVec 2)
  | pfrom (g : Guard) (d : BitVec 4) (a : BitVec 6) (b : BitVec 2)
  | vlid (g : Guard) (d : BitVec 8)
  -- class 0x7 (R192 to R208)
  | ldg (o : MemOp)
  | stg (o : MemOp)
  | ldl (o : MemOp)
  | stl (o : MemOp)
  | lds (ty : Ty) (hnt : Hint) (d a : BitVec 6) (imm : W32)
  | sts (ty : Ty) (hnt : Hint) (c a : BitVec 6) (imm : W32)
  | pfg (g : Guard) (am : AMode) (hnt : Hint) (a : BitVec 6) (b : BitVec 8) (imm : W32)
  | cinv (a b : BitVec 6) (imm : W32)
  | wopen (k : BitVec 3)
  | wclose (k : BitVec 3)
  | wflush (k : BitVec 3)
  | winv (k : BitVec 3)
  | ldgs (g : Guard) (ty : Ty) (hnt : Hint) (rf : RForm) (d : BitVec 8) (a b : BitVec 6) (imm : W32)
  | windowFill (crew k blk : Nat)
  -- class 0x8 (R209 to R213)
  | atom (o : AtomOp)
  | atomc (o : AtomOp)
  | red (o : AtomOp)
  | atoml (o : AtomOp)
  | fence (ord : Order) (sc : Scope)
  -- class 0x9 (R214 to R225)
  | cpy (o : Cpy)
  | cpys (o : Cpy)
  | cpyg (o : Cpy)
  | cpyw (o : Cpy) (sparse : Option Ty)
  | cpcommit (d : BitVec 6)
  | cpwait (a : BitVec 6)
  | cpact (a : BitVec 6)
  | copySegment (copy seg : Nat)
  -- class 0xA (R285, R292 to R301)
  | mma (o : Mma)
  | mmag (o : Mma)
  | mzero (d : BitVec 3)
  | mload (ty : Ty) (d : BitVec 3) (xa : BitVec 4) (rs : BitVec 16)
  | mdrain (o : Drain)
  | mdrainx (ty : Ty) (rnd : Rnd) (sat : Sat) (d : BitVec 3) (q : BitVec 12)
  | mrsc (ty : Ty) (d : BitVec 3) (xa : BitVec 4)
  | maffl (d : BitVec 3) (xa xb : BitVec 4) (rs : BitVec 16)
  | mscan (d : BitVec 3) (c : BitVec 3)
  | mcarLoad (d : BitVec 3) (xa : BitVec 4)
  | mcarStore (d : BitVec 3) (xa : BitVec 4)
  | mcarReset (d : BitVec 3)
  | matrixCommit (core : Nat)
  -- class 0xB (R286 to R291, R302, R303)
  | sloop (n : BitVec 31)
  | sloopInd (xa : BitVec 4)
  | sendl
  | sadr (d : BitVec 4) (off : BitVec 22) (perCore : Bool)
  | sinc (d : BitVec 4) (t : BitVec 2) (e : W32)
  | sbarr (off : BitVec 22)
  | sbwait (off : BitVec 22) (ph : Bool) (l : BitVec 2)
  | scpy (d a : BitVec 4) (len : BitVec 24) (kind : ScpyKind) (ty : Ty)
  | shint (n : W32)
  | rampDown (core : Nat)
  | saud (e : Bool)
  | sfin (off : Option (BitVec 22))
  | auditReplay (task clus : Nat) (sig : W64)
  | auditVerdict (task : Nat)
  -- class 0xC (R308 to R318)
  | orient2 (o : GeoOp)
  | orient3 (o : GeoOp)
  | incirc (o : GeoOp)
  | insph (o : GeoOp)
  | segx (o : GeoOp)
  | predicateCommit (core : Nat)
  | gstat (clr : Bool) (d : BitVec 6) (n : BitVec 2)
  -- class 0xD (R402, R403, R409, R418 to R420)
  | bari (a b : BitVec 6)
  | bara (d a : BitVec 6) (k : BitVec 16)
  | barx (a b : BitVec 6)
  | barw (a b : BitVec 6)
  | barwFlag (d a b : BitVec 6)
  | flagPoll (w : Nat) (b : Bool)
  | bart (d a : BitVec 6)
  | grpa (g : BitVec 8)
  | grpe (d : BitVec 6) (g : BitVec 8)
  | grpvAnd (d a : BitVec 6) (g : BitVec 8)
  | grpvOr (d a : BitVec 6) (g : BitVec 8)
  | grpvAdd (d a : BitVec 6) (g : BitVec 8)
  | qxfer (d a : BitVec 6) (k : BitVec 4)
  | wprio (d : BitVec 6) (e : BitVec 2)
  -- class 0xE (R356 to R359, R381, R463 to R466)
  | enq (d a : BitVec 6) (q : BitVec 6)
  | enqPublish (w : Nat) (b : Bool)
  | qpost (a : BitVec 6) (q : BitVec 6)
  | qwait (d a : BitVec 6) (q : BitVec 6)
  | fsopen (d a : BitVec 6)
  | fsclose (a : BitVec 6)
  | fswait (a : BitVec 6)
  | lpost (o : LinkOp)
  | lsend (o : LinkOp)
  | lpoll (d a : BitVec 6) (recv : Bool)
  | lqpQuery (d a : BitVec 6)
  | lqpReset (d a : BitVec 6)
  | lqpInit (d a : BitVec 6)
  | lqpReady (d a : BitVec 6)
  -- class 0xF (R331 to R334, R343, R441 to R446, R481)
  | pkrd (d a b : BitVec 6) (imm : W32)
  | pkwr (d a b c : BitVec 6) (imm : W32)
  | pkclr (d a b : BitVec 6)
  | pkres (d a : BitVec 6)
  | pkret (d a : BitVec 6)
  | pkredir (d a b : BitVec 6)
  | pkkill (d a : BitVec 6)
  | pgmap (d a b c : BitVec 6) (ctx : BitVec 6) (sz : PgSize)
  | pgunmap (d a : BitVec 6) (ctx : BitVec 6) (sz : PgSize)
  | pginv (a b : BitVec 6) (ctx : BitVec 6)
  | shootdown (id : Nat)
  | mdrd (d : BitVec 6) (e : BitVec 16)
  | mdwr (a : BitVec 6) (e : BitVec 16)
  | flrd (d : BitVec 6) (e : BitVec 8)
  | flclr (d : BitVec 6) (e : BitVec 8)
  | clkrd (d : BitVec 6)
  | ctxrd (d : BitVec 6) (sel : BitVec 8) (ctx : Option (BitVec 6))
  -- events of fetch, scheduling and translation
  | lineFetch (w : Nat) (b : Bool)
  | fragmentAged (w : Nat) (b : Bool)
  | budgetExhausted (seq : Bool) (w : Nat)
  | pageWalk (core ctx : Nat) (va : W64) (k : Access)
  | snapshotCopy (ctx : Nat) (va : W64)
  -- events of the directory (R271 to R275)
  | getS (die line : Nat)
  | getM (die line : Nat)
  | writeMerge (line : Nat) (mask : W32) (data : MemLine)
  | homeAtomic (pa : Nat) (op : Option AtOp) (ty : Ty) (v : W64)
  | putM (die line : Nat)
  | forwardedRequest (line : Nat)
  | invalidateWithWriteback (die line : Nat)
  | directoryRecovery (line : Nat)
  | hostMemoryAccess (pa : Nat) (write : Option (List Byte))
  | unitReclaim (clus unit : Nat)
  -- events of queues and launches
  | doorbell (ctx q : Nat) (t : W64)
  | tailWrite (ctx q : Nat) (t : W64)
  | slotReread (ctx q : Nat)
  | packetConsume (ctx q : Nat)
  | markerComplete (l : Nat)
  | queueEnable (ctx q : Nat)
  | queueStop (ctx q : Nat)
  | queueStart (ctx q : Nat)
  | queueDisable (ctx q : Nat)
  | dispatcherChoice (die : Nat)
  | launchDispatch (l : Nat)
  | crewPlacement (l clus unit : Nat) (cores : List Nat)
  | waveRetire (w : Nat)
  | waveRestore (w core slot : Nat)
  | sequencerPark (i : Nat)
  | sequencerRestore (i : Nat)
  | crewEviction (c : Nat)
  | crewRestore (c : Nat)
  | launchComplete (l : Nat)
  | launchReplay (l : Nat)
  | launchKill (l : Nat)
  -- events of the Arbiter and the link
  | adjournmentRecord (n : Nat)
  | taskMessage (qp : Nat) (n : W32)
  | dispositionMessage (qp : Nat) (n : W32)
  | dataPacketReceive (f : Frame)
  | acknowledgementReceive (f : Frame)
  | holdReceive (f : Frame)
  | sendTimeout (qp : Nat) (msn : W32)
  -- events of the host and the firmware
  | contextCreate (c : Nat) (desc : Nat)
  | contextActivate (c : Nat)
  | contextSuspend (c : Nat)
  | contextResume (c : Nat)
  | contextDestroy (c : Nat)
  | contextClearFault (c : Nat)
  | contextFree (c : Nat)
  | c0descWrite (v : W64)
  | jbaseWrite (v : W64)
  | qptabWrite (v : W64)
  | errstWrite (v : W64)
  | partitionWrite (p off : Nat) (v : W64)
  | controlRegisterWrite (off size : Nat) (v : W64)
  | attestationRequest (nonce : BitVec 256) (v : W64)
  | ageingCheck (island : Nat) (slack : List (BitVec 8))
  | powerUpdate (watts : BitVec 16) (cap lift : List Nat)
  | coreQuarantine (core : Nat)
  | reset (verified : Bool) (images : List (List Byte))
  | silentEviction (die line : Nat)
  | l1LineEviction (core line : Nat)
  | deadlineMiss (l : Nat)
  deriving DecidableEq, Repr

end Sys2Proof
end

