-- ==== Sys2Proof/Machine/State.lean ====
section
/-!
DEFINITION. The state of one X8 package as plain data: everything the manual gives the device, held sparsely. Objects
(waves, sequencers, crews, launches, copies, ...) stand in tables under plain keys; memories are `Cells`.
-/
namespace Sys2Proof.Machine

/-- Why the machine stops. (DEDUCED, log 35.) -/
inductive Fault where
  /-- Raised by an access of the host or of an engine to a physical address that R321 says does not exist. Safe: the
  hardware's answer is not stated, and the model stops. -/
  | noMemory
  deriving DecidableEq, Repr

/-- Why an instruction has no meaning in a state. (DESIGN CHOICE, log 47.) -/
inductive Refusal where
  /-- An instruction that the model has not been given yet. Safe. -/
  | notModelled (mnemonic : String)
  /-- `exec` of an instruction when no fragment (or, for classes 0xA and 0xB, no sequencer instance) is executing: the manual
  gives an instruction an effect only for the work that executes it. `step` never raises it. Safe. -/
  | noFragment
  deriving DecidableEq, Repr

/-- What the core holds of the line that a fragment stands in (R87, R89, R90). -/
inductive Fetch where
  /-- The line at the PC is not fetched yet. -/
  | none
  /-- The line as it was fetched. -/
  | line (l : CodeLine)
  /-- Sequential flow left a terminal line (R89). -/
  | runoff
  /-- Sequential flow would leave the address range (R90). -/
  | wrap
  deriving DecidableEq, Repr, Inhabited

/-- R388, R389: scheduler-visible waits. Kinds 0 to 8 are recorded in the header's WAIT field; a shootdown and a flip are not. -/
inductive Wait where
  | none
  | time (deadline : W64)
  | barrier (off : Nat) (ph : Bool)
  | group (g : Nat) (ph : Bool)
  | batch (n : W32)
  | qhead (q : Nat) (n : W64)
  | qspace (q : Nat) (i : W64)
  | scope (n : Nat)
  | flag (addr v : W64)
  | shootdown (id : Nat)
  /-- R176: an issued actflip before its flip: a hazard, not a scheduler-visible wait (R383). -/
  | flip (token : Nat)
  /-- Window fill, translation, snapshot or core state: the instruction has not taken effect and executes again. -/
  | hidden
  deriving DecidableEq, Repr, Inhabited

/-- R390: a wait that has ended, with what it gives, before its instruction has returned: the fragment was on the divergence
stack, saved, or without its line. -/
inductive Ending where
  | plain
  /-- R390: the word that ended a flag wait. -/
  | value (v : W64)
  /-- R407: the elected %wid and the three results of the phase. -/
  | group (elected : BitVec 6) (vand vor vsum : W64)
  deriving DecidableEq, Repr, Inhabited

/-- R71: an entry of the split table. -/
structure Fragment where
  /-- The model's own: a name that no other fragment has (DESIGN CHOICE, log 3). -/
  id : Nat := 0
  pc : Pc := 0
  owned : Lanes := 0
  mask : Lanes := 0
  recon : Option Pc := Option.none
  z : W32 := 1
  fetch : Fetch := .none
  wait : Wait := .none
  /-- R390: its wait has ended. -/
  ended : Option Ending := Option.none
  /-- R386: consecutive ungated cycles for which the fragment has been eligible without issuing. -/
  age : Nat := 0
  /-- R386: the fragment is aged. -/
  aged : Bool := false
  /-- R385: issues of its core since its own last one. -/
  idle : Nat := 0
  /-- R147, R385: it yielded, and its core has issued nothing since. -/
  yielded : Bool := false
  /-- R359: its enq has reserved an index and has not published it. -/
  enq : Bool := false
  /-- R446: it was redirected, and its PC must land under R85 when it first issues. -/
  landing : Bool := false
  /-- R318: tokens of the geometric predicates that it has issued. -/
  preds : List Nat := []
  deriving DecidableEq, Repr, Inhabited

/-- R382: states of a wave; a live one is ready or waiting as its fragments say (R383); a resident one is being loaded. (DESIGN CHOICE, log 4.) -/
inductive WStatus where
  | resident | live | adjourned | evicted | retired
  deriving DecidableEq, Repr, Inhabited

/-- R56 to R80: a wave. While it is saved, the fields that the save area holds in the clear are empty here, and those of
the sealed block stay (DESIGN CHOICE, log 5). -/
structure Wave where
  /-- Core of the package: 512·die + 8·cluster + core (R11, R15). -/
  core : Nat := 0
  slot : Nat := 0
  /-- Key of its crew. -/
  crew : Nat := 0
  wid : Nat := 0
  status : WStatus := .live
  /-- N/16 (R58). -/
  gran : Nat := 1
  /-- s0 to s59 (R61). -/
  s : Cells 64 := []
  /-- Lane L of v_r under 96·r + L. -/
  v : Cells 32 := []
  /-- p0 to p14 (R62). -/
  p : Cells 96 := []
  /-- Bits [31:0] of the mode register (R67). -/
  mode : W32 := 1
  /-- R69. -/
  flags : BitVec 7 := 0
  fa : Option Fragment := Option.none
  fb : Option Fragment := Option.none
  /-- R138: divergence stack, top first, each entry with the tag of its hidden image. -/
  stack : List (Fragment × Nat) := []
  /-- R393: core-cycles left. -/
  budget : W64 := 0xFFFFFFFFFFFFFFFF
  /-- R222: open copy batch and last committed batch. -/
  openB : W32 := 1
  lastB : W32 := 0
  /-- R403: issue level. -/
  level : BitVec 2 := 0
  /-- R318: resolved-lane counts, stages 0 to 2. -/
  st0 : W32 := 0
  st1 : W32 := 0
  st2 : W32 := 0
  /-- R73: registers the operand buffer holds. -/
  opbuf : List Nat := []
  /-- R340, R424: physical address of the save area. -/
  save : Nat := 0
  /-- R76: uncorrectable code words: 3·r + beat for v_r, 1000 + n for s_n, 2000 + 3·n + beat for p_n. -/
  bad : List Nat := []
  /-- R446: the work was restarted by pkret. -/
  retry : Bool := false
  /-- R377: causes, PC and core that a retry of a REGECC or IFETCH record watches. -/
  watch : Option (W64 × Pc × Nat) := Option.none
  /-- R377: name of the fragment that retries. -/
  watchId : Nat := 0
  /-- R394: the fragment that issued last (true: B). -/
  issuedB : Bool := false
  /-- Tag of the sealed block's hidden image while the wave is saved. -/
  sealTag : Nat := 0
  /-- R72, R78: the fragment saved in the clear (true: B). -/
  clear : Bool := false
  /-- R396: disposed for resume, retry or redirect, hence a candidate. -/
  ready : Bool := false
  /-- R76: parts of an uncorrectable code word that pkwr has written while the wave is saved: code and part. -/
  mend : List (Nat × Nat) := []
  deriving DecidableEq, Repr, Inhabited

/-- R316: a geometric predicate in flight: wave, destination register, results per lane and the stage of each lane. -/
structure Pred where
  wave : Nat
  d : Nat
  token : Nat
  lanes : Lanes
  res : Cells 32
  stage1 : Lanes
  stage2 : Lanes
  /-- Lanes that count at no stage (R312). -/
  marked : Lanes := 0
  deriving DecidableEq, Repr, Inhabited

/-- A matrix operation that holds a permit (R280, R281): what it captured at issue, and what the instance was before it
(R283). -/
structure MatOp where
  op : Instr
  /-- Eff of x_A, x_B and x_C at issue. -/
  ea : Nat := 0
  eb : Nat := 0
  ec : Nat := 0
  /-- R176: the activation bank that was current. -/
  bank : Nat := 0
  pc : Pc := 0
  fetch : Fetch := .none
  depth : Nat := 0
  ctr : List W32 := []
  start : List Pc := []
  base : Cells 48 := []
  stride : Cells 32 := []
  /-- R229: bytes of the run that a drain has written already. -/
  put : List Nat := []
  deriving DecidableEq, Repr

/-- R306: what the sequencer keeps of a tile task's opening. -/
structure Opening where
  pc : Pc := 0
  depth : Nat := 0
  ctr : List W32 := [0, 0, 0]
  start : List Pc := [0, 0, 0]
  base : Cells 48 := []
  stride : Cells 32 := []
  mode : W64 := 0x100000001
  deriving DecidableEq, Repr, Inhabited

/-- R19, R56, R63 to R65, R79, R277 to R306: one sequencer instance. -/
structure Inst where
  core : Nat := 0
  crew : Nat := 0
  status : WStatus := .live
  pc : Pc := 0
  fetch : Fetch := .none
  wait : Wait := .none
  /-- Loop depth, counters and start PCs (R286). -/
  depth : Nat := 0
  ctr : List W32 := [0, 0, 0]
  start : List Pc := [0, 0, 0]
  base : Cells 48 := []
  /-- stride t of x_n under 3·n + t. -/
  stride : Cells 32 := []
  /-- Element (i, j) of a_n under 4096·n + 64·i + j. -/
  acc : Cells 32 := []
  /-- Gain of column j of c_n under 128·n + 2·j (XORed with 1.0), offset under 128·n + 2·j + 1. -/
  carry : Cells 32 := []
  /-- R301: mid-scan chunk counter. -/
  chunk : W32 := 0
  /-- R294: row-start mask. -/
  rowmask : W64 := 0
  mode : W64 := 0x100000001
  flags : BitVec 7 := 0
  budget : W64 := 0xFFFFFFFFFFFFFFFF
  /-- R281: matrix operations issued and not yet committed, oldest first; each holds a permit (R280). -/
  ops : List MatOp := []
  ttask : W32 := 0
  /-- R304: the open tile task is auditable so far. -/
  audit : Bool := true
  /-- R303: a tile task is open. -/
  tile : Bool := true
  /-- R305: the CRC of its drains so far. -/
  sig : W64 := 0
  /-- R306: the state at its opening. -/
  opening : Opening := {}
  /-- The model's own: no fewer than the instructions that it has executed (DESIGN CHOICE, log 16). -/
  steps : Nat := 0
  /-- R304: what the open task has written, as ranges of `cover` keys. -/
  wrote : List (Nat × Nat) := []
  /-- R302: cycles for which a hint holds. -/
  ramp : W32 := 0
  save : Nat := 0
  /-- Uncorrectable accumulator and carry words: 2048·n + 32·i + m for a_n, 100000 + 64·n + j for c_n. -/
  bad : List Nat := []
  retry : Bool := false
  watch : Option (W64 × Pc × Nat) := Option.none
  ready : Bool := false
  /-- R446: the PC must land under R85 when the instance first issues (redirect). -/
  landing : Bool := false
  deriving DecidableEq, Repr, Inhabited

/-- R407: one group of a crew: members, PH, ARR, LIVE, the votes of the open phase, and RES of the last completed one. -/
structure Group where
  members : BitVec 64 := 0
  live : BitVec 64 := 0
  arr : BitVec 64 := 0
  ph : Bool := false
  vand : W64 := 0xFFFFFFFFFFFFFFFF
  vor : W64 := 0
  vsum : W64 := 0
  rand : W64 := 0
  ror : W64 := 0
  rsum : W64 := 0
  elected : BitVec 6 := 0
  deriving DecidableEq, Repr, Inhabited

/-- R262: a window entry of the launch. -/
structure Window where
  gbase : W64
  cstr : W64
  aoff : Nat
  len : Nat
  deriving DecidableEq, Repr, Inhabited

/-- R259, R263, R370: a crew. -/
structure Crew where
  launch : Nat := 0
  idx : Nat := 0
  /-- Cluster of the package: 64·die + cluster. -/
  clus : Nat := 0
  unit : Nat := 0
  nunits : Nat := 0
  /-- Evicted whole (R340): physical address of its crew space. -/
  space : Option Nat := Option.none
  opened : BitVec 8 := 0
  /-- Valid and dirty bits of word n of window k under 2^18·k + n: 2 Clean, 3 Dirty (R263). -/
  words : Cells 2 := []
  /-- Physical address over 256, plus one, of filled block b of window k under 2^13·k + b (R267). -/
  phys : Cells 52 := []
  /-- R264: blocks whose fill is wanted. -/
  fills : List (Nat × Nat) := []
  /-- R240: keys of Clean words that a write of another agent invalidates, and that still stand. -/
  stale : List Nat := []
  groups : Table Group := []
  /-- R340: the cores whose W-store and banks its crew space holds while it is evicted whole. -/
  imgCores : List Nat := []
  /-- The words in it that could not be read (DESIGN CHOICE, log 5), and the waves and instances that were resident. -/
  imgBad : List (Nat × Nat) := []
  imgWaves : List Nat := []
  imgSeqs : List Nat := []
  deriving DecidableEq, Repr, Inhabited

/-- R368: states of a launch. -/
inductive LState where
  | accepted | waiting | ready | dispatching | running | draining | replaying | complete | failed | killed
  deriving DecidableEq, Repr, Inhabited

/-- R371: one shadow of a write-set page. -/
structure Shadow where
  va : Nat
  size : Nat
  frame : Nat
  shadow : Nat
  copied : Bool
  deriving DecidableEq, Repr, Inhabited

/-- R347, R361 to R376, R436: a launch, a marker or a fault task. -/
structure Launch where
  ctx : Nat := 0
  q : Nat := 0
  idx : W64 := 0
  die : Nat := 0
  /-- Identifier in the journal and in records (R474). -/
  lid : W64 := 0
  packet : BitVec 1024 := 0
  st : LState := .accepted
  /-- Awaited scopes that have not been closed yet (R380). -/
  awaits : List Nat := []
  /-- A record of kind launch stands for it, and the failing step that it names (R435). -/
  parked : Bool := false
  step : Nat := 0
  nonReplay : Bool := false
  replayed : Bool := false
  /-- R379: the FS count has been taken. -/
  held : Bool := false
  /-- Crews placed so far (R370). -/
  placed : Nat := 0
  shadows : List Shadow := []
  /-- R364: ranges of the write set. -/
  wset : List (Nat × Nat) := []
  wins : List Window := []
  groups : List (BitVec 64) := []
  /-- R436: the handle of the record that a fault task serves; none for a launch from a queue. -/
  task : Option W64 := Option.none
  /-- R436: CAUSE at enqueue, HDR with STATE handling, ORIGIN: s1 to s3 of the task's wave. -/
  args : List W64 := []
  depth : Nat := 0
  prio : Nat := 0
  deadline : W64 := 0
  /-- Order of acceptance or enqueue (R397). -/
  age : Nat := 0
  marker : Bool := false
  /-- R376: the roll-back follows an audit verdict. -/
  auditMark : Bool := false
  /-- R375: it was killed after its completion write had failed, so it writes no completion word. -/
  noWord : Bool := false
  /-- R373, R375: a completion write has failed. -/
  wordBad : Bool := false
  missed : Bool := false
  /-- R373: all of its steps are done. -/
  done : Bool := false
  deriving DecidableEq, Repr, Inhabited

/-- R338: states of a context, coded as ctxrd codes them. -/
inductive CState where
  | free | created | active | suspended | faulted | destroying
  deriving DecidableEq, Repr, Inhabited

/-- R336 to R343: a context. -/
structure Ctx where
  st : CState := .free
  /-- The descriptor as read at create. -/
  desc : BitVec 1024 := 0
  /-- Generations of the record slots (R427). -/
  gens : Cells 32 := []
  /-- Core-cycles charged, per die (R397: V_c before the weight). -/
  vc : Cells 64 := []
  /-- R397: V_c when it was last raised, per die; `vc` counts from then. -/
  vb : Cells 64 := []
  /-- R397: bit d: it has a candidate on die d. -/
  had : BitVec 8 := 0
  /-- Allocations of the rest of the parking area (R340): address and length. -/
  allocs : List (Nat × Nat) := []
  deriving DecidableEq, Repr, Inhabited

/-- R349: states of a queue. -/
inductive QState where
  | disabled | ready | stopped | error
  deriving DecidableEq, Repr, Inhabited

/-- R345, R348: a queue. -/
structure Queue where
  st : QState := .disabled
  desc : BitVec 512 := 0
  head : W64 := 0
  tail : W64 := 0
  stale : W32 := 0
  /-- R349: the step to repeat is the write of HEADM. -/
  redo : Bool := false
  /-- R352, R353: the dispatcher is to read the slot at head again. -/
  due : Bool := false
  deriving DecidableEq, Repr, Inhabited

/-- Kinds of copies (R434). -/
inductive CKind where
  | cpy | cpys | cpyg | cpyw | cpywSparse | cpact | scpy
  deriving DecidableEq, Repr, Inhabited

/-- How a copy is tracked (R214, R222, R290). -/
inductive Track where
  | batch (n : W32)
  | bar (off : Nat)
  | seq (inst : Nat)
  | act
  deriving DecidableEq, Repr, Inhabited

/-- R229: a segment that has passed its checks and has written some of its bytes: where the rest goes, a mask of those written,
and what it read. -/
structure Moving where
  dst : Nat := 0
  mask : Nat := 0
  data : List Byte := []
  deriving DecidableEq, Repr, Inhabited

/-- R214 to R225: a copy in flight. -/
structure Copy where
  /-- The model's own: the name by which it sees stores (R217), as a fragment does (DESIGN CHOICE, log 3). -/
  id : Nat := 0
  core : Nat := 0
  ctx : Nat := 0
  launch : Nat := 0
  crew : Nat := 0
  /-- The issuing wave, while it has not been freed (R218); its slot and %wid. -/
  wave : Option Nat := Option.none
  slot : Nat := 0
  wid : Nat := 0
  pc : Pc := 0
  kind : CKind := .cpy
  /-- The three kinds of scpy (R290). -/
  scpy : ScpyKind := .toA
  ty : Ty := .none
  src : Nat := 0
  dst : Nat := 0
  len : Nat := 0
  bank : Nat := 0
  track : Track := .act
  done : List Nat := []
  parked : List Nat := []
  /-- Patched (source, destination) of restarted segments (R434, R446). -/
  patched : Table (Nat × Nat) := []
  moved : Table Moving := []
  retry : List Nat := []
  /-- Bytes that a sparse copy has written so far, and source bytes of a group not whole yet (R220). -/
  outp : Nat := 0
  rest : List Byte := []
  deriving DecidableEq, Repr, Inhabited

/-- R423: the work behind a record. -/
inductive Work where
  | wave (w : Nat)
  | inst (i : Nat)
  | seg (copy seg : Nat)
  | link (qp : Nat) (send : Bool) (n : W32)
  /-- An mdrainx that its queue pair did not take (R460). -/
  | held (k : Nat)
  | launch (l : Nat)
  | queue (ctx q : Nat)
  | packet (ctx q : Nat)
  | event
  deriving DecidableEq, Repr, Inhabited

/-- What an adjournment reports (R429, R430). -/
structure Report where
  causes : W64 := 0
  pc : W64 := 0
  amask : Lanes := 0
  fmask : Lanes := 0
  faddr : W64 := 0
  /-- Lane L's address under L. -/
  lanes : Cells 64 := []
  detail : W64 := 0
  other : Bool := false
  /-- The kind's own bytes from 0x080 on (R433 to R435). -/
  body : List Byte := []
  /-- ORIGIN of work that is gone when its record is written (R429). -/
  origin : Option W64 := Option.none
  deriving DecidableEq, Repr, Inhabited

/-- Work that has stopped and whose record is not written yet (R423, after step 1). -/
structure Detached where
  work : Work
  ctx : Nat
  die : Nat
  report : Report
  /-- The launch of work that is gone (R454). -/
  owner : Option Nat := Option.none
  deriving DecidableEq, Repr, Inhabited

/-- R428: states of a record. -/
inductive RState where
  | parked | handling
  deriving DecidableEq, Repr, Inhabited

/-- R427, R428: a record slot in use. Its bytes stand in memory. -/
structure Record where
  st : RState := .parked
  work : Work := .event
  kind : Nat := 0
  home : Nat := 0
  /-- Context and launch of the work. -/
  ctx : Nat := 0
  owner : Nat := 0
  launch : Option Nat := Option.none
  fs : Nat := 0
  depth : Nat := 1
  remote : Bool := false
  nest : Bool := false
  /-- Key of its fault task while that has not dispatched. -/
  task : Option Nat := Option.none
  /-- R438: sent to a remote X8 through this queue pair; the proxy keeps the home handle. -/
  sent : Option Nat := Option.none
  handle : W64 := 0
  deriving DecidableEq, Repr, Inhabited

/-- R271: states of a die's copy of a line. -/
inductive Moesi where
  | m | o | e | s
  deriving DecidableEq, Repr, Inhabited

structure L2Line where
  st : Moesi := .s
  data : MemLine := 0
  deriving DecidableEq, Repr, Inhabited

/-- R272: an entry of the snoop filter. -/
structure DirEntry where
  owner : Option Nat := Option.none
  sharers : BitVec 8 := 0
  /-- The line's tenancy partition. -/
  part : Option Nat := Option.none
  deriving DecidableEq, Repr, Inhabited

/-- A piece of an access inside one line: virtual address, physical address, length. -/
structure Piece where
  va : Nat
  pa : Nat
  len : Nat
  deriving DecidableEq, Repr, Inhabited

/-- R229, R230, R235: one event of a store: it has issued, and it is not performed at its line's home yet. (DESIGN CHOICE, log 3.) -/
structure Post where
  tok : Nat := 0
  core : Nat := 0
  wave : Nat := 0
  /-- Its launch (R367). -/
  who : Option Nat := Option.none
  parts : List Piece := []
  data : List Byte := []
  /-- It is a fully coalesced beat (R230). -/
  beat : Bool := false
  /-- Fragments that must see it: its own, those that have read it, and those to which an order has carried it (R232, R236). -/
  obs : List Nat := []
  /-- Crews at whose scope it is performed (R234, R235). -/
  crews : List Nat := []
  deriving DecidableEq, Repr, Inhabited

/-- R328: a translation that a cache holds, with the address of its entry: level 0 is the cache of core `unit`, 1 of cluster `unit`,
2 of die `unit`. -/
structure Tlb where
  lvl : Nat
  unit : Nat
  ctx : Nat
  va : Nat
  size : Nat
  leaf : W64
  entry : Nat
  deriving DecidableEq, Repr, Inhabited

/-- R330: a shootdown in progress. -/
structure Shoot where
  ctx : Nat
  lo : Nat
  len : Nat
  wave : Nat
  /-- Scalar destination of the form and what it receives (R331). -/
  d : Nat := 63
  val : W64 := 0
  deriving DecidableEq, Repr, Inhabited

/-- Main memory, its caches, directory and translations. -/
structure MemSys where
  /-- Home copies of every line (DRAM and host memory). -/
  ram : Memory := []
  poison : List Nat := []
  /-- L1 data caches: line n of core c under 2^45·c + n. -/
  l1 : Table MemLine := []
  /-- R204: the virtual lines through which loads reached lines of an L1: key of the line, context, address over 128. -/
  l1va : List (Nat × Nat × Nat) := []
  /-- R228, R235: stores that are not performed at .sys yet, in the order of issue. -/
  posts : List Post := []
  /-- L2 copies of lines homed elsewhere: 2^45·die + n. -/
  l2 : Table L2Line := []
  dir : Table DirEntry := []
  dirBad : List Nat := []
  tlb : List Tlb := []
  shoots : Table Shoot := []
  /-- R326: snapshot copies wanted: context and page address. -/
  snaps : List (Nat × Nat) := []
  retired : List Nat := []
  errs : Table Nat := []
  /-- R342: system marks: base and length of the frames and the cause: 0 to 63 structures of that context, 64 page table,
  65 leaf with S, 66 journal, 67 queue-pair table. -/
  sys : List (Nat × Nat × Nat) := []
  deriving DecidableEq, Repr, Inhabited

/-- R254 to R258: the typed stores. -/
structure Stores where
  /-- Byte off of the cluster space of cluster c under 2^22·c + off. -/
  astore : Cells 8 := []
  /-- Byte off of the W-store of core c under 2^18·c + off. -/
  wstore : Cells 8 := []
  /-- Byte off of bank b of core c under 2^13·c + 2^12·b + off. -/
  act : Cells 8 := []
  /-- Current bank and owner context plus one, per core. -/
  bank : Cells 1 := []
  owner : Cells 8 := []
  /-- R176: actflips that have issued and not flipped: core, wave, token and the cpact copies waited for. -/
  flips : List (Nat × Nat × Nat × List Nat) := []
  /-- Uncorrectable words: (0, 4-byte word of the A-store), (1, 8-byte word of the W-store), (2, 8-byte half segment). -/
  bad : List (Nat × Nat) := []
  /-- Geometric predicates in flight, oldest first, per core. -/
  preds : List (Nat × Pred) := []
  /-- The next fetch of (core, line) delivers a bad copy. -/
  badFetch : List (Nat × Nat) := []
  deriving DecidableEq, Repr, Inhabited

/-- R452, R466: states of a queue pair, coded as lqp codes them. -/
inductive QpState where
  | reset | init | ready | error
  deriving DecidableEq, Repr, Inhabited

/-- An operation of a queue pair (R455 to R460). -/
structure LinkOpn where
  n : W32 := 0
  kind : Nat := 0
  sp : Bool := false
  addr : Nat := 0
  len : Nat := 0
  /-- Offset of its barrier object in the cluster space. -/
  bar : Option Nat := Option.none
  /-- Issuing launch, crew, core, wave slot and %wid; none for a message of the Arbiter. -/
  launch : Option Nat := Option.none
  crew : Nat := 0
  core : Nat := 0
  slot : Nat := 0
  wid : Nat := 0
  /-- The instance whose mdrainx it is, while that lives, and that it is one. -/
  inst : Option Nat := Option.none
  drainx : Bool := false
  /-- The bytes of a message that is held (mdrainx, R438). -/
  data : Option (List Byte) := Option.none
  /-- Attempt, and when its last packet left. -/
  att : Nat := 0
  sentAt : W64 := 0
  /-- R458: a hold has answered the attempt, which does not count. -/
  spared : Bool := false
  parked : Bool := false
  /-- R459: its local address has been patched. -/
  patched : Bool := false
  /-- Of a receive: packets placed (offset and length), and TLEN of its message. -/
  got : List (Nat × Nat) := []
  tlen : Option W32 := Option.none
  /-- R446: restarted by pkret. -/
  retry : Bool := false
  deriving DecidableEq, Repr, Inhabited

/-- R451, R452: a queue pair. -/
structure Qp where
  st : QpState := .reset
  /-- The descriptor as read at the move to init. -/
  desc : BitVec 512 := 0
  nsend : W32 := 0
  nrecv : W32 := 0
  sends : List LinkOpn := []
  recvs : List LinkOpn := []
  /-- Operations that have completed: send, number, status and TLEN of a done receive. -/
  finished : List (Bool × W32 × Nat × W32) := []
  /-- R438, R439: messages placed in task buffers that the Arbiter has not taken: number, context and address. -/
  inbox : List (W32 × Nat × Nat) := []
  deriving DecidableEq, Repr, Inhabited

/-- R450: a frame put on the wire: port, destination MAC, tag and contents. -/
structure Sent where
  port : Nat
  mac : BitVec 48
  vlan : BitVec 16
  frame : Frame
  deriving DecidableEq, Repr, Inhabited

/-- The link engines. -/
structure Link where
  qps : Table Qp := []
  /-- R460: mdrainx messages that no queue pair has taken, with the queue pair each names. -/
  held : Table (Nat × LinkOpn) := []
  /-- Frames put on the wire, oldest first. -/
  tx : List Sent := []
  deriving DecidableEq, Repr, Inhabited

/-- R475: an island. -/
structure Island where
  /-- Frequency before any cap, voltage offset, headroom spent, least slack, and the cap of R479. -/
  freq : Nat := 800
  voff : Nat := 0
  spent : Bool := false
  slack : Nat := 255
  cap : Nat := 800
  deriving DecidableEq, Repr, Inhabited

/-- R467 to R482: host attachment, journal and health. -/
structure Health where
  /-- The fourteen counters of R482. -/
  counters : Cells 64 := []
  errst : W64 := 0
  jbase : W64 := 0
  jhead : W64 := 0
  qptab : W64 := 0
  plim : W64 := 2650
  rpthr : W64 := 32
  c0desc : W64 := 0
  islands : Table Island := []
  /-- R477: the reasons of the replace request that have been met. -/
  repl : W64 := 0
  /-- Physical clusters (64·die + n) marked for deconfiguration. -/
  marks : List Nat := []
  /-- Cores quarantined, and those to be quarantined at their next idle. -/
  quarantined : List Nat := []
  pendingQ : List Nat := []
  /-- Lasting faults counted against clusters. -/
  lasting : Cells 32 := []
  /-- R480: the eight registers, the nonce and the last signed report. -/
  measure : List (List Byte) := List.replicate 8 (List.replicate 64 0)
  nonce : BitVec 256 := 0
  signed : List Byte := []
  /-- R478: state index of the identity key. -/
  sigs : Nat := 0
  /-- Partition entries as written (R471): register of 8 bytes under 64·p + offset/8. -/
  parts : Cells 64 := []
  /-- R15, R476: the physical clusters that each die exposes, in logical order. -/
  exposed : List (List Nat) := List.replicate 8 (List.range 64)
  /-- R472: the contexts whose control entry reads 1 in ERR. -/
  ctxErr : List Nat := []
  /-- R472: DESC of the context-control entries. -/
  ctxDesc : Cells 64 := []
  /-- R478: the device stays in reset. -/
  inReset : Bool := false
  /-- R477: interrupts raised. -/
  msix : Nat := 0
  /-- R479: watts drawn. -/
  power : Nat := 0
  /-- R475: least slack that a physical cluster (64·die + n) reported last. -/
  slack : Cells 8 := []
  deriving DecidableEq, Repr, Inhabited

/-- R304, R376: a tile task sampled by the Second. -/
structure Sampled where
  launch : Nat
  /-- Core of the original run, and its crew. -/
  core : Nat
  crew : Crew
  ttask : W32
  sig : W64
  opening : Opening := {}
  steps : Nat := 0
  /-- Banks of the core, and which was current, when the task closed (DESIGN CHOICE, log 16). -/
  act : Cells 8 := []
  bank : BitVec 1 := 0
  /-- Replays made: cluster and signature. -/
  runs : List (Nat × W64) := []
  deriving DecidableEq, Repr, Inhabited

/-- The agent that executes an instruction: fragment A (false) or B of a wave, or a sequencer instance. -/
inductive Agent where
  | frag (w : Nat) (side : Bool)
  | seq (i : Nat)
  deriving DecidableEq, Repr, Inhabited

/-- Errors of stored data and of delivery: physical events that the manual names as causes (R74, R91, R258, R270, R275). (DESIGN CHOICE, log 46.) -/
inductive Upset where
  | poison (line : Nat)
  | register (w code : Nat)
  | accumulator (i code : Nat)
  | store (kind word : Nat)
  | fetch (core line : Nat)
  | directory (line : Nat)
  | l1 (core line : Nat)
  /-- A corrected single-bit error, counted in health counter 0, 1 or 13. -/
  | corrected (counter : Nat)
  deriving DecidableEq, Repr, Inhabited

/-- A unit of the package that acts on its own, with what it acts on: the dispatcher of a die (R396), the retirement of a wave
(R384), the end of a launch (R373) and its deadline (R395), the Arbiter with stopped work (R426) or a message (R439), a link
engine's retry timer (R458), the end of a context (R338), a quarantine (R476). -/
inductive Duty where
  | choice (die : Nat)
  /-- R382: the loading of a wave is done. -/
  | loaded (w : Nat)
  | retire (w : Nat)
  | complete (l : Nat)
  | deadline (l : Nat)
  | record (n : Nat)
  | task (qp : Nat) (n : W32)
  | disposition (qp : Nat) (n : W32)
  | timeout (qp : Nat) (n : W32)
  | free (c : Nat)
  | quarantine (core : Nat)
  /-- R372: a launch is restored and dispatches again. -/
  | replay (l : Nat)
  /-- R338, R340: a crew is evicted whole, or returns. -/
  | evict (crew : Nat)
  | restore (crew : Nat)
  /-- R399: an instance parks. -/
  | park (inst : Nat)
  /-- R233, R235: a pending store event is performed. -/
  | perform (tok : Nat)
  /-- R229: a segment of a copy writes some of its bytes. -/
  | copyBytes (copy seg mask : Nat)
  /-- R229: the oldest operation of an instance, a drain, writes some of its bytes. -/
  | drainBytes (inst mask : Nat)
  /-- R228, R233: the line of a load that is still to issue is read into the L1. -/
  | fill (core ctx va : Nat)
  /-- R240: the words of a crew's windows that other agents have written become Invalid. -/
  | windows (crew : Nat)
  /-- R328: a translation cache replaces an entry. -/
  | replace (n : Nat)
  deriving DecidableEq, Repr, Inhabited

/-- What moves next (DESIGN CHOICE, log 2). -/
inductive Turn where
  | issue (w : Nat) (side : Bool)
  /-- Both fragments of a wave have issued, and that of `side` meets a cause first (R425). -/
  | issueBoth (w : Nat) (side : Bool)
  | seqIssue (i : Nat)
  | event (i : Instr)
  /-- The event of a unit, named by the unit. -/
  | duty (d : Duty)
  /-- %clk advances (R21). -/
  | elapse (ns : W64)
  /-- One ungated cycle of a core: budgets are charged and fragments age (R386, R393). -/
  | cycle (core : Nat)
  | upset (u : Upset)
  /-- R468: the host reads `size` bytes of BAR0. -/
  | hostRead (off size : Nat)
  deriving DecidableEq, Repr

/-- The whole package. -/
structure State where
  /-- R21: the timebase in ns. -/
  clk : W64
  /-- The schedule and the inputs still to come (DESIGN CHOICE, log 2). -/
  agenda : List Turn
  /-- The model's own: counter of draws from the free values, and of names; it starts at 1 (DESIGN CHOICE, log 2). -/
  draw : Nat
  /-- The agent whose instruction executes. -/
  cur : Option Agent
  mem : MemSys
  stores : Stores
  waves : Table Wave
  seqs : Table Inst
  crews : Table Crew
  launches : Table Launch
  ctxs : Table Ctx
  queues : Table Queue
  copies : Table Copy
  records : Table Record
  detached : List Detached
  samples : Table Sampled
  link : Link
  health : Health
  /-- R138: waves whose divergence stack a program has written. -/
  spoilt : List Nat
  deriving DecidableEq, Repr

/-- R2, R338, R342, R349, R470, R475: the package right after reset, with the firmware's work done: context 0 created, no
queue enabled, no work, every memory empty. (DESIGN CHOICE, log 13.) -/
def State.reset : State where
  clk := 0
  agenda := []
  draw := 1
  cur := none
  mem := {}
  stores := {}
  waves := []
  seqs := []
  crews := []
  launches := []
  ctxs := [(0, { st := .created })]
  queues := []
  copies := []
  records := []
  detached := []
  samples := []
  link := {}
  health := {}
  spoilt := []

end Sys2Proof.Machine
end

