-- ==== Sys2Proof/WellFormed.lean ====
section
/-!
DEFINITION. Which instructions are well formed: the limits that the manual sets on types, saturation, rounding and counts
beyond the widths of the fields (R57, R95 to R108 and the chapters named below). What is not well formed is no
instruction and adjourns with ILL (R108).
-/
namespace Sys2Proof

/-- R32: width of an element in bits. -/
def Ty.width : Ty → Nat
  | .none => 0
  | .s8 | .n8 | .b8 | .e4m3 | .e5m2 | .dx8 => 8
  | .s16 | .n16 | .b16 | .f16 | .bf16 => 16
  | .s32 | .n32 | .b32 | .f32 => 32
  | .s64 | .n64 | .b64 | .f64 => 64
  | .dx4 => 4

/-- R32: signed integer. -/
def Ty.isS : Ty → Bool
  | .s8 | .s16 | .s32 | .s64 => true
  | _ => false

/-- R32: unsigned integer. -/
def Ty.isN : Ty → Bool
  | .n8 | .n16 | .n32 | .n64 => true
  | _ => false

/-- R32: raw. -/
def Ty.isB : Ty → Bool
  | .b8 | .b16 | .b32 | .b64 => true
  | _ => false

/-- R34: the six formats. -/
def Ty.isF : Ty → Bool
  | .f64 | .f32 | .f16 | .bf16 | .e4m3 | .e5m2 => true
  | _ => false

/-- An integer type with a numeric meaning. -/
def Ty.isInt (t : Ty) : Bool := t.isS || t.isN

/-- A field that names the first register of a pair is even for 64-bit elements (R33, R57). -/
def evenFor (t : Ty) {w : Nat} (r : BitVec w) : Bool := t.width != 64 || !r.getLsbD 0

/-- R33: the pair rule on a vector B operand. -/
def SrcV.evenFor (t : Ty) : SrcV → Bool
  | .vec r => Sys2Proof.evenFor t r
  | _ => true

def SrcV.isNone : SrcV → Bool
  | .vec r => r == 0
  | _ => false

/-- R94, R95: the guard of a form is free; this is the unguarded encoding. -/
def Guard.none : Guard := ⟨15, false⟩

/-- Number of trailing zero bits demanded of a significand. -/
def lowZeros (x : W32) (n : Nat) : Bool := bits x 0 n == 0

/-- R97: a binary32 immediate converts exactly to the type. -/
def immExact (t : Ty) (v : W32) : Bool :=
  let e := bits v 23 8
  let f := bits v 0 23
  match t with
  | .bf16 => lowZeros v 16
  | .f16 =>
    if e == 255 then f == 0 || (lowZeros v 13 && bits v 13 10 != 0)
    else if e == 0 then f == 0
    else if 113 ≤ e then e ≤ 142 && lowZeros v 13
    else 103 ≤ e && (2 ^ 23 + f) % 2 ^ (126 - e) == 0
  | _ => true

/-- R153: types and saturation of class 0x1; `lim` says whether saturation 1 is allowed and `raw` whether raw types are. -/
def SInt.ok (o : SInt) (sat raw useC : Bool) : Bool :=
  (o.ty.isInt || (raw && o.ty.isB)) && (o.sat == .none || (sat && o.sat == .clamp)) && (useC || o.c == 0)

/-- R166: the operand rules of class 0x3. -/
def VOp.okInt (o : VOp) (types : Ty → Bool) (sat unary useC : Bool) : Bool :=
  types o.ty && o.rnd == .dyn && (o.sat == .none || (sat && o.sat == .clamp)) &&
    evenFor o.ty o.d && evenFor o.ty o.a && o.b.evenFor o.ty && (!unary || o.b.isNone) &&
    (if useC then evenFor o.ty o.c else o.c == 0)

/-- R167, R97: the operand rules of class 0x4 and of the special functions. -/
def VOp.okFlt (o : VOp) (types : Ty → Bool) (round unary useC immInt : Bool) : Bool :=
  types o.ty && (round || (o.rnd == .dyn && o.sat == .none)) &&
    evenFor o.ty o.d && evenFor o.ty o.a && o.b.evenFor o.ty && (!unary || o.b.isNone) &&
    (if useC then evenFor o.ty o.c else o.c == 0) &&
    (immInt || (match o.b with | .imm v => immExact o.ty v | _ => true))

/-- The four formats of class 0x4 (R167). -/
def Ty.isVf (t : Ty) : Bool := t == .f64 || t == .f32 || t == .f16 || t == .bf16

/-- The raw types of class 0x6 (R183). -/
def Ty.isB3264 (t : Ty) : Bool := t == .b32 || t == .b64

/-- R177: the types of the conversions. -/
def Ty.isCvt (t : Ty) : Bool := t.isInt || t.isF

/-- R34: bits of precision of a format, hidden bit included. -/
def Ty.precision : Ty → Nat
  | .f64 => 53 | .f32 => 24 | .f16 => 11 | .bf16 => 8 | .e4m3 => 4 | .e5m2 => 3
  | _ => 0

/-- R177: conversions that are always exact. -/
def alwaysExact (dst src : Ty) : Bool :=
  if dst.isF then
    if src.isF then src.width < dst.width
    else (if src.isS then src.width - 1 else src.width) ≤ dst.precision
  else !src.isF

/-- R177: the common rules of cvt, pack and unpack. -/
def Cvt.ok (o : Cvt) : Bool :=
  o.dst.isCvt && o.src.isCvt && o.dst != o.src && (!alwaysExact o.dst o.src || o.rnd == .dyn) &&
    (o.sat != .unit || o.dst.isF) && evenFor o.dst o.d && evenFor o.src o.a

/-- R180, R181: registers of the wide side of dxq and dxd. -/
def dxRegs (dx flt : Ty) : Nat := (if flt == .f32 then 4 else 2) * (if dx == .dx4 then 2 else 1)

/-- R186: operations and types of vred and vscan. -/
def RedOp.ok (op : RedOp) (t : Ty) : Bool :=
  match op with
  | .add | .min | .max => t == .s32 || t == .n32 || t == .s64 || t == .n64 || t == .f32 || t == .f64
  | .and | .or | .xor => t == .s32 || t == .n32 || t == .s64 || t == .n64 || t == .b32 || t == .b64

/-- R183, R186: vred and vscan. -/
def RedScan.ok (o : RedScan) (scan : Bool) : Bool :=
  o.op.ok o.ty && (o.rnd == .dyn || (o.op == .add && o.ty.isF && o.rnd != .sr)) &&
    (if scan then evenFor o.ty o.d && (o.seg || o.pc == 0) else !o.ex && !o.seg && o.pc == 0 && o.d.toNat < 64) &&
    evenFor o.ty o.a

/-- R192, R193, R198, R200: lane-addressed loads and stores. -/
def MemOp.ok (o : MemOp) (load loc : Bool) : Bool :=
  (o.ty.isInt || o.ty.isB || o.ty.isF) &&
    (match o.rf with
     | .packed => true
     | .wide => o.ty.width ≤ 16
     | .pair => o.ty.width ≤ 32) &&
    (if o.rf == .pair || (o.rf == .packed && o.ty.width == 64) then !o.v.getLsbD 0 else true) &&
    (if o.am == .base then o.b == 0 else true) && (o.am != .b64 || !o.b.getLsbD 0) &&
    (!loc || (o.am != .b64 && o.hnt == .normal)) &&
    (if load || o.rf == .packed || o.ty.isB then o.rnd == .dyn && o.sat == .none
     else o.ty.isF || (o.rnd == .dyn && o.sat != .unit))

/-- R209: operations and types of an atomic with an operation. -/
def AtOp.ok (op : AtOp) (t : Ty) : Bool :=
  match op with
  | .add | .min | .max => t == .s32 || t == .n32 || t == .s64 || t == .n64 || t == .f32 || t == .f64
  | .and | .or | .xor | .exch => t.isB3264

/-- R106, R192: addressing of atomics. -/
def AtomOp.okAddr (o : AtomOp) : Bool :=
  (if o.am == .base then o.b == 0 else true) && (o.am != .b64 || !o.b.getLsbD 0) && evenFor o.ty o.c && evenFor o.ty o.d

/-- R220: element types that cpyw.sparse and scpy kind 3 accept. -/
def Ty.isSparse (t : Ty) : Bool :=
  t == .b8 || t == .b16 || t == .b32 || t == .f32 || t == .f16 || t == .bf16 || t == .e4m3 || t == .e5m2

/-- R293: formats of mma and mmag. -/
def Ty.isMma (t : Ty) : Bool := t.isF || t == .dx8 || t == .dx4

/-- R293: the limits of mma and mmag. -/
def Mma.ok (o : Mma) : Bool :=
  o.fmt.isMma && 1 ≤ o.k.toNat && o.k.toNat ≤ 16384 && (!o.sp || (o.fmt != .f64 && o.fmt != .dx8 && o.fmt != .dx4)) &&
    (!(o.sp || o.fmt == .dx8 || o.fmt == .dx4) || o.k.toNat % 32 == 0) && (o.fmt != .f64 || !o.d.getLsbD 0)

/-- R297: mdrain. -/
def Drain.ok (o : Drain) : Bool :=
  o.ty.isF && (if o.act then o.ty != .f64 else o.xc == 0) && (o.ty != .f64 || !o.d.getLsbD 0)

/-- R308: predicates. -/
def GeoOp.ok (o : GeoOp) : Bool :=
  (o.ty == .f64 || o.ty == .f32) && (o.ty != .f64 || !o.a.getLsbD 0) && (o.tb || o.b == 0)

/-- R157: comparisons of cmp. -/
def cmpOk (cc : ICond) (t : Ty) : Bool :=
  t.isInt || t == .f64 || t == .f32 || (t.isB && (cc == .eq || cc == .ne))

/-- R189: comparisons of vcmp. -/
def vcmpOk (cc : ICond) (t : Ty) : Bool :=
  t == .s32 || t == .n32 || t == .s64 || t == .n64 || (t.isB3264 && (cc == .eq || cc == .ne))

/-- R202: types of lds and sts. -/
def Ty.isLds (t : Ty) : Bool := t.isInt || t.isB || t.isVf

/-- R144: a link register is not em0 to em2. -/
def linkOk (d : BitVec 6) : Bool := d.toNat < 60 || d.toNat == 63

/-- R156: the field of bfe and bfi. -/
def fieldOk (pos : BitVec 6) (len : BitVec 7) : Bool :=
  1 ≤ len.toNat && len.toNat ≤ 64 && pos.toNat + len.toNat ≤ 64

/-- R481: offsets that mdrd accepts. -/
def mdrdOk (e : Nat) : Bool :=
  e % 8 == 0 && (e < 0x1000 || (0x2000 ≤ e && e < 0x3000) || (0x3000 ≤ e && e < 0x3100))

/-- R481: offsets that mdwr accepts. -/
def mdwrOk (e : Nat) : Bool := e % 8 == 0 && e ≤ 0x28 && e != 0x10

/-- The instruction (or event) is well formed. Events carry no encoding; every argument of an event is acceptable, and an
event whose object does not exist changes nothing (DESIGN CHOICE, log 11). (DEDUCED, log 20; DEDUCED, log 27.) -/
def wellFormed : Instr → Bool
  | .call d _ => linkOk d
  | .calli d a => linkOk d && !a.getLsbD 0
  | .rgn a m => (List.range 32).all fun i => !m.getLsbD i || a.toNat + i < 256
  | .add o | .sub o | .mul o | .div o => o.ok true false false
  | .mad o => o.ok true false true
  | .mulh o | .rem o | .min o | .max o => o.ok false false false
  | .and o | .or o | .xor o | .shl o | .shr o | .sar o => o.ok false true false
  | .clz t _ _ | .popc t _ _ | .brev t _ _ => t.isInt || t.isB
  | .bfe t _ _ p l => (t == .s64 || t == .n64 || t == .b64) && fieldOk p l
  | .bfi _ _ _ p l => fieldOk p l
  | .cmp cc t _ _ _ => cmpOk cc t
  | .cvts s o => (s.isInt || s.isVf) && (o.ty.isInt || o.ty.isVf) && s != o.ty && (o.sat != .unit || o.ty.isF) &&
      (!alwaysExact o.ty s || o.rnd == .dyn) && o.b == 0 && o.c == 0
  | .sfadd o | .sfmul o => (o.ty == .f64 || o.ty == .f32) && o.c == 0
  | .sffma o => o.ty == .f64 || o.ty == .f32
  | .vadd o | .vsub o | .vmul o | .vdiv o => o.okInt Ty.isInt true false false
  | .vmad o => o.okInt Ty.isInt true false true
  | .vabs o => o.okInt Ty.isS true true false
  | .vmulh o | .vmin o | .vmax o => o.okInt Ty.isInt false false false
  | .vand o | .vor o | .vxor o | .vshl o | .vshr o | .vsar o => o.okInt (fun t => t.isInt || t.isB) false false false
  | .vclz o | .vpopc o => o.okInt (fun t => t.isInt || t.isB) false true false
  | .vbfe o => o.okInt (fun t => t == .s32 || t == .n32 || t == .s64 || t == .n64) false false true
  | .vbfi o => o.okInt Ty.isB3264 false false true
  | .fadd o | .fsub o | .fmul o | .fdiv o => o.okFlt Ty.isVf true false false false
  | .ffma o => o.okFlt Ty.isVf true false true false
  | .fldexp o => o.okFlt Ty.isVf true false false true
  | .fsqrt o | .frcp o | .frsq o | .frint o => o.okFlt Ty.isVf true true false false
  | .fmin o | .fmax o => o.okFlt Ty.isVf false false false false
  | .fclass o => o.okFlt Ty.isVf false true false false
  | .fdot2 o => o.okFlt (fun t => t == .f16 || t == .bf16) true false false false
  | .fcmp o => (o.ty == .f64 || o.ty == .f32) && evenFor o.ty o.a && o.b.evenFor o.ty
  | .fexp2 o | .flog2 o | .fsin o | .fcos o => o.okFlt (fun t => t == .f32 || t == .f16 || t == .bf16) true true false false
  | .cvt o => o.ok && (let wx := max o.src.width o.dst.width
                       let wn := Nat.min o.src.width o.dst.width
                       o.q.toNat * wn < Nat.min wx 32)
  | .pack o => o.ok && o.q == 0 && o.dst.width < o.src.width && o.src.width ≤ 32
  | .unpack o => o.ok && o.q == 0 && o.src.width < o.dst.width && o.dst.width ≤ 32
  | .dxq o => (o.dst == .dx8 || o.dst == .dx4) && (o.src == .f32 || o.src == .f16 || o.src == .bf16) && o.c != o.d &&
      (o.dst != .dx4 || o.grp != 15)
  | .dxd o => (o.src == .dx8 || o.src == .dx4) && (o.dst == .f32 || o.dst == .f16 || o.dst == .bf16) &&
      (o.dst == .f16 || o.rnd == .dyn) && (o.src != .dx4 || o.grp != 15)
  | .fdp4 o => (o.ty == .e4m3 || o.ty == .e5m2) && (match o.b with | .vec _ => true | _ => false)
  | .vmov o => o.ty.isB3264 && evenFor o.ty o.d && evenFor o.ty o.a && o.b == 0 && o.c == 0
  | .vbcast _ t d _ => t.isB3264 && evenFor t d
  | .vperm o => o.ty == .b32
  | .vshflUp o n | .vshflDown o n | .vshflXor o n =>
      o.ty.isB3264 && evenFor o.ty o.d && evenFor o.ty o.a && o.b == 0 && o.c == 0 && n.toNat ≤ 95
  | .vshflIdx o => o.ty.isB3264 && evenFor o.ty o.d && evenFor o.ty o.a && o.c == 0
  | .vred o => o.ok false
  | .vscan o => o.ok true
  | .vmovrel o | .vstrel o => o.ty == .b32 && o.c == 0
  | .vcmp _ cc t _ a b => vcmpOk cc t && evenFor t a && evenFor t b
  | .vsel _ t d a b _ => t.isB3264 && evenFor t d && evenFor t a && evenFor t b
  | .pballot _ _ _ b | .pfrom _ _ _ b => b.toNat ≤ 2
  | .ldg o => o.ok true false
  | .stg o => o.ok false false
  | .ldl o => o.ok true true
  | .stl o => o.ok false true
  | .lds t _ _ _ _ | .sts t _ _ _ _ => t.isLds
  | .pfg _ am _ _ b _ => (if am == .base then b == 0 else true) && (am != .b64 || !b.getLsbD 0)
  | .ldgs _ t _ rf d _ _ _ =>
      (MemOp.mk Guard.none t .base .normal rf .dyn .none d 0 0 0).ok true false
  | .atom o => o.op.ok o.ty && o.okAddr
  | .atomc o => o.op == .add && o.ty.isB3264 && o.okAddr
  | .red o => o.op != .exch && o.op.ok o.ty && o.d == 0 && (o.ord == .rlx || o.ord == .rel) && o.okAddr
  | .atoml o => o.op.ok o.ty && o.okAddr && o.am != .b64 && (o.scope == .wv || o.scope == .crw)
  | .fence ord _ => ord != .rlx
  | .cpyw _ sp => (match sp with | none => true | some t => t.isSparse)
  | .mma o | .mmag o => o.ok
  | .mload t d _ _ => (t == .f32 || t == .f64) && (t != .f64 || !d.getLsbD 0)
  | .mdrain o => o.ok
  | .mdrainx t _ s _ _ => (t == .f32 || t == .bf16) && s != .unit
  | .mrsc t d _ => (t == .f32 || t == .f64) && (t != .f64 || !d.getLsbD 0)
  | .maffl d _ _ _ => !d.getLsbD 0
  | .mscan d _ => !d.getLsbD 0
  | .sadr _ off _ => off.toNat % 32 == 0
  | .sbarr off => off.toNat % 16 == 0
  | .sbwait off _ _ => off.toNat % 16 == 0
  | .scpy _ _ _ k t => if k == .toWSparse then t.isSparse else t == .none
  | .sfin (some off) => off.toNat % 16 == 0
  | .orient2 o | .orient3 o | .incirc o | .insph o | .segx o => o.ok
  | .gstat _ _ n => n.toNat ≤ 2
  | .bara _ _ k => 1 ≤ k.toNat
  | .qxfer _ _ k => 1 ≤ k.toNat
  | .enq d _ _ => d.toNat < 60
  | .lpost o | .lsend o => o.kind.toNat ≤ 3
  | .mdrd _ e => mdrdOk e.toNat
  | .mdwr _ e => mdwrOk e.toNat
  | .flrd _ e | .flclr _ e => e.toNat ≤ 13
  | .ctxrd _ sel _ => sel.toNat ≤ 6
  | _ => true

end Sys2Proof
end

