-- ==== Sys2Proof/Decode.lean ====
section
/-!
DEFINITION. The instruction word (R93 to R107): its fields, the encoder, and a decoder that is total on 96-bit words and
refuses by name what is no instruction (R108). The decoder reads a candidate from the fields and accepts it only when the
encoder gives back the very same fields, so a non-zero bit in a field that the form does not use, a guard where the form
takes none and a register field out of range (R57) are refused in one place.
-/
namespace Sys2Proof

/-- R93: the fields of a word. -/
structure Fields where
  op : BitVec 8 := 0
  fn : BitVec 8 := 0
  d : BitVec 8 := 0
  a : BitVec 8 := 0
  b : BitVec 8 := 0
  c : BitVec 8 := 0
  g : BitVec 4 := 15
  gn : BitVec 1 := 0
  rnd : BitVec 3 := 0
  sat : BitVec 2 := 0
  ty : BitVec 6 := 0
  imm : BitVec 32 := 0
  deriving DecidableEq, Repr

/-- R93: bits of the word, opcode highest. -/
def Fields.toWord (f : Fields) : BitVec 96 :=
  f.op ++ f.fn ++ f.d ++ f.a ++ f.b ++ f.c ++ f.g ++ f.gn ++ f.rnd ++ f.sat ++ f.ty ++ f.imm

def fieldsOf (w : BitVec 96) : Fields where
  op := w.extractLsb' 88 8
  fn := w.extractLsb' 80 8
  d := w.extractLsb' 72 8
  a := w.extractLsb' 64 8
  b := w.extractLsb' 56 8
  c := w.extractLsb' 48 8
  g := w.extractLsb' 44 4
  gn := w.extractLsb' 43 1
  rnd := w.extractLsb' 40 3
  sat := w.extractLsb' 38 2
  ty := w.extractLsb' 32 6
  imm := w.extractLsb' 0 32

/-- R32: type codes. -/
def tyCode : Ty → Nat
  | .none => 0x00
  | .s8 => 0x01 | .s16 => 0x02 | .s32 => 0x03 | .s64 => 0x04
  | .n8 => 0x05 | .n16 => 0x06 | .n32 => 0x07 | .n64 => 0x08
  | .b8 => 0x09 | .b16 => 0x0A | .b32 => 0x0B | .b64 => 0x0C
  | .f64 => 0x10 | .f32 => 0x11 | .f16 => 0x12 | .bf16 => 0x13 | .e4m3 => 0x14 | .e5m2 => 0x15
  | .dx8 => 0x18 | .dx4 => 0x19

def tyOf (n : Nat) : Option Ty :=
  match n with
  | 0x00 => some .none
  | 0x01 => some .s8 | 0x02 => some .s16 | 0x03 => some .s32 | 0x04 => some .s64
  | 0x05 => some .n8 | 0x06 => some .n16 | 0x07 => some .n32 | 0x08 => some .n64
  | 0x09 => some .b8 | 0x0A => some .b16 | 0x0B => some .b32 | 0x0C => some .b64
  | 0x10 => some .f64 | 0x11 => some .f32 | 0x12 => some .f16 | 0x13 => some .bf16
  | 0x14 => some .e4m3 | 0x15 => some .e5m2
  | 0x18 => some .dx8 | 0x19 => some .dx4
  | _ => Option.none

/-- R41: rounding codes; 7 is reserved. -/
def rndCode : Rnd → Nat
  | .dyn => 0 | .rne => 1 | .rtz => 2 | .rdn => 3 | .rup => 4 | .rna => 5 | .sr => 6

def rndOf (n : Nat) : Option Rnd :=
  match n with
  | 0 => some .dyn | 1 => some .rne | 2 => some .rtz | 3 => some .rdn | 4 => some .rup | 5 => some .rna | 6 => some .sr
  | _ => Option.none

/-- R44: saturation codes. -/
def satCode : Sat → Nat
  | .none => 0 | .clamp => 1 | .unit => 2

def satOf (n : Nat) : Option Sat :=
  match n with
  | 0 => some .none | 1 => some .clamp | 2 => some .unit
  | _ => Option.none

/-- R104: integer comparisons in FN. -/
def icondCode : ICond → Nat
  | .eq => 0 | .ne => 1 | .lt => 2 | .le => 3 | .gt => 4 | .ge => 5

def icondOf (n : Nat) : Option ICond :=
  match n with
  | 0 => some .eq | 1 => some .ne | 2 => some .lt | 3 => some .le | 4 => some .gt | 5 => some .ge
  | _ => Option.none

/-- R103: float comparisons, FN minus 0x10. -/
def fcondCode : FCond → Nat
  | .eq => 0 | .ne => 1 | .lt => 2 | .le => 3 | .gt => 4 | .ge => 5 | .un => 6 | .or => 7

def fcondOf (n : Nat) : Option FCond :=
  match n with
  | 0 => some .eq | 1 => some .ne | 2 => some .lt | 3 => some .le | 4 => some .gt | 5 => some .ge | 6 => some .un
  | 7 => some .or
  | _ => Option.none

/-- R104: operations of vred and vscan. -/
def redCode : RedOp → Nat
  | .add => 0 | .min => 1 | .max => 2 | .and => 3 | .or => 4 | .xor => 5

def redOf (n : Nat) : Option RedOp :=
  match n with
  | 0 => some .add | 1 => some .min | 2 => some .max | 3 => some .and | 4 => some .or | 5 => some .xor
  | _ => Option.none

/-- R106: atomic operations. -/
def atCode : AtOp → Nat
  | .add => 0 | .min => 1 | .max => 2 | .and => 3 | .or => 4 | .xor => 5 | .exch => 6

def atOf (n : Nat) : Option AtOp :=
  match n with
  | 0 => some .add | 1 => some .min | 2 => some .max | 3 => some .and | 4 => some .or | 5 => some .xor | 6 => some .exch
  | _ => Option.none

/-- R106: orders. -/
def ordCode : Order → Nat
  | .rlx => 0 | .acq => 1 | .rel => 2 | .ar => 3

def ordOf (n : Nat) : Order :=
  match n with
  | 0 => .rlx | 1 => .acq | 2 => .rel
  | _ => .ar

/-- R106: scopes. -/
def scopeCode : Scope → Nat
  | .wv => 0 | .crw => 1 | .die => 2 | .pkg => 3 | .sys => 4

def scopeOf (n : Nat) : Option Scope :=
  match n with
  | 0 => some .wv | 1 => some .crw | 2 => some .die | 3 => some .pkg | 4 => some .sys
  | _ => Option.none

/-- R105: address modes. -/
def amCode : AMode → Nat
  | .base => 0 | .s32 => 1 | .n32 => 2 | .b64 => 3

def amOf (n : Nat) : AMode :=
  match n with
  | 0 => .base | 1 => .s32 | 2 => .n32
  | _ => .b64

/-- R105: cache hints. -/
def hintCode : Hint → Nat
  | .normal => 0 | .stream => 1 | .keep => 2

def hintOf (n : Nat) : Option Hint :=
  match n with
  | 0 => some .normal | 1 => some .stream | 2 => some .keep
  | _ => Option.none

/-- R105: register forms. -/
def rfCode : RForm → Nat
  | .packed => 0 | .wide => 1 | .pair => 2

def rfOf (n : Nat) : Option RForm :=
  match n with
  | 0 => some .packed | 1 => some .wide | 2 => some .pair
  | _ => Option.none

/-- R66: selectors of the special registers. -/
def sregCode : SReg → Nat
  | .lane => 0x00 | .wslot => 0x01 | .wid => 0x02 | .crew => 0x03 | .core => 0x04 | .clus => 0x05 | .die => 0x06
  | .clk => 0x07 | .ctx => 0x08 | .mode => 0x10 | .flags => 0x11 | .alloc => 0x12

def sregOf (n : Nat) : Option SReg :=
  match n with
  | 0x00 => some .lane | 0x01 => some .wslot | 0x02 => some .wid | 0x03 => some .crew | 0x04 => some .core
  | 0x05 => some .clus | 0x06 => some .die | 0x07 => some .clk | 0x08 => some .ctx | 0x10 => some .mode
  | 0x11 => some .flags | 0x12 => some .alloc
  | _ => Option.none

/-- R285: kinds of scpy. -/
def scpyCode : ScpyKind → Nat
  | .toA => 0 | .fromA => 1 | .toW => 2 | .toWSparse => 3

def scpyOf (n : Nat) : Option ScpyKind :=
  match n with
  | 0 => some .toA | 1 => some .fromA | 2 => some .toW | 3 => some .toWSparse
  | _ => Option.none

/-- R331: leaf sizes. -/
def szCode : PgSize → Nat
  | .k64 => 0 | .m2 => 1 | .g1 => 2

def szOf (n : Nat) : Option PgSize :=
  match n with
  | 0 => some .k64 | 1 => some .m2 | 2 => some .g1
  | _ => Option.none

/-- A register field of the word from a narrower register number. -/
abbrev r8 {w : Nat} (x : BitVec w) : BitVec 8 := x.setWidth 8

abbrev n8 (n : Nat) : BitVec 8 := BitVec.ofNat 8 n

def Fields.withGuard (f : Fields) (g : Guard) : Fields := { f with g := g.p, gn := if g.neg then 1 else 0 }

def Fields.guard (f : Fields) : Guard := ⟨f.g, f.gn == 1⟩

def Fields.withTy (f : Fields) (t : Ty) : Fields := { f with ty := BitVec.ofNat 6 (tyCode t) }

def Fields.withRS (f : Fields) (r : Rnd) (s : Sat) : Fields :=
  { f with rnd := BitVec.ofNat 3 (rndCode r), sat := BitVec.ofNat 2 (satCode s) }

/-- R140: branch format; bits [47:32] hold 0, and [55:32] the second target of brv. -/
def brFields (op fn : Nat) (t : W32) (d a b : BitVec 8 := 0) (j : BitVec 24 := 0) : Fields where
  op := n8 op
  fn := n8 fn
  d := d
  a := a
  b := b
  c := j.extractLsb' 16 8
  g := j.extractLsb' 12 4
  gn := j.extractLsb' 11 1
  rnd := j.extractLsb' 8 3
  sat := j.extractLsb' 6 2
  ty := j.extractLsb' 0 6
  imm := t

/-- The second target of the branch format, bits [55:32]. -/
def Fields.second (f : Fields) : BitVec 24 := f.c ++ f.g ++ f.gn ++ f.rnd ++ f.sat ++ f.ty

/-- R153: class 0x1. -/
def sintFields (fn : Nat) (o : SInt) : Fields :=
  let (op, b, imm) := match o.b with
    | .reg r => (0x10, r8 r, 0#32)
    | .imm v => (0x11, 0#8, v)
  ({ op := n8 op, fn := n8 fn, d := r8 o.d, a := r8 o.a, b, c := r8 o.c, imm } : Fields).withTy o.ty |>.withRS .dyn o.sat

/-- R103: the opcode and B operand of the vector groups. -/
def srcvFields (base : Nat) : SrcV → Nat × BitVec 8 × W32
  | .vec r => (base, r, 0)
  | .scal r => (base + 1, r8 r, 0)
  | .imm v => (base + 2, 0, v)

/-- Classes 0x3 and 0x4 (R166, R167). -/
def vopFields (base fn : Nat) (o : VOp) : Fields :=
  let (op, b, imm) := srcvFields base o.b
  ({ op := n8 op, fn := n8 fn, d := o.d, a := o.a, b, c := o.c, imm } : Fields).withTy o.ty |>.withRS o.rnd o.sat
    |>.withGuard o.g

/-- One opcode with a vector B (R173, R182). -/
def vop1Fields (op fn : Nat) (o : VOp) : Option Fields :=
  match o.b with
  | .vec b => some (({ op := n8 op, fn := n8 fn, d := o.d, a := o.a, b, c := o.c } : Fields).withTy o.ty
      |>.withRS o.rnd o.sat |>.withGuard o.g)
  | _ => none

def sfltFields (op fn : Nat) (o : SFlt) : Fields :=
  ({ op := n8 op, fn := n8 fn, d := r8 o.d, a := r8 o.a, b := r8 o.b, c := r8 o.c } : Fields).withTy o.ty
    |>.withRS o.rnd o.sat

def cvtFields (op : Nat) (o : Cvt) : Fields :=
  ({ op := n8 op, fn := n8 (tyCode o.src), d := o.d, a := o.a, imm := o.q.setWidth 32 } : Fields).withTy o.dst
    |>.withRS o.rnd o.sat |>.withGuard o.g

def dxFields (op : Nat) (o : DxOp) : Fields :=
  ({ op := n8 op, fn := n8 (tyCode o.src), d := o.d, a := o.a, c := o.c, imm := o.grp.setWidth 32 } : Fields).withTy o.dst
    |>.withRS o.rnd .none |>.withGuard o.g

def laneFields (op fn : Nat) (o : LaneOp) (imm : W32 := 0) : Fields :=
  ({ op := n8 op, fn := n8 fn, d := o.d, a := o.a, b := o.b, c := o.c, imm } : Fields).withTy o.ty |>.withGuard o.g

def redFields (op : Nat) (o : RedScan) : Fields :=
  ({ op := n8 op, fn := n8 (redCode o.op + (if o.ex then 8 else 0) + (if o.seg then 16 else 0)), d := o.d, a := o.a,
     c := r8 o.pc } : Fields).withTy o.ty |>.withRS o.rnd .none |>.withGuard o.g

/-- R105: FN of the memory forms. -/
def memFn (am : AMode) (h : Hint) (rf : RForm) : BitVec 8 := n8 (amCode am * 64 + hintCode h * 16 + rfCode rf)

def memFields (op : Nat) (o : MemOp) (load : Bool) : Fields :=
  ({ op := n8 op, fn := memFn o.am o.hnt o.rf, d := if load then o.v else 0, a := r8 o.a, b := o.b,
     c := if load then 0 else o.v, imm := o.imm } : Fields).withTy o.ty |>.withRS o.rnd o.sat |>.withGuard o.g

/-- R106: FN and scope of the atomic forms. -/
def atomFields (op : Nat) (o : AtomOp) : Fields :=
  ({ op := n8 op, fn := n8 (atCode o.op * 16 + ordCode o.ord * 4 + amCode o.am), d := o.d, a := r8 o.a, b := o.b, c := o.c,
     rnd := BitVec.ofNat 3 (scopeCode o.scope), imm := o.imm } : Fields).withTy o.ty |>.withGuard o.g

/-- R214: copies. -/
def cpyFields (op fn : Nat) (o : Cpy) (t : Ty) : Fields :=
  ({ op := n8 op, fn := n8 fn, d := r8 o.d, a := r8 o.a, b := r8 o.b,
     c := match o.bar with | some r => r8 r | none => 0,
     imm := match o.bar with | some _ => 1 | none => 0 } : Fields).withTy t

/-- R285: the sequencer format has no guard; bits [47:43] are 0. -/
def seqFields (op : Nat) (fn : Nat := 0) (d a b c : BitVec 8 := 0) (imm : W32 := 0) : Fields where
  op := n8 op
  fn := n8 fn
  d := d
  a := a
  b := b
  c := c
  g := 0
  imm := imm

/-- R285: rs/16 in IMM[31:16]. -/
def rsImm (rs : BitVec 16) : W32 := rs ++ (0#16)

def mmaFields (op : Nat) (o : Mma) : Fields :=
  (seqFields op 0 (r8 o.d) (r8 o.xa) (r8 o.xb) 0 (o.rs ++ (if o.sp then 1#1 else 0#1) ++ o.k)).withTy o.fmt

def geoFields (op : Nat) (o : GeoOp) : Fields :=
  ({ op := n8 op, fn := n8 ((if o.tb then 1 else 0) + (if o.code then 2 else 0)), d := o.d, a := o.a, b := o.b } : Fields)
    |>.withTy o.ty |>.withGuard o.g

/-- R463: lpost and lsend. -/
def linkFields (op : Nat) (o : LinkOp) : Fields :=
  { op := n8 op, d := r8 o.d, a := r8 o.a, b := r8 o.b,
    c := match o.bar with | some r => r8 r | none => 0,
    imm := (0#28) ++ o.kind ++ (if o.bar.isSome then 1#1 else 0#1) ++ (if o.sp then 1#1 else 0#1) }

/-- Base format with the unguarded encoding (R94, R95). -/
def baseFields (op : Nat) (fn : Nat := 0) (d a b c : BitVec 8 := 0) (imm : W32 := 0) : Fields :=
  { op := n8 op, fn := n8 fn, d, a, b, c, imm }

/-- R331: ctx and sz in IMM. -/
def pgImm (ctx : BitVec 6) (sz : PgSize) : W32 := (0#22) ++ (BitVec.ofNat 2 (szCode sz)) ++ (0#2) ++ ctx

/-- The fields of an instruction; none for an event, which has no encoding. -/
def encodeFields : Instr → Option Fields
  | .nop => some (baseFields 0x00)
  | .br t => some (brFields 0x01 0 t)
  | .brcNeS a t => some (brFields 0x02 0 t 0 (r8 a))
  | .brcEqS a t => some (brFields 0x02 1 t 0 (r8 a))
  | .brcAnyP b t => some (brFields 0x02 2 t 0 0 (r8 b))
  | .brcAllP b t => some (brFields 0x02 3 t 0 0 (r8 b))
  | .brcNoneP b t => some (brFields 0x02 4 t 0 0 (r8 b))
  | .brv b t j => some (brFields 0x03 0 t 0 0 (r8 b) j)
  | .join => some (brFields 0x04 0 0)
  | .call d t => some (brFields 0x05 0 t (r8 d))
  | .calli d a => some (brFields 0x06 0 0 (r8 d) a)
  | .ret a => some (brFields 0x07 0 0 0 (r8 a))
  | .jmp a e => some (brFields 0x08 0 e 0 (r8 a))
  | .endF => some (baseFields 0x09)
  | .yield => some (baseFields 0x0A)
  | .brk e => some (baseFields 0x0B 0 0 0 0 0 (e.setWidth 32))
  | .sleep e => some (baseFields 0x0C 0 0 0 0 0 e)
  | .rgn a m => some (baseFields 0x0D 0 0 a 0 0 m)
  | .add o => some (sintFields 0x00 o)
  | .sub o => some (sintFields 0x01 o)
  | .mul o => some (sintFields 0x02 o)
  | .mulh o => some (sintFields 0x03 o)
  | .mad o => some (sintFields 0x04 o)
  | .div o => some (sintFields 0x05 o)
  | .rem o => some (sintFields 0x06 o)
  | .and o => some (sintFields 0x07 o)
  | .or o => some (sintFields 0x08 o)
  | .xor o => some (sintFields 0x09 o)
  | .shl o => some (sintFields 0x0A o)
  | .shr o => some (sintFields 0x0B o)
  | .sar o => some (sintFields 0x0C o)
  | .min o => some (sintFields 0x0D o)
  | .max o => some (sintFields 0x0E o)
  | .clz t d a => some ((baseFields 0x20 0 (r8 d) (r8 a)).withTy t)
  | .popc t d a => some ((baseFields 0x20 1 (r8 d) (r8 a)).withTy t)
  | .brev t d a => some ((baseFields 0x20 2 (r8 d) (r8 a)).withTy t)
  | .bfe t d a p l => some ((baseFields 0x21 0 (r8 d) (r8 a) 0 0 ((0#17) ++ l ++ (0#2) ++ p)).withTy t)
  | .bfi d a b p l => some ((baseFields 0x22 0 (r8 d) (r8 a) (r8 b) 0 ((0#17) ++ l ++ (0#2) ++ p)).withTy .b64)
  | .cmp cc t d a b => some ((baseFields 0x23 (icondCode cc) (r8 d) (r8 a) (r8 b)).withTy t)
  | .sel d a b c => some (baseFields 0x24 0 (r8 d) (r8 a) (r8 b) (r8 c))
  | .mov d a => some (baseFields 0x25 0 (r8 d) (r8 a))
  | .movi d e => some (baseFields 0x26 0 (r8 d) 0 0 0 e)
  | .movh d e => some (baseFields 0x27 0 (r8 d) 0 0 0 e)
  | .lea d a b sh disp => some (baseFields 0x28 0 (r8 d) (r8 a) (r8 b) 0 (disp ++ (0#5) ++ sh))
  | .srd d x => some (baseFields 0x29 0 (r8 d) 0 0 0 (BitVec.ofNat 32 (sregCode x)))
  | .swrMode a => some (baseFields 0x2A 0 0 (r8 a) 0 0 0x10)
  | .swrFlags a => some (baseFields 0x2A 0 0 (r8 a) 0 0 0x11)
  | .cvts s o => some (sfltFields 0x2B (tyCode s) o)
  | .sfadd o => some (sfltFields 0x2C 0 o)
  | .sfmul o => some (sfltFields 0x2C 1 o)
  | .sffma o => some (sfltFields 0x2C 2 o)
  | .vadd o => some (vopFields 0x30 0x00 o)
  | .vsub o => some (vopFields 0x30 0x01 o)
  | .vmul o => some (vopFields 0x30 0x02 o)
  | .vmulh o => some (vopFields 0x30 0x03 o)
  | .vmad o => some (vopFields 0x30 0x04 o)
  | .vdiv o => some (vopFields 0x30 0x05 o)
  | .vand o => some (vopFields 0x30 0x06 o)
  | .vor o => some (vopFields 0x30 0x07 o)
  | .vxor o => some (vopFields 0x30 0x08 o)
  | .vshl o => some (vopFields 0x30 0x09 o)
  | .vshr o => some (vopFields 0x30 0x0A o)
  | .vsar o => some (vopFields 0x30 0x0B o)
  | .vmin o => some (vopFields 0x30 0x0C o)
  | .vmax o => some (vopFields 0x30 0x0D o)
  | .vabs o => some (vopFields 0x30 0x0E o)
  | .vbfe o => some (vopFields 0x30 0x0F o)
  | .vbfi o => some (vopFields 0x30 0x10 o)
  | .vclz o => some (vopFields 0x30 0x11 o)
  | .vpopc o => some (vopFields 0x30 0x12 o)
  | .fadd o => some (vopFields 0x40 0x00 o)
  | .fsub o => some (vopFields 0x40 0x01 o)
  | .fmul o => some (vopFields 0x40 0x02 o)
  | .ffma o => some (vopFields 0x40 0x03 o)
  | .fmin o => some (vopFields 0x40 0x04 o)
  | .fmax o => some (vopFields 0x40 0x05 o)
  | .fclass o => some (vopFields 0x40 0x07 o)
  | .frint o => some (vopFields 0x40 0x08 o)
  | .fdiv o => some (vopFields 0x40 0x09 o)
  | .fsqrt o => some (vopFields 0x40 0x0A o)
  | .frcp o => some (vopFields 0x40 0x0B o)
  | .frsq o => some (vopFields 0x40 0x0C o)
  | .fldexp o => some (vopFields 0x40 0x0D o)
  | .fdot2 o => some (vopFields 0x40 0x0E o)
  | .fcmp o =>
    let (op, b, imm) := srcvFields 0x40 o.b
    some (({ op := n8 op, fn := n8 (0x10 + fcondCode o.cc), d := r8 o.d, a := o.a, b, imm } : Fields).withTy o.ty
      |>.withGuard o.g)
  | .fexp2 o => vop1Fields 0x50 0 o
  | .flog2 o => vop1Fields 0x50 1 o
  | .fsin o => vop1Fields 0x50 2 o
  | .fcos o => vop1Fields 0x50 3 o
  | .fact g rnd sat d a b => some (((baseFields 0x51 0 d a (r8 b)).withTy .f32).withRS rnd sat |>.withGuard g)
  | .actflip => some (baseFields 0x52)
  | .cvt o => some (cvtFields 0x53 o)
  | .pack o => some (cvtFields 0x54 o)
  | .unpack o => some (cvtFields 0x55 o)
  | .dxq o => some (dxFields 0x56 o)
  | .dxd o => some (dxFields 0x57 o)
  | .fdp4 o => vop1Fields 0x58 0 o
  | .vmov o => some (laneFields 0x60 0 o)
  | .vbcast g t d a => some ((baseFields 0x61 0 d (r8 a)).withTy t |>.withGuard g)
  | .vperm o => some (laneFields 0x62 0 o)
  | .vshflUp o n => some (laneFields 0x63 0 o (n.setWidth 32))
  | .vshflDown o n => some (laneFields 0x63 1 o (n.setWidth 32))
  | .vshflXor o n => some (laneFields 0x63 2 o (n.setWidth 32))
  | .vshflIdx o => some (laneFields 0x63 3 o)
  | .vred o => some (redFields 0x64 o)
  | .vscan o => some (redFields 0x65 o)
  | .vmovrel o => some (laneFields 0x66 0 o)
  | .vstrel o => some (laneFields 0x67 0 o)
  | .vcmp g cc t d a b => some ((baseFields 0x68 (icondCode cc) (r8 d) a b).withTy t |>.withGuard g)
  | .vsel g t d a b c => some ((baseFields 0x69 0 d a b (r8 c)).withTy t |>.withGuard g)
  | .plop g d a b t => some ((baseFields 0x6A t.toNat (r8 d) (r8 a) (r8 b)).withGuard g)
  | .ppopc g d a => some ((baseFields 0x6B 0 (r8 d) (r8 a)).withGuard g)
  | .pfirst g d a => some ((baseFields 0x6C 0 (r8 d) (r8 a)).withGuard g)
  | .pballot g d a b => some ((baseFields 0x6D 0 (r8 d) (r8 a) 0 0 (b.setWidth 32)).withGuard g)
  | .pfrom g d a b => some ((baseFields 0x6E 0 (r8 d) (r8 a) 0 0 (b.setWidth 32)).withGuard g)
  | .vlid g d => some ((baseFields 0x6F 0 d).withGuard g)
  | .ldg o => some (memFields 0x70 o true)
  | .stg o => some (memFields 0x71 o false)
  | .ldl o => some (memFields 0x72 o true)
  | .stl o => some (memFields 0x73 o false)
  | .lds t h d a e =>
    some (({ op := 0x74, fn := memFn .base h .packed, d := r8 d, a := r8 a, imm := e } : Fields).withTy t)
  | .sts t h c a e =>
    some (({ op := 0x75, fn := memFn .base h .packed, c := r8 c, a := r8 a, imm := e } : Fields).withTy t)
  | .pfg g am h a b e =>
    some (({ op := 0x76, fn := memFn am h .packed, a := r8 a, b := b, imm := e } : Fields).withGuard g)
  | .cinv a b e => some (baseFields 0x77 0 0 (r8 a) (r8 b) 0 e)
  | .wopen k => some (baseFields 0x78 0 0 0 0 0 (k.setWidth 32))
  | .wclose k => some (baseFields 0x79 0 0 0 0 0 (k.setWidth 32))
  | .wflush k => some (baseFields 0x7A 0 0 0 0 0 (k.setWidth 32))
  | .winv k => some (baseFields 0x7B 0 0 0 0 0 (k.setWidth 32))
  | .ldgs g t h rf d a b e =>
    some (({ op := 0x7C, fn := memFn .base h rf, d := d, a := r8 a, b := r8 b, imm := e } : Fields).withTy t |>.withGuard g)
  | .atom o => some (atomFields 0x80 o)
  | .atomc o => some (atomFields 0x81 o)
  | .red o => some (atomFields 0x82 o)
  | .atoml o => some (atomFields 0x83 o)
  | .fence ord sc => some { op := 0x84, fn := n8 (ordCode ord * 4), rnd := BitVec.ofNat 3 (scopeCode sc) }
  | .cpy o => some (cpyFields 0x90 0 o .none)
  | .cpys o => some (cpyFields 0x91 0 o .none)
  | .cpyg o => some (cpyFields 0x92 0 o .none)
  | .cpyw o none => some (cpyFields 0x93 0 o .none)
  | .cpyw o (some t) => some (cpyFields 0x93 1 o t)
  | .cpcommit d => some (baseFields 0x94 0 (r8 d))
  | .cpwait a => some (baseFields 0x95 0 0 (r8 a))
  | .cpact a => some (baseFields 0x96 0 0 (r8 a))
  | .mma o => some (mmaFields 0xA0 o)
  | .mmag o => some (mmaFields 0xA1 o)
  | .mzero d => some (seqFields 0xA2 0 (r8 d))
  | .mload t d xa rs => some ((seqFields 0xA3 0 (r8 d) (r8 xa) 0 0 (rsImm rs)).withTy t)
  | .mdrain o => some ((seqFields 0xA4 (if o.act then 1 else 0) (r8 o.d) (r8 o.xa) 0 (r8 o.xc) (rsImm o.rs)).withTy o.ty
      |>.withRS o.rnd o.sat)
  | .mdrainx t rnd sat d q =>
    some ((seqFields 0xA5 (if t == .bf16 then 1 else 0) (r8 d) 0 0 0 (q.setWidth 32)).withTy t |>.withRS rnd sat)
  | .mrsc t d xa => some ((seqFields 0xA6 0 (r8 d) (r8 xa)).withTy t)
  | .maffl d xa xb rs => some (seqFields 0xA7 0 (r8 d) (r8 xa) (r8 xb) 0 (rsImm rs))
  | .mscan d c => some (seqFields 0xA8 0 (r8 d) 0 0 (r8 c))
  | .mcarLoad d xa => some (seqFields 0xA9 0 (r8 d) (r8 xa))
  | .mcarStore d xa => some (seqFields 0xA9 1 (r8 d) (r8 xa))
  | .mcarReset d => some (seqFields 0xA9 2 (r8 d))
  | .sloop n => some (seqFields 0xB0 0 0 0 0 0 ((0#1) ++ n))
  | .sloopInd xa => some (seqFields 0xB0 0 0 (r8 xa) 0 0 0x80000000)
  | .sendl => some (seqFields 0xB1)
  | .sadr d off pc => some (seqFields 0xB2 0 (r8 d) 0 0 0 ((if pc then 1#1 else 0#1) ++ (0#9) ++ off))
  | .sinc d t e => some (seqFields 0xB3 0 (r8 d) 0 (r8 t) 0 e)
  | .sbarr off => some (seqFields 0xB4 0 0 0 0 0 (off.setWidth 32))
  | .sbwait off ph l => some (seqFields 0xB5 0 0 0 0 0 ((0#4) ++ l ++ (0#1) ++ (if ph then 1#1 else 0#1) ++ (0#2) ++ off))
  | .scpy d a len k t => some ((seqFields 0xB6 0 (r8 d) (r8 a) (n8 (scpyCode k)) 0 (len.setWidth 32)).withTy t)
  | .shint n => some (seqFields 0xB7 0 0 0 0 0 n)
  | .saud e => some (seqFields 0xB8 0 0 0 0 0 (if e then 1 else 0))
  | .sfin none => some (seqFields 0xB9)
  | .sfin (some off) => some (seqFields 0xB9 0 0 0 0 0 ((1#1) ++ (0#9) ++ off))
  | .orient2 o => some (geoFields 0xC0 o)
  | .orient3 o => some (geoFields 0xC1 o)
  | .incirc o => some (geoFields 0xC2 o)
  | .insph o => some (geoFields 0xC3 o)
  | .segx o => some (geoFields 0xC4 o)
  | .gstat clr d n => some (baseFields 0xC5 (n.toNat + (if clr then 4 else 0)) (r8 d))
  | .bari a b => some (baseFields 0xD0 0 0 (r8 a) (r8 b))
  | .bara d a k => some (baseFields 0xD1 0 (r8 d) (r8 a) 0 0 (k.setWidth 32))
  | .barx a b => some (baseFields 0xD2 0 0 (r8 a) (r8 b))
  | .barw a b => some (baseFields 0xD3 0 0 (r8 a) (r8 b))
  | .barwFlag d a b => some (baseFields 0xD3 0 (r8 d) (r8 a) (r8 b) 0 1)
  | .bart d a => some (baseFields 0xD4 0 (r8 d) (r8 a))
  | .grpa g => some (baseFields 0xD5 0 0 0 0 0 (g.setWidth 32))
  | .grpe d g => some (baseFields 0xD6 0 (r8 d) 0 0 0 (g.setWidth 32))
  | .grpvAnd d a g => some (baseFields 0xD7 0 (r8 d) (r8 a) 0 0 (g.setWidth 32))
  | .grpvOr d a g => some (baseFields 0xD7 0 (r8 d) (r8 a) 0 0 ((1#24) ++ g))
  | .grpvAdd d a g => some (baseFields 0xD7 0 (r8 d) (r8 a) 0 0 ((2#24) ++ g))
  | .qxfer d a k => some (baseFields 0xD8 0 (r8 d) (r8 a) 0 0 (k.setWidth 32))
  | .wprio d e => some (baseFields 0xD9 0 (r8 d) 0 0 0 (e.setWidth 32))
  | .enq d a q => some (baseFields 0xE0 0 (r8 d) (r8 a) 0 0 (q.setWidth 32))
  | .qpost a q => some (baseFields 0xE1 0 0 (r8 a) 0 0 (q.setWidth 32))
  | .qwait d a q => some (baseFields 0xE2 0 (r8 d) (r8 a) 0 0 (q.setWidth 32))
  | .fsopen d a => some (baseFields 0xE3 0 (r8 d) (r8 a))
  | .fsclose a => some (baseFields 0xE4 0 0 (r8 a))
  | .fswait a => some (baseFields 0xE5 0 0 (r8 a))
  | .lpost o => some (linkFields 0xE6 o)
  | .lsend o => some (linkFields 0xE7 o)
  | .lpoll d a rcv => some (baseFields 0xE8 0 (r8 d) (r8 a) 0 0 (if rcv then 1 else 0))
  | .lqpQuery d a => some (baseFields 0xE9 0 (r8 d) (r8 a))
  | .lqpReset d a => some (baseFields 0xE9 1 (r8 d) (r8 a))
  | .lqpInit d a => some (baseFields 0xE9 2 (r8 d) (r8 a))
  | .lqpReady d a => some (baseFields 0xE9 3 (r8 d) (r8 a))
  | .pkrd d a b e => some (baseFields 0xF0 0 (r8 d) (r8 a) (r8 b) 0 e)
  | .pkwr d a b c e => some (baseFields 0xF1 0 (r8 d) (r8 a) (r8 b) (r8 c) e)
  | .pkclr d a b => some (baseFields 0xF2 0 (r8 d) (r8 a) (r8 b))
  | .pkres d a => some (baseFields 0xF3 0 (r8 d) (r8 a))
  | .pkret d a => some (baseFields 0xF4 0 (r8 d) (r8 a))
  | .pkredir d a b => some (baseFields 0xF5 0 (r8 d) (r8 a) (r8 b))
  | .pkkill d a => some (baseFields 0xF6 0 (r8 d) (r8 a))
  | .pgmap d a b c ctx sz => some (baseFields 0xF7 0 (r8 d) (r8 a) (r8 b) (r8 c) (pgImm ctx sz))
  | .pgunmap d a ctx sz => some (baseFields 0xF8 0 (r8 d) (r8 a) 0 0 (pgImm ctx sz))
  | .pginv a b ctx => some (baseFields 0xF9 0 0 (r8 a) (r8 b) 0 (ctx.setWidth 32))
  | .mdrd d e => some (baseFields 0xFA 0 (r8 d) 0 0 0 (e.setWidth 32))
  | .mdwr a e => some (baseFields 0xFB 0 0 (r8 a) 0 0 (e.setWidth 32))
  | .flrd d e => some (baseFields 0xFC 0 (r8 d) 0 0 0 (e.setWidth 32))
  | .flclr d e => some (baseFields 0xFD 0 (r8 d) 0 0 0 (e.setWidth 32))
  | .clkrd d => some (baseFields 0xFE 0 (r8 d))
  | .ctxrd d sel none => some (baseFields 0xFF 0 (r8 d) 0 0 0 (sel.setWidth 32))
  | .ctxrd d sel (some c) => some (baseFields 0xFF 0 (r8 d) 0 0 0 ((1#18) ++ c ++ sel))
  | .timeWaitExpiry .. | .activationBankFlip .. | .windowFill .. | .copySegment .. | .matrixCommit .. | .rampDown ..
  | .auditReplay .. | .auditVerdict .. | .predicateCommit .. | .flagPoll .. | .enqPublish .. | .shootdown ..
  | .lineFetch .. | .fragmentAged .. | .budgetExhausted .. | .pageWalk .. | .snapshotCopy .. | .getS .. | .getM ..
  | .writeMerge .. | .homeAtomic .. | .putM .. | .forwardedRequest .. | .invalidateWithWriteback ..
  | .directoryRecovery .. | .hostMemoryAccess .. | .unitReclaim .. | .doorbell .. | .tailWrite .. | .slotReread ..
  | .packetConsume .. | .markerComplete .. | .queueEnable .. | .queueStop .. | .queueStart .. | .queueDisable ..
  | .dispatcherChoice .. | .launchDispatch .. | .crewPlacement .. | .waveRetire .. | .waveRestore .. | .sequencerPark ..
  | .sequencerRestore .. | .crewEviction .. | .crewRestore .. | .launchComplete .. | .launchReplay .. | .launchKill ..
  | .adjournmentRecord .. | .taskMessage .. | .dispositionMessage .. | .dataPacketReceive ..
  | .acknowledgementReceive .. | .holdReceive .. | .sendTimeout .. | .contextCreate .. | .contextActivate ..
  | .contextSuspend .. | .contextResume .. | .contextDestroy .. | .contextClearFault .. | .contextFree ..
  | .c0descWrite .. | .jbaseWrite .. | .qptabWrite .. | .errstWrite .. | .partitionWrite .. | .controlRegisterWrite ..
  | .attestationRequest .. | .ageingCheck .. | .powerUpdate .. | .coreQuarantine .. | .reset .. | .silentEviction ..
  | .l1LineEviction .. | .deadlineMiss .. => none

/-- The word of an instruction; none for an event. -/
def encode (i : Instr) : Option (BitVec 96) := (encodeFields i).map Fields.toWord

/-- The operands of class 0x1 from the fields. -/
def sintOf (f : Fields) (isImm : Bool) : Option SInt := do
  let ty ← tyOf f.ty.toNat
  let sat ← satOf f.sat.toNat
  some ⟨ty, sat, f.d.setWidth 6, f.a.setWidth 6, if isImm then .imm f.imm else .reg (f.b.setWidth 6), f.c.setWidth 6⟩

/-- The B operand of form k (0 -vv, 1 -vs, 2 -vi). -/
def srcvOf (f : Fields) (k : Nat) : SrcV :=
  match k with
  | 0 => .vec f.b
  | 1 => .scal (f.b.setWidth 6)
  | _ => .imm f.imm

def vopOf (f : Fields) (k : Nat) : Option VOp := do
  let ty ← tyOf f.ty.toNat
  let rnd ← rndOf f.rnd.toNat
  let sat ← satOf f.sat.toNat
  some ⟨f.guard, ty, rnd, sat, f.d, f.a, srcvOf f k, f.c⟩

def sfltOf (f : Fields) : Option SFlt := do
  let ty ← tyOf f.ty.toNat
  let rnd ← rndOf f.rnd.toNat
  let sat ← satOf f.sat.toNat
  some ⟨ty, rnd, sat, f.d.setWidth 6, f.a.setWidth 6, f.b.setWidth 6, f.c.setWidth 6⟩

def cvtOf (f : Fields) : Option Cvt := do
  let dst ← tyOf f.ty.toNat
  let src ← tyOf f.fn.toNat
  let rnd ← rndOf f.rnd.toNat
  let sat ← satOf f.sat.toNat
  some ⟨f.guard, dst, src, rnd, sat, f.d, f.a, f.imm.setWidth 3⟩

def dxOf (f : Fields) : Option DxOp := do
  let dst ← tyOf f.ty.toNat
  let src ← tyOf f.fn.toNat
  let rnd ← rndOf f.rnd.toNat
  some ⟨f.guard, dst, src, rnd, f.d, f.a, f.c, f.imm.setWidth 4⟩

def laneOf (f : Fields) : Option LaneOp := do
  let ty ← tyOf f.ty.toNat
  some ⟨f.guard, ty, f.d, f.a, f.b, f.c⟩

def redScanOf (f : Fields) : Option RedScan := do
  let op ← redOf (bits f.fn 0 3)
  let ty ← tyOf f.ty.toNat
  let rnd ← rndOf f.rnd.toNat
  some ⟨f.guard, op, f.fn.getLsbD 3, f.fn.getLsbD 4, ty, rnd, f.d, f.a, f.c.setWidth 4⟩

def memOf (f : Fields) (load : Bool) : Option MemOp := do
  let ty ← tyOf f.ty.toNat
  let h ← hintOf (bits f.fn 4 2)
  let rf ← rfOf (bits f.fn 0 4)
  let rnd ← rndOf f.rnd.toNat
  let sat ← satOf f.sat.toNat
  some ⟨f.guard, ty, amOf (bits f.fn 6 2), h, rf, rnd, sat, if load then f.d else f.c, f.a.setWidth 6, f.b, f.imm⟩

def atomOf (f : Fields) : Option AtomOp := do
  let op ← atOf (bits f.fn 4 4)
  let sc ← scopeOf f.rnd.toNat
  let ty ← tyOf f.ty.toNat
  some ⟨f.guard, op, ordOf (bits f.fn 2 2), amOf (bits f.fn 0 2), sc, ty, f.d, f.a.setWidth 6, f.b, f.c, f.imm⟩

def cpyOf (f : Fields) : Cpy :=
  ⟨f.d.setWidth 6, f.a.setWidth 6, f.b.setWidth 6, if f.imm.getLsbD 0 then some (f.c.setWidth 6) else none⟩

def mmaOf (f : Fields) : Option Mma := do
  let ty ← tyOf f.ty.toNat
  some ⟨ty, f.d.setWidth 3, f.a.setWidth 4, f.b.setWidth 4, f.imm.extractLsb' 16 16, f.imm.getLsbD 15, f.imm.setWidth 15⟩

def geoOf (f : Fields) : Option GeoOp := do
  let ty ← tyOf f.ty.toNat
  some ⟨f.guard, ty, f.fn.getLsbD 0, f.fn.getLsbD 1, f.d, f.a, f.b⟩

def linkOf (f : Fields) : LinkOp :=
  ⟨f.d.setWidth 6, f.a.setWidth 6, f.b.setWidth 6, f.imm.extractLsb' 2 2, f.imm.getLsbD 0,
    if f.imm.getLsbD 1 then some (f.c.setWidth 6) else none⟩

/-- Class 0x0 (R140, R147). -/
def candidate0 (f : Fields) : Option Instr :=
  match f.op.toNat with
  | 0x00 => some .nop
  | 0x01 => some (.br f.imm)
  | 0x02 =>
    match f.fn.toNat with
    | 0 => some (.brcNeS (f.a.setWidth 6) f.imm)
    | 1 => some (.brcEqS (f.a.setWidth 6) f.imm)
    | 2 => some (.brcAnyP (f.b.setWidth 4) f.imm)
    | 3 => some (.brcAllP (f.b.setWidth 4) f.imm)
    | 4 => some (.brcNoneP (f.b.setWidth 4) f.imm)
    | _ => none
  | 0x03 => some (.brv (f.b.setWidth 4) f.imm f.second)
  | 0x04 => some .join
  | 0x05 => some (.call (f.d.setWidth 6) f.imm)
  | 0x06 => some (.calli (f.d.setWidth 6) f.a)
  | 0x07 => some (.ret (f.a.setWidth 6))
  | 0x08 => some (.jmp (f.a.setWidth 6) f.imm)
  | 0x09 => some .endF
  | 0x0A => some .yield
  | 0x0B => some (.brk (f.imm.setWidth 8))
  | 0x0C => some (.sleep f.imm)
  | 0x0D => some (.rgn f.a f.imm)
  | _ => none

/-- Class 0x1 (R103). -/
def candidate1 (f : Fields) : Option Instr := do
  if f.op.toNat > 0x11 then none else
  let o ← sintOf f (f.op.toNat == 0x11)
  match f.fn.toNat with
  | 0x00 => some (.add o)
  | 0x01 => some (.sub o)
  | 0x02 => some (.mul o)
  | 0x03 => some (.mulh o)
  | 0x04 => some (.mad o)
  | 0x05 => some (.div o)
  | 0x06 => some (.rem o)
  | 0x07 => some (.and o)
  | 0x08 => some (.or o)
  | 0x09 => some (.xor o)
  | 0x0A => some (.shl o)
  | 0x0B => some (.shr o)
  | 0x0C => some (.sar o)
  | 0x0D => some (.min o)
  | 0x0E => some (.max o)
  | _ => none

/-- Class 0x2 (R104, R155). -/
def candidate2 (f : Fields) : Option Instr := do
  let d : BitVec 6 := f.d.setWidth 6
  let a : BitVec 6 := f.a.setWidth 6
  let b : BitVec 6 := f.b.setWidth 6
  let pos : BitVec 6 := f.imm.setWidth 6
  let len : BitVec 7 := f.imm.extractLsb' 8 7
  match f.op.toNat with
  | 0x20 =>
    let t ← tyOf f.ty.toNat
    match f.fn.toNat with
    | 0 => some (.clz t d a)
    | 1 => some (.popc t d a)
    | 2 => some (.brev t d a)
    | _ => none
  | 0x21 =>
    let t ← tyOf f.ty.toNat
    some (.bfe t d a pos len)
  | 0x22 => some (.bfi d a b pos len)
  | 0x23 =>
    let t ← tyOf f.ty.toNat
    let cc ← icondOf f.fn.toNat
    some (.cmp cc t d a b)
  | 0x24 => some (.sel d a b (f.c.setWidth 6))
  | 0x25 => some (.mov d a)
  | 0x26 => some (.movi d f.imm)
  | 0x27 => some (.movh d f.imm)
  | 0x28 => some (.lea d a b (f.imm.setWidth 3) (f.imm.extractLsb' 8 24))
  | 0x29 =>
    let x ← sregOf f.imm.toNat
    some (.srd d x)
  | 0x2A =>
    match f.imm.toNat with
    | 0x10 => some (.swrMode a)
    | 0x11 => some (.swrFlags a)
    | _ => none
  | 0x2B =>
    let s ← tyOf f.fn.toNat
    let o ← sfltOf f
    some (.cvts s o)
  | 0x2C =>
    let o ← sfltOf f
    match f.fn.toNat with
    | 0 => some (.sfadd o)
    | 1 => some (.sfmul o)
    | 2 => some (.sffma o)
    | _ => none
  | _ => none

/-- Class 0x3 (R103). -/
def candidate3 (f : Fields) : Option Instr := do
  if f.op.toNat > 0x32 then none else
  let o ← vopOf f (f.op.toNat - 0x30)
  match f.fn.toNat with
  | 0x00 => some (.vadd o)
  | 0x01 => some (.vsub o)
  | 0x02 => some (.vmul o)
  | 0x03 => some (.vmulh o)
  | 0x04 => some (.vmad o)
  | 0x05 => some (.vdiv o)
  | 0x06 => some (.vand o)
  | 0x07 => some (.vor o)
  | 0x08 => some (.vxor o)
  | 0x09 => some (.vshl o)
  | 0x0A => some (.vshr o)
  | 0x0B => some (.vsar o)
  | 0x0C => some (.vmin o)
  | 0x0D => some (.vmax o)
  | 0x0E => some (.vabs o)
  | 0x0F => some (.vbfe o)
  | 0x10 => some (.vbfi o)
  | 0x11 => some (.vclz o)
  | 0x12 => some (.vpopc o)
  | _ => none

/-- Class 0x4 (R103). -/
def candidate4 (f : Fields) : Option Instr := do
  if f.op.toNat > 0x42 then none else
  let o ← vopOf f (f.op.toNat - 0x40)
  match f.fn.toNat with
  | 0x00 => some (.fadd o)
  | 0x01 => some (.fsub o)
  | 0x02 => some (.fmul o)
  | 0x03 => some (.ffma o)
  | 0x04 => some (.fmin o)
  | 0x05 => some (.fmax o)
  | 0x07 => some (.fclass o)
  | 0x08 => some (.frint o)
  | 0x09 => some (.fdiv o)
  | 0x0A => some (.fsqrt o)
  | 0x0B => some (.frcp o)
  | 0x0C => some (.frsq o)
  | 0x0D => some (.fldexp o)
  | 0x0E => some (.fdot2 o)
  | n =>
    if 0x10 ≤ n ∧ n ≤ 0x17 then
      let cc ← fcondOf (n - 0x10)
      some (.fcmp ⟨f.guard, o.ty, cc, f.d.setWidth 4, f.a, o.b⟩)
    else none

/-- Class 0x5 (R104, R173 to R182). -/
def candidate5 (f : Fields) : Option Instr := do
  match f.op.toNat with
  | 0x50 =>
    let o ← vopOf f 0
    match f.fn.toNat with
    | 0 => some (.fexp2 o)
    | 1 => some (.flog2 o)
    | 2 => some (.fsin o)
    | 3 => some (.fcos o)
    | _ => none
  | 0x51 =>
    let rnd ← rndOf f.rnd.toNat
    let sat ← satOf f.sat.toNat
    some (.fact f.guard rnd sat f.d f.a (f.b.setWidth 6))
  | 0x52 => some .actflip
  | 0x53 => (cvtOf f).map .cvt
  | 0x54 => (cvtOf f).map .pack
  | 0x55 => (cvtOf f).map .unpack
  | 0x56 => (dxOf f).map .dxq
  | 0x57 => (dxOf f).map .dxd
  | 0x58 => (vopOf f 0).map .fdp4
  | _ => none

/-- Class 0x6 (R183). -/
def candidate6 (f : Fields) : Option Instr := do
  let g := f.guard
  let pd : BitVec 4 := f.d.setWidth 4
  let pa : BitVec 4 := f.a.setWidth 4
  let sd : BitVec 6 := f.d.setWidth 6
  match f.op.toNat with
  | 0x60 => (laneOf f).map .vmov
  | 0x61 =>
    let t ← tyOf f.ty.toNat
    some (.vbcast g t f.d (f.a.setWidth 6))
  | 0x62 => (laneOf f).map .vperm
  | 0x63 =>
    let o ← laneOf f
    match f.fn.toNat with
    | 0 => some (.vshflUp o (f.imm.setWidth 7))
    | 1 => some (.vshflDown o (f.imm.setWidth 7))
    | 2 => some (.vshflXor o (f.imm.setWidth 7))
    | 3 => some (.vshflIdx o)
    | _ => none
  | 0x64 => (redScanOf f).map .vred
  | 0x65 => (redScanOf f).map .vscan
  | 0x66 => (laneOf f).map .vmovrel
  | 0x67 => (laneOf f).map .vstrel
  | 0x68 =>
    let t ← tyOf f.ty.toNat
    let cc ← icondOf f.fn.toNat
    some (.vcmp g cc t pd f.a f.b)
  | 0x69 =>
    let t ← tyOf f.ty.toNat
    some (.vsel g t f.d f.a f.b (f.c.setWidth 4))
  | 0x6A => some (.plop g pd pa (f.b.setWidth 4) (f.fn.setWidth 4))
  | 0x6B => some (.ppopc g sd pa)
  | 0x6C => some (.pfirst g pd pa)
  | 0x6D => some (.pballot g sd pa (f.imm.setWidth 2))
  | 0x6E => some (.pfrom g pd (f.a.setWidth 6) (f.imm.setWidth 2))
  | 0x6F => some (.vlid g f.d)
  | _ => none

/-- Class 0x7 (R198). -/
def candidate7 (f : Fields) : Option Instr := do
  let a : BitVec 6 := f.a.setWidth 6
  let k : BitVec 3 := f.imm.setWidth 3
  match f.op.toNat with
  | 0x70 => (memOf f true).map .ldg
  | 0x71 => (memOf f false).map .stg
  | 0x72 => (memOf f true).map .ldl
  | 0x73 => (memOf f false).map .stl
  | 0x74 =>
    let t ← tyOf f.ty.toNat
    let h ← hintOf (bits f.fn 4 2)
    some (.lds t h (f.d.setWidth 6) a f.imm)
  | 0x75 =>
    let t ← tyOf f.ty.toNat
    let h ← hintOf (bits f.fn 4 2)
    some (.sts t h (f.c.setWidth 6) a f.imm)
  | 0x76 =>
    let h ← hintOf (bits f.fn 4 2)
    some (.pfg f.guard (amOf (bits f.fn 6 2)) h a f.b f.imm)
  | 0x77 => some (.cinv a (f.b.setWidth 6) f.imm)
  | 0x78 => some (.wopen k)
  | 0x79 => some (.wclose k)
  | 0x7A => some (.wflush k)
  | 0x7B => some (.winv k)
  | 0x7C =>
    let t ← tyOf f.ty.toNat
    let h ← hintOf (bits f.fn 4 2)
    let rf ← rfOf (bits f.fn 0 4)
    some (.ldgs f.guard t h rf f.d a (f.b.setWidth 6) f.imm)
  | _ => none

/-- Class 0x8 (R106, R209). -/
def candidate8 (f : Fields) : Option Instr := do
  match f.op.toNat with
  | 0x80 => (atomOf f).map .atom
  | 0x81 => (atomOf f).map .atomc
  | 0x82 => (atomOf f).map .red
  | 0x83 => (atomOf f).map .atoml
  | 0x84 =>
    let sc ← scopeOf f.rnd.toNat
    some (.fence (ordOf (bits f.fn 2 2)) sc)
  | _ => none

/-- Class 0x9 (R214). -/
def candidate9 (f : Fields) : Option Instr := do
  match f.op.toNat with
  | 0x90 => some (.cpy (cpyOf f))
  | 0x91 => some (.cpys (cpyOf f))
  | 0x92 => some (.cpyg (cpyOf f))
  | 0x93 =>
    if f.fn.getLsbD 0 then
      let t ← tyOf f.ty.toNat
      some (.cpyw (cpyOf f) (some t))
    else some (.cpyw (cpyOf f) none)
  | 0x94 => some (.cpcommit (f.d.setWidth 6))
  | 0x95 => some (.cpwait (f.a.setWidth 6))
  | 0x96 => some (.cpact (f.a.setWidth 6))
  | _ => none

/-- Class 0xA (R285). -/
def candidateA (f : Fields) : Option Instr := do
  let d : BitVec 3 := f.d.setWidth 3
  let xa : BitVec 4 := f.a.setWidth 4
  let rs : BitVec 16 := f.imm.extractLsb' 16 16
  match f.op.toNat with
  | 0xA0 => (mmaOf f).map .mma
  | 0xA1 => (mmaOf f).map .mmag
  | 0xA2 => some (.mzero d)
  | 0xA3 =>
    let t ← tyOf f.ty.toNat
    some (.mload t d xa rs)
  | 0xA4 =>
    let t ← tyOf f.ty.toNat
    let rnd ← rndOf f.rnd.toNat
    let sat ← satOf f.sat.toNat
    some (.mdrain ⟨t, f.fn.getLsbD 0, rnd, sat, d, xa, f.c.setWidth 4, rs⟩)
  | 0xA5 =>
    let t ← tyOf f.ty.toNat
    let rnd ← rndOf f.rnd.toNat
    let sat ← satOf f.sat.toNat
    some (.mdrainx t rnd sat d (f.imm.setWidth 12))
  | 0xA6 =>
    let t ← tyOf f.ty.toNat
    some (.mrsc t d xa)
  | 0xA7 => some (.maffl d xa (f.b.setWidth 4) rs)
  | 0xA8 => some (.mscan d (f.c.setWidth 3))
  | 0xA9 =>
    match f.fn.toNat with
    | 0 => some (.mcarLoad d xa)
    | 1 => some (.mcarStore d xa)
    | 2 => some (.mcarReset d)
    | _ => none
  | _ => none

/-- Class 0xB (R285). -/
def candidateB (f : Fields) : Option Instr := do
  let d : BitVec 4 := f.d.setWidth 4
  let off : BitVec 22 := f.imm.setWidth 22
  match f.op.toNat with
  | 0xB0 => if f.imm.getLsbD 31 then some (.sloopInd (f.a.setWidth 4)) else some (.sloop (f.imm.setWidth 31))
  | 0xB1 => some .sendl
  | 0xB2 => some (.sadr d off (f.imm.getLsbD 31))
  | 0xB3 => some (.sinc d (f.b.setWidth 2) f.imm)
  | 0xB4 => some (.sbarr off)
  | 0xB5 => some (.sbwait off (f.imm.getLsbD 24) (f.imm.extractLsb' 26 2))
  | 0xB6 =>
    let t ← tyOf f.ty.toNat
    let k ← scpyOf f.b.toNat
    some (.scpy d (f.a.setWidth 4) (f.imm.setWidth 24) k t)
  | 0xB7 => some (.shint f.imm)
  | 0xB8 => some (.saud (f.imm.getLsbD 0))
  | 0xB9 => some (.sfin (if f.imm.getLsbD 31 then some off else none))
  | _ => none

/-- Class 0xC (R308). -/
def candidateC (f : Fields) : Option Instr :=
  match f.op.toNat with
  | 0xC0 => (geoOf f).map .orient2
  | 0xC1 => (geoOf f).map .orient3
  | 0xC2 => (geoOf f).map .incirc
  | 0xC3 => (geoOf f).map .insph
  | 0xC4 => (geoOf f).map .segx
  | 0xC5 => some (.gstat (f.fn.getLsbD 2) (f.d.setWidth 6) (f.fn.setWidth 2))
  | _ => none

/-- Class 0xD (R402, R403, R409, R418). -/
def candidateD (f : Fields) : Option Instr :=
  let d : BitVec 6 := f.d.setWidth 6
  let a : BitVec 6 := f.a.setWidth 6
  let b : BitVec 6 := f.b.setWidth 6
  let g : BitVec 8 := f.imm.setWidth 8
  match f.op.toNat with
  | 0xD0 => some (.bari a b)
  | 0xD1 => some (.bara d a (f.imm.setWidth 16))
  | 0xD2 => some (.barx a b)
  | 0xD3 => if f.imm.getLsbD 0 then some (.barwFlag d a b) else some (.barw a b)
  | 0xD4 => some (.bart d a)
  | 0xD5 => some (.grpa g)
  | 0xD6 => some (.grpe d g)
  | 0xD7 =>
    match bits f.imm 8 2 with
    | 0 => some (.grpvAnd d a g)
    | 1 => some (.grpvOr d a g)
    | 2 => some (.grpvAdd d a g)
    | _ => none
  | 0xD8 => some (.qxfer d a (f.imm.setWidth 4))
  | 0xD9 => some (.wprio d (f.imm.setWidth 2))
  | _ => none

/-- Class 0xE (R356, R381, R463). -/
def candidateE (f : Fields) : Option Instr :=
  let d : BitVec 6 := f.d.setWidth 6
  let a : BitVec 6 := f.a.setWidth 6
  let q : BitVec 6 := f.imm.setWidth 6
  match f.op.toNat with
  | 0xE0 => some (.enq d a q)
  | 0xE1 => some (.qpost a q)
  | 0xE2 => some (.qwait d a q)
  | 0xE3 => some (.fsopen d a)
  | 0xE4 => some (.fsclose a)
  | 0xE5 => some (.fswait a)
  | 0xE6 => some (.lpost (linkOf f))
  | 0xE7 => some (.lsend (linkOf f))
  | 0xE8 => some (.lpoll d a (f.imm.getLsbD 0))
  | 0xE9 =>
    match f.fn.toNat with
    | 0 => some (.lqpQuery d a)
    | 1 => some (.lqpReset d a)
    | 2 => some (.lqpInit d a)
    | 3 => some (.lqpReady d a)
    | _ => none
  | _ => none

/-- Class 0xF (R331, R343, R441, R481). -/
def candidateF (f : Fields) : Option Instr := do
  let d : BitVec 6 := f.d.setWidth 6
  let a : BitVec 6 := f.a.setWidth 6
  let b : BitVec 6 := f.b.setWidth 6
  let ctx : BitVec 6 := f.imm.setWidth 6
  match f.op.toNat with
  | 0xF0 => some (.pkrd d a b f.imm)
  | 0xF1 => some (.pkwr d a b (f.c.setWidth 6) f.imm)
  | 0xF2 => some (.pkclr d a b)
  | 0xF3 => some (.pkres d a)
  | 0xF4 => some (.pkret d a)
  | 0xF5 => some (.pkredir d a b)
  | 0xF6 => some (.pkkill d a)
  | 0xF7 =>
    let sz ← szOf (bits f.imm 8 2)
    some (.pgmap d a b (f.c.setWidth 6) ctx sz)
  | 0xF8 =>
    let sz ← szOf (bits f.imm 8 2)
    some (.pgunmap d a ctx sz)
  | 0xF9 => some (.pginv a b ctx)
  | 0xFA => some (.mdrd d (f.imm.setWidth 16))
  | 0xFB => some (.mdwr a (f.imm.setWidth 16))
  | 0xFC => some (.flrd d (f.imm.setWidth 8))
  | 0xFD => some (.flclr d (f.imm.setWidth 8))
  | 0xFE => some (.clkrd d)
  | 0xFF => some (.ctxrd d (f.imm.setWidth 8) (if f.imm.getLsbD 14 then some (f.imm.extractLsb' 8 6) else none))
  | _ => none

/-- The instruction that the fields name by the opcode map (R101), before the checks of R108. -/
def candidate (f : Fields) : Option Instr :=
  match bits f.op 4 4 with
  | 0x0 => candidate0 f
  | 0x1 => candidate1 f
  | 0x2 => candidate2 f
  | 0x3 => candidate3 f
  | 0x4 => candidate4 f
  | 0x5 => candidate5 f
  | 0x6 => candidate6 f
  | 0x7 => candidate7 f
  | 0x8 => candidate8 f
  | 0x9 => candidate9 f
  | 0xA => candidateA f
  | 0xB => candidateB f
  | 0xC => candidateC f
  | 0xD => candidateD f
  | 0xE => candidateE f
  | _ => candidateF f

/-- Why a word is no instruction (R108); every reason adjourns with ILL. -/
inductive DecodeError where
  /-- An unassigned opcode or function, or a reserved code in a field that selects (R101 to R107). -/
  | unassigned
  /-- A field that the form does not use is not 0, a guard where none is taken, or a register field out of range. -/
  | strayField
  /-- A type, rounding, saturation or count that the form does not accept. -/
  | notAccepted
  deriving DecidableEq, Repr

/-- R108: the decoder, total on 96-bit words. -/
def decode (w : BitVec 96) : Except DecodeError Instr :=
  match candidate (fieldsOf w) with
  | none => .error .unassigned
  | some i =>
    if encodeFields i = some (fieldsOf w) then
      if wellFormed i then .ok i else .error .notAccepted
    else .error .strayField

/-- R81: the 12 bytes of a slot, byte 0 holding bits [7:0]. -/
def wordOfBytes (l : List Byte) : BitVec 96 :=
  BitVec.ofNat 96 (l.foldr (fun b n => b.toNat + 256 * n) 0)

def bytesOfWord (w : BitVec 96) : List Byte :=
  (List.range 12).map fun i => w.extractLsb' (8 * i) 8

/-- Decoding from the 12 bytes of a slot. -/
def decodeBytes (l : List Byte) : Except DecodeError Instr :=
  if l.length = 12 then decode (wordOfBytes l) else .error .unassigned

/-- R102: the classes of opcodes a wave accepts. -/
def waveStream (w : BitVec 96) : Bool := bits w 92 4 != 0xA && bits w 92 4 != 0xB

/-- R102: the opcodes a sequencer stream accepts. -/
def seqStream (w : BitVec 96) : Bool :=
  bits w 92 4 == 0xA || bits w 92 4 == 0xB || bits w 88 8 == 0x00 || bits w 88 8 == 0x01 || bits w 88 8 == 0x09 ||
    bits w 88 8 == 0x0B

/-- The host's interface: the instruction read from the low 96 bits, as the opcode table numbers bits. -/
def decodeTableWord (nbits w : Nat) : Option Instr :=
  match decodeBytes (bytesOfWord (BitVec.ofNat 96 (w % 2 ^ nbits))) with
  | .ok i => some i
  | .error _ => none

end Sys2Proof
end

