-- ==== Sys2Proof/Machine/Memory.lean ====
section
/-!
DEFINITION. Physical memory, the caches, the directory between dies (R268 to R275), page tables and translation (R320 to
R330), and the fetch and checks of a code line (R81 to R91).
-/
namespace Sys2Proof.Machine

/-- R321: host memory. -/
def isHost (pa : Nat) : Bool := 0x8000000000000 ≤ pa && pa < 0x10000000000000

/-- R321: the address exists. -/
def memExists (pa : Nat) : Bool := isHost pa || (pa < 0x8000000000 && pa % 0x1000000000 < 0xC00000000)

/-- R14, R321: the home die of a line; host memory is reached through die 0. -/
def homeOf (line : Nat) : Nat := if isHost (128 * line) then 0 else 128 * line / 0x1000000000

def l1Key (core line : Nat) : Nat := core * 2 ^ 45 + line

def l2Key (die line : Nat) : Nat := die * 2 ^ 45 + line

/-- R15: exposed clusters of a die. -/
def State.nclus (s : State) (die : Nat) : Nat := (s.health.exposed.getD die []).length

/-- R15: physical number (64·die + n) of a logical cluster 64·die + c. -/
def State.physOf (s : State) (clus : Nat) : Nat := 64 * (clus / 64) + (s.health.exposed.getD (clus / 64) []).getD (clus % 64) 0

/-- R471: register `r` of partition `p`. -/
def State.partReg (s : State) (p r : Nat) : W64 := s.health.parts.read (64 * p + r)

/-- R471: the ranges of a partition; a length of 0 ends the list. -/
def State.ranges (s : State) (p : Nat) : List (Nat × Nat) :=
  ((List.range 16).map fun r => ((s.partReg p (9 + 2 * r)).toNat, (s.partReg p (10 + 2 * r)).toNat)).takeWhile
    fun x => x.2 != 0

/-- R321, R337: the partition of a physical address. -/
def State.partOf (s : State) (pa : Nat) : Option Nat :=
  (List.range 8).find? fun p => (s.ranges p).any fun x => x.1 ≤ pa && pa < x.1 + x.2

/-- R471: a partition owns the (logical) cluster of a die. -/
def State.partHas (s : State) (p die clus : Nat) : Bool := (s.partReg p die).getLsbD clus && clus < s.nclus die

/-- R274: a die exposes a cluster of the partition. -/
def State.exposes (s : State) (p die : Nat) : Bool := (List.range 64).any fun c => s.partHas p die c

/-- R274: a probe of a line reaches a die; of a line of no partition, every die. (DESIGN CHOICE, log 54.) -/
def State.probeOk (s : State) (line die : Nat) : Bool :=
  match s.partOf (128 * line) with
  | some p => s.exposes p die
  | none => true

/-- The body of an event record (R435). -/
def eventBody (line part target : Nat) : List Byte := leBytes 8 (128 * line) ++ [BitVec.ofNat 8 part, BitVec.ofNat 8 target]

/-- R274: the report of a dropped probe. (DESIGN CHOICE, log 54.) -/
def State.probeDrop (s : State) (line die : Nat) : State :=
  { s with detached := s.detached ++ [{ work := .event, ctx := 0, die := homeOf line, report := {
      causes := 1#64 <<< 21, body := eventBody line ((s.partOf (128 * line)).getD 0) die } }] }

def State.setMem (s : State) (m : MemSys) : State := { s with mem := m }

/-- A fragment, or a copy, must see the event. -/
def Post.seenBy (p : Post) (id : Nat) : Bool := p.obs.contains id

/-- The pending store events that a fragment must see are changed. -/
def State.markPosts (s : State) (id : Nat) (f : Post → Post) : State :=
  s.setMem { s.mem with posts := s.mem.posts.map fun p => if p.seenBy id then f p else p }

/-- R232: what one fragment must see, another must see too. -/
def State.sharePosts (s : State) (id id' : Nat) : State := s.markPosts id fun p => { p with obs := p.obs ++ [id'] }

/-- R272: an entry of the snoop filter for a line; none where it would name no die. -/
def State.setEntry (s : State) (m : MemSys) (line : Nat) (owner : Option Nat) (sharers : BitVec 8) : MemSys :=
  { m with dir := if owner = none ∧ sharers = 0 then m.dir.erase line
                  else m.dir.put line ⟨owner, sharers, s.partOf (128 * line)⟩ }

/-- R268: the home copy of a line. -/
def MemSys.ramLine (m : MemSys) (line : Nat) : MemLine :=
  BitVec.ofNat 1024 (leNat ((List.range 128).map fun i => m.ram.read (128 * line + i)))

/-- Writes the home copy of a line. -/
def MemSys.putRamLine (m : MemSys) (line : Nat) (d : MemLine) : MemSys :=
  { m with ram := m.ram.update (128 * line) 128 fun a => byteOf d (a - 128 * line) }

/-- R271: the data of a dirty copy, if the directory names its holder. -/
def MemSys.ownerData (m : MemSys) (line : Nat) : Option MemLine :=
  match m.dir.get? line with
  | some e =>
    match e.owner with
    | some o =>
      match m.l2.get? (l2Key o line) with
      | some c => if c.st = Moesi.m ∨ c.st = Moesi.o then some c.data else none
      | none => none
    | none => none
  | none => none

/-- The value of a byte for every coherent agent. (DEDUCED, log 8.) -/
def MemSys.byteAt (m : MemSys) (pa : Nat) : Byte :=
  match m.ownerData (pa / 128) with
  | some d => byteOf d (pa % 128)
  | none => m.ram.read pa

/-- The value of a line for every coherent agent. -/
def MemSys.lineVal (m : MemSys) (line : Nat) : MemLine := (m.ownerData line).getD (m.ramLine line)

/-- The value of a line at a die's L2. -/
def MemSys.dieLine (m : MemSys) (die line : Nat) : MemLine :=
  match m.l2.get? (l2Key die line) with
  | some c => c.data
  | none => m.lineVal line

/-- R272: the dies that the directory names, and the owner. -/
def DirEntry.holders (e : DirEntry) : List Nat :=
  (List.range 8).filter fun d => e.sharers.getLsbD d || e.owner == some d

/-- Dirty data goes home and the copies of the given dies disappear (R272, R273). -/
def MemSys.recallFrom (m : MemSys) (line : Nat) (dies : List Nat) : MemSys :=
  dies.foldl (fun m d =>
    match m.l2.get? (l2Key d line) with
    | some c =>
      let m1 := if c.st = Moesi.m ∨ c.st = Moesi.o then m.putRamLine line c.data else m
      { m1 with l2 := m1.l2.erase (l2Key d line) }
    | none => m) m

/-- R267: word key of a crew's window: its global physical address. -/
def Crew.wordPa (c : Crew) (key : Nat) : Option Nat :=
  let k := key / 2 ^ 18
  let n := key % 2 ^ 18
  let p := c.phys.read (2 ^ 13 * k + n / 64)
  if p = 0 then none else some ((p.toNat - 1) * 256 + 4 * (n % 64))

/-- The key of a word of a crew's windows lies in `[lo, lo+n)`. -/
def Crew.wordIn (c : Crew) (lo n key : Nat) : Bool :=
  match c.wordPa key with
  | some a => a < lo + n && lo < a + 4
  | none => false

/-- R240, R267: Clean words that a write to `[lo, lo+n)` covers, except in the given window, are to become Invalid. (DEDUCED, log 31.) -/
def Crew.invalidate (c : Crew) (lo n : Nat) (skip : Option Nat) : Crew :=
  { c with stale := c.stale ++ (c.words.filter fun x => x.2 == 2 && skip != some (x.1 / 2 ^ 18) && c.wordIn lo n x.1).map (·.1) }

/-- R240: those of them that are still Clean become Invalid. (DESIGN CHOICE, log 53.) -/
def Crew.dropStale (c : Crew) : Crew :=
  { c with words := c.words.filter fun x => !(x.2 == 2 && c.stale.contains x.1), stale := [] }

/-- R273: the Clean words of a line become Invalid. -/
def Crew.backInvalidate (c : Crew) (line : Nat) : Crew :=
  { c with words := c.words.filter fun x => !(x.2 == 2 && c.wordIn (128 * line) 128 x.1) }

/-- R267: a write to `[lo, lo+n)` in every crew; `skip` names the crew and window whose own write-back is the write. A word of a crew
that is evicted whole becomes Invalid at its restore (R265). How long a Clean word still stands is open: it goes in a turn of its own, at
the latest when CLK passes a multiple of 4,096. (DESIGN CHOICE, log 53.) -/
def State.invalidateWords (s : State) (lo n : Nat) (skip : Option (Nat × Nat) := none) : State :=
  { s with crews := s.crews.map fun x =>
      (x.1, x.2.invalidate lo n (match skip with | some (c, k) => if c = x.1 then some k else none | none => none)) }

/-- R267, R271: the dies whose windows hold valid words of a line homed elsewhere; of Dirty words alone if asked. -/
def State.winDies (s : State) (line : Nat) (dirty : Bool) : BitVec 8 :=
  s.crews.foldl (fun m x =>
    if x.2.space.isNone && x.2.clus / 64 != homeOf line &&
        (x.2.words.any fun y => (y.2 == 3 || (y.2 == 2 && !dirty)) && x.2.wordIn (128 * line) 128 y.1)
    then m ||| ((1#8) <<< (x.2.clus / 64)) else m) 0

/-- R275: recovery of a directory entry that cannot be read; a line of no partition is probed at every die, and its record names
partition 0 (DESIGN CHOICE, log 54). (DEDUCED, log 31.) -/
def State.recoverLine (s : State) (line : Nat) : State :=
  if s.mem.dirBad.contains line then
    let dies := (List.range 8).filter fun d => s.probeOk line d
    let m := s.mem.recallFrom line dies
    let s1 := { s.setMem { m with dirBad := m.dirBad.filter (· != line) } with
      crews := s.crews.map fun (x : Nat × Crew) => (x.1, x.2.backInvalidate line) }
    let s2 := s1.setMem (s1.setEntry s1.mem line none (s1.winDies line true))
    { s2 with detached := s2.detached ++ [{ work := .event, ctx := 0, die := homeOf line, report := {
        causes := 1#64 <<< 22, body := eventBody line ((s.partOf (128 * line)).getD 0) 0xFF } }] }
  else s

/-- The probes of a request: dropped ones are reported (R274), delivered ones returned. -/
def State.probe (s : State) (line : Nat) (targets : List Nat) : State × List Nat :=
  ((targets.filter fun d => !s.probeOk line d).foldl (fun s d => s.probeDrop line d) s,
    targets.filter fun d => s.probeOk line d)

/-- R272: GetS from die d. A home die needs no copy of its own line. -/
def State.doGetS (s0 : State) (d line : Nat) : State :=
  let s := s0.recoverLine line
  let home := homeOf line == d
  match s.mem.dir.get? line with
  | none =>
    if home then s
    else s.setMem (s.setEntry { s.mem with l2 := s.mem.l2.put (l2Key d line) ⟨.e, s.mem.ramLine line⟩ } line (some d) 0)
  | some e =>
    if e.owner == some d then s else
    let (s1, ok) := s.probe line (match e.owner with | some o => [o] | none => [])
    let m := s1.mem
    let data := if ok.isEmpty then m.ramLine line else m.lineVal line
    let (own, m1) : Option Nat × MemSys := match e.owner with
      | some o =>
        match m.l2.get? (l2Key o line) with
        | some c =>
          if ok.isEmpty then (none, m)
          else if c.st = Moesi.e ∨ c.st = Moesi.s then (none, { m with l2 := m.l2.put (l2Key o line) { c with st := .s } })
          else (some o, { m with l2 := m.l2.put (l2Key o line) { c with st := .o } })
        | none => (none, m)
      | none => (none, m)
    let sh := e.sharers ||| (match e.owner with | some o => (1#8) <<< o | none => 0)
    if home then s1.setMem (s1.setEntry m1 line own sh)
    else s1.setMem (s1.setEntry { m1 with l2 := m1.l2.put (l2Key d line) ⟨.s, data⟩ } line own (sh ||| ((1#8) <<< d)))

/-- R272: GetM from die d. For a line of die d itself the holders give up their copies. Dies whose windows hold words stay sharers, so
that writes reach those words (R267). (DEDUCED, log 31.) -/
def State.doGetM (s0 : State) (d line : Nat) : State :=
  let s := s0.recoverLine line
  match s.mem.l2.get? (l2Key d line), s.mem.dir.get? line with
  | some c, some e =>
    if e.owner = some d ∧ (c.st = Moesi.m ∨ c.st = Moesi.e) then
      s.setMem { s.mem with l2 := s.mem.l2.put (l2Key d line) { c with st := .m } }
    else
      let (s1, ok) := s.probe line (e.holders.filter (· != d))
      let data := if e.owner == some d then c.data else if (e.owner.map fun o => ok.contains o).getD true then
        s1.mem.lineVal line else s1.mem.ramLine line
      let m := s1.mem.recallFrom line (ok ++ [d])
      s1.setMem (s1.setEntry { m with l2 := m.l2.put (l2Key d line) ⟨.m, data⟩ } line (some d) (s1.winDies line false))
  | _, e? =>
    let (s1, ok) := s.probe line (match e? with | some e => e.holders.filter (· != d) | none => [])
    let m := s1.mem.recallFrom line ok
    if homeOf line == d then s1.setMem (s1.setEntry m line none (s1.winDies line false))
    else s1.setMem (s1.setEntry { m with l2 := m.l2.put (l2Key d line) ⟨.m, m.ramLine line⟩ } line (some d) (s1.winDies line false))

/-- R272: a merge or an atomic recalls the owner and every copy; the home copy and the words of windows are left. -/
def State.recall (s0 : State) (line : Nat) : State :=
  let s := s0.recoverLine line
  match s.mem.dir.get? line with
  | none => s
  | some e =>
    let (s1, ok) := s.probe line e.holders
    let m := s1.mem.recallFrom line ok
    s1.setMem (s1.setEntry m line none (s1.winDies line false))

/-- The lines that `[pa, pa+n)` touches. -/
def linesOf (pa n : Nat) : List Nat :=
  if n = 0 then [] else (List.range ((pa + n - 1) / 128 - pa / 128 + 1)).map (pa / 128 + ·)

/-- R270: a write that covers a whole line clears its poison. -/
def MemSys.cleanPoison (m : MemSys) (pa n : Nat) : MemSys :=
  { m with poison := m.poison.filter fun l => !(pa ≤ 128 * l && 128 * l + 128 ≤ pa + n) }

/-- A write at the home of each line: recall, home copy, windows (R267, R272). (DEDUCED, log 8.) -/
def State.homeWrite (s : State) (pa n : Nat) (f : Nat → Byte) (skip : Option (Nat × Nat) := none) : State :=
  let s1 := (linesOf pa n).foldl (fun s l => s.recall l) s
  let s2 := s1.setMem ({ s1.mem with ram := s1.mem.ram.update pa n f }.cleanPoison pa n)
  s2.invalidateWords pa n skip

/-- The lines of `[pa, pa+n)` that other dies may hold come home. -/
def State.recallRange (s : State) (pa n : Nat) : State :=
  (s.mem.dir.filter fun x => pa ≤ 128 * x.1 && 128 * x.1 < pa + n).foldl (fun s x => s.recall x.1) s

/-- An image written by an engine of the device to whole lines. -/
def State.putImage (s : State) (pa n : Nat) (c : Cells 8) : State :=
  let s1 := s.recallRange pa n
  (s1.setMem ({ s1.mem with ram := Cells.splice (w := 8) s1.mem.ram pa n c }.cleanPoison pa n)).invalidateWords pa n

/-- The image that stands in whole lines. -/
def State.getImage (s : State) (pa n : Nat) : State × Cells 8 :=
  let s1 := s.recallRange pa n
  (s1, Cells.slice (w := 8) s1.mem.ram pa n)

/-- A list of bytes as a function of the address. -/
def bytesFn (pa : Nat) (l : List Byte) : Nat → Byte := fun a => l.getD (a - pa) 0

/-- Bytes written by an engine of the device. -/
def State.putBytes (s : State) (pa : Nat) (l : List Byte) : State := s.homeWrite pa l.length (bytesFn pa l)

/-- R274: a byte as an engine reads it: a dirty copy of a die that no probe reaches does not answer. (DEDUCED, log 8.) -/
def State.readAt (s : State) (pa : Nat) : Byte :=
  match (s.mem.dir.get? (pa / 128)).bind (·.owner) with
  | some o => if s.probeOk (pa / 128) o then s.mem.byteAt pa else s.mem.ram.read pa
  | none => s.mem.byteAt pa

/-- Bytes as engines of the device read them. -/
def State.getBytes (s : State) (pa n : Nat) : List Byte := (List.range n).map fun i => s.readAt (pa + i)

def State.getNat (s : State) (pa n : Nat) : Nat := leNat (s.getBytes pa n)

def State.get64 (s : State) (pa : Nat) : W64 := BitVec.ofNat 64 (s.getNat pa 8)

def State.put64 (s : State) (pa : Nat) (v : W64) : State := s.putBytes pa (leBytes 8 v.toNat)

/-- Bytes of the line replaced. -/
def patchLine (d : MemLine) (line pa n : Nat) (f : Nat → Byte) : MemLine :=
  BitVec.ofNat 1024 (leNat ((List.range 128).map fun i =>
    if pa ≤ 128 * line + i && 128 * line + i < pa + n then f (128 * line + i) else byteOf d i))

/-- R268, R269: bytes stored by a core: the line is obtained in M unless it is homed here; a resident L1 copy follows. -/
def State.coreWrite (s : State) (core pa n : Nat) (f : Nat → Byte) : State :=
  let die := core / 512
  let s1 := (linesOf pa n).foldl (fun s l =>
    let lo := max pa (128 * l)
    let len := min (pa + n) (128 * l + 128) - lo
    if homeOf l == die then s.homeWrite lo len f
    else
      let s1 := s.doGetM die l
      let s2 := s1.setMem ({ s1.mem with l2 := s1.mem.l2.modify (l2Key die l) fun c =>
        { c with data := patchLine c.data l lo len f } }.cleanPoison lo len)
      s2.invalidateWords lo len) s
  s1.setMem { s1.mem with l1 := (linesOf pa n).foldl (fun t l => t.modify (l1Key core l) fun d => patchLine d l pa n f) s1.mem.l1 }

/-- R268: a load's line: an L1 hit returns the L1's copy, else the L2 of the die serves it. -/
def State.coreLine (s : State) (core line : Nat) (alloc : Bool) : State × MemLine :=
  match s.mem.l1.get? (l1Key core line) with
  | some d => (s, d)
  | none =>
    let die := core / 512
    let s1 := match s.mem.l2.get? (l2Key die line) with
      | some _ => s
      | none => s.doGetS die line
    let d := s1.mem.dieLine die line
    (if alloc then s1.setMem { s1.mem with l1 := s1.mem.l1.put (l1Key core line) d } else s1, d)

/-- Several lines loaded. -/
def State.coreLines (s : State) (core : Nat) (lines : List Nat) (alloc : Bool) : State × Table MemLine :=
  lines.foldl (fun x l => let (s1, d) := x.1.coreLine core l alloc; (s1, x.2.put l d)) (s, [])

/-- R270: a load of the line consumes poison. -/
def State.poisoned (s : State) (line : Nat) : Bool := s.mem.poison.contains line

/-- R233, R236: every L1 line of a core is invalidated. -/
def MemSys.dropL1 (m : MemSys) (core : Nat) : MemSys :=
  { m with l1 := m.l1.filter (fun x => x.1 / 2 ^ 45 != core), l1va := m.l1va.filter fun x => x.1 / 2 ^ 45 != core }

/-- A line leaves the L1s of some cores. -/
def MemSys.evictL1 (m : MemSys) (line : Nat) (cores : List Nat) : MemSys :=
  { m with l1 := cores.foldl (fun t c => t.erase (l1Key c line)) m.l1 }

/-- R342: a system mark of one of some causes inside `[pa, pa+n)`. -/
def State.sysMark (s : State) (pa n : Nat) (causes : Nat → Bool) : Bool :=
  s.mem.sys.any fun x => x.1 < pa + n && pa < x.1 + x.2.1 && causes x.2.2

/-- A 64 KiB frame of a list inside `[pa, pa+n)`. -/
def anyFrame (l : List Nat) (pa n : Nat) : Bool := l.any fun f => f < pa + n && pa < f + 65536

/-- Why a walk or an access through it fails. -/
inductive TErr where
  | page | prot | memecc | snapshot | absent
  deriving DecidableEq, Repr

/-- Field [lo+len-1:lo] of a context descriptor, in bytes. -/
def Ctx.field (c : Ctx) (off len : Nat) : Nat := bits c.desc (8 * off) (8 * len)

def State.ctx (s : State) (c : Nat) : Ctx := (s.ctxs.get? c).getD {}

def State.setCtx (s : State) (c : Nat) (f : Ctx → Ctx) : State := { s with ctxs := s.ctxs.put c (f (s.ctx c)) }

/-- R336: fields of the descriptor. -/
def Ctx.root (c : Ctx) : Nat := c.field 0x00 8
def Ctx.park (c : Ctx) : Nat := c.field 0x08 8
def Ctx.parkLen (c : Ctx) : Nat := c.field 0x10 8
def Ctx.route (c : Ctx) : Nat := c.field 0x18 8
def Ctx.fstab (c : Ctx) : Nat := c.field 0x20 8
def Ctx.qtab (c : Ctx) : Nat := c.field 0x28 8
def Ctx.shpool (c : Ctx) : Nat := c.field 0x30 8
def Ctx.shlen (c : Ctx) : Nat := c.field 0x38 8
def Ctx.part (c : Ctx) : Nat := c.field 0x40 1
def Ctx.rights (c : Ctx) : Nat := c.field 0x41 1
def Ctx.weight (c : Ctx) : Nat := c.field 0x42 2
def Ctx.auditFrac (c : Ctx) : Nat := c.field 0x44 4

/-- R322: log₂ of the page size that an entry of a level covers (level 3 is the root). -/
def levelShift (level : Nat) : Nat :=
  match level with
  | 0 => 16 | 1 => 21 | 2 => 30
  | _ => 39

def levelIndex (level va : Nat) : Nat :=
  match level with
  | 0 => va / 2 ^ 16 % 32
  | 1 => va / 2 ^ 21 % 512
  | 2 => va / 2 ^ 30 % 512
  | _ => va / 2 ^ 39 % 131072

/-- R322: size of the table of a level. -/
def tableSize (level : Nat) : Nat :=
  match level with
  | 0 => 256
  | 1 | 2 => 4096
  | _ => 1048576

/-- R323: fields of an entry. -/
def entV (e : W64) : Bool := e.getLsbD 0
def entLF (e : W64) : Bool := e.getLsbD 1
def entW (e : W64) : Bool := e.getLsbD 2
def entX (e : W64) : Bool := e.getLsbD 3
def entST (e : W64) : Nat := bits e 4 3
def entS (e : W64) : Bool := e.getLsbD 7
def entAddr (e : W64) : Nat := bits e 8 44 * 256

/-- R323, R324: the entry is well formed at its level. -/
def entOk (e : W64) (level ctx : Nat) : Bool :=
  bits e 52 12 == 0 && entST e < 5 &&
    (if entLF e then level != 3 && entAddr e % 2 ^ levelShift level == 0 && (!entS e || ctx == 0)
     else level != 0 && entST e == 0 && !entS e && entAddr e % tableSize (level - 1) == 0)

/-- The outcome of a walk: a leaf with its virtual base, size and the physical address of its entry. -/
structure Leaf where
  va : Nat
  size : Nat
  word : W64
  entry : Nat
  deriving DecidableEq, Repr

/-- R324: the walk below a table at `base`, levels from `level` down. -/
def walkFrom (s : State) (ctx va : Nat) : Nat → Nat → Except TErr Leaf
  | level, base =>
    let pa := base + 8 * levelIndex level va
    if !memExists pa then .error .absent
    else if s.poisoned (pa / 128) then .error .memecc
    else
      let e := s.get64 pa
      if !entV e then .error .page
      else if !entOk e level ctx then .error .page
      else if entLF e then
        .ok ⟨va / 2 ^ levelShift level * 2 ^ levelShift level, 2 ^ levelShift level, e, pa⟩
      else
        match level with
        | 0 => .error .page
        | l + 1 => walkFrom s ctx va l (entAddr e)

/-- R325: the state field of a leaf replaced. -/
def leafWithST (e : W64) (st : Nat) : W64 := (e &&& ~~~(0x70#64)) ||| (BitVec.ofNat 64 st <<< 4)

/-- Cached translations that a predicate names are dropped. -/
def State.dropTlb (s : State) (p : Tlb → Bool) : State :=
  s.setMem { s.mem with tlb := s.mem.tlb.filter fun t => !p t }

/-- R324: the whole walk, with the checks on the frame. A retired frame marks its leaf. -/
def State.walk (s : State) (ctx va : Nat) : State × Except TErr Leaf :=
  match walkFrom s ctx va 3 (s.ctx ctx).root with
  | .error e => (s, .error e)
  | .ok l =>
    let frame := entAddr l.word
    if !memExists frame || (ctx != 0 && (s.partOf frame != some (s.ctx ctx).part ||
        s.sysMark frame l.size fun _ => true)) then
      (s, .error .prot)
    else if anyFrame s.mem.retired frame l.size then
      ((s.put64 l.entry (leafWithST l.word 4)).dropTlb (fun t => t.entry == l.entry), .error .page)
    else (s, .ok l)

/-- R324: a leaf decides an access. -/
def leafAllows (l : W64) (k : Access) : Except TErr Unit :=
  match entST l with
  | 3 => .error .memecc
  | 4 => .error .page
  | _ =>
    match k with
    | .read => .ok ()
    | .write => if entW l then .ok () else .error .prot
    | .fetch => if entX l then .ok () else .error .prot

/-- R326: the page at a frame has been copied to its shadow since the dispatch. -/
def State.shadowed (s : State) (frame : Nat) : Bool :=
  s.launches.any fun x => x.2.shadows.any fun h => h.frame ≤ frame && frame < h.frame + h.size && h.copied

/-- A unit that translates: a core of the package, or, from 4,096 on, the engines of a die. -/
def dieUnit (die : Nat) : Nat := 4096 + die

def dieOf (u : Nat) : Nat := if u < 4096 then u / 512 else u - 4096

/-- R328: the caches that serve a unit: level and unit. -/
def cachesOf (u : Nat) : List (Nat × Nat) := if u < 4096 then [(0, u), (1, u / 8), (2, u / 512)] else [(2, u - 4096)]

/-- R328: what the nearest cache of a unit that holds an address has for it. -/
def State.cached (s : State) (u ctx va : Nat) : Option Tlb :=
  (cachesOf u).findSome? fun c => s.mem.tlb.find? fun t =>
    t.lvl == c.1 && t.unit == c.2 && t.ctx == ctx && t.va ≤ va && va < t.va + t.size

/-- R328: the leaf for an address, from the caches of the unit or by a walk that fills them. (DESIGN CHOICE, log 9.) -/
def State.leafFor (s : State) (u ctx va : Nat) : State × Except TErr Leaf :=
  if va ≥ 2 ^ 56 then (s, .error .page) else
  match s.cached u ctx va with
  | some t => (s, .ok ⟨t.va, t.size, t.leaf, t.entry⟩)
  | none =>
    match s.walk ctx va with
    | (s1, .error e) => (s1, .error e)
    | (s1, .ok l) =>
      if entST l.word ≤ 2 then
        (s1.setMem { s1.mem with tlb := (cachesOf u).map (fun c => ⟨c.1, c.2, ctx, l.va, l.size, l.word, l.entry⟩) ++ s1.mem.tlb }, .ok l)
      else (s1, .ok l)

/-- R320 to R328: translation of one address for one access. A first write to a snapshot-protected page waits (R326). -/
def State.translate (s : State) (u ctx va : Nat) (k : Access) : State × Except TErr Nat :=
  match s.leafFor u ctx va with
  | (s1, .error e) => (s1, .error e)
  | (s1, .ok l) =>
    match leafAllows l.word k with
    | .error e => (s1, .error e)
    | .ok () =>
      let pa := entAddr l.word + (va - l.va)
      if k == .write && entST l.word == 1 && !s1.shadowed pa then
        (s1.setMem { s1.mem with snaps := if s1.mem.snaps.contains (ctx, l.va) then s1.mem.snaps
                                          else s1.mem.snaps ++ [(ctx, l.va)] }, .error .snapshot)
      else (s1, .ok pa)

/-- R477: the reasons of the replace request that hold now, DFLOOR apart. -/
def State.replNow (s : State) : W64 :=
  (if 31457 < s.mem.retired.length then 8 else 0) ||| (if s.health.islands.any fun x => x.2.spent then 4 else 0) |||
    (if s.health.rpthr.toNat < s.health.marks.length then 2 else 0)

/-- R477: the request is sticky; its rise raises an interrupt. `floor` is what a reset adds to DFLOOR. (DEDUCED, log 48.) -/
def State.raise (s : State) (floor : W64 := 0) : State :=
  let v := s.health.repl ||| s.replNow ||| floor
  { s with health := { s.health with repl := v, msix := s.health.msix + if s.health.repl = 0 ∧ v ≠ 0 then 1 else 0 } }

/-- R327: an uncorrectable event in a frame of a die's DRAM: the second one retires the frame, and every cached translation to it goes. -/
def State.countFrame (s : State) (pa : Nat) : State :=
  if isHost pa then s
  else
    let frame := pa / 65536 * 65536
    let n := (s.mem.errs.get? frame).getD 0 + 1
    let s1 := s.setMem { s.mem with errs := s.mem.errs.put frame n }
    if n = 2 then
      ((s1.setMem { s1.mem with retired := if s1.mem.retired.contains frame then s1.mem.retired else frame :: s1.mem.retired }).raise).dropTlb
        fun t => entAddr t.leaf < frame + 65536 && frame < entAddr t.leaf + t.size
    else s1

/-- R325: the leaf through which a unit translates an address, if it is valid, and whether its entry is still what the walk read. -/
def State.usedLeaf (s : State) (u ctx va : Nat) : Option (Leaf × Bool) :=
  match (s.leafFor u ctx va).2 with
  | .ok l => if entST l.word = 0 then some (l, s.get64 l.entry == l.word) else none
  | .error _ => none

/-- R325, R327: an uncorrectable byte was consumed at `pa` by an access of a context at `va` from a unit (none: no leaf was used). The
leaf is poisoned by a compare-and-exchange on its entry. -/
def State.consume (s : State) (pa : Nat) (via : Option (Nat × Nat × Nat)) : State :=
  match via.bind fun x => s.usedLeaf x.1 x.2.1 x.2.2 with
  | some (l, true) => ((s.put64 l.entry (leafWithST l.word 3)).dropTlb fun t => t.entry == l.entry).countFrame pa
  | some (l, false) => (s.dropTlb fun t => t.entry == l.entry).countFrame pa
  | none => s.countFrame pa

/-- R324: the entry at which a walk of an address stops because it cannot be read. -/
def badEntry (s : State) (ctx va : Nat) : Nat → Nat → Option Nat
  | level, base =>
    let pa := base + 8 * levelIndex level va
    if !memExists pa then none
    else if s.poisoned (pa / 128) then some pa
    else
      let e := s.get64 pa
      if !entV e || !entOk e level ctx || entLF e then none
      else
        match level with
        | 0 => none
        | l + 1 => badEntry s ctx va l (entAddr e)

/-- R327: walks that have met entries that cannot be read count, each entry once. -/
def State.countWalks (s : State) (ctx : Nat) (vas : List Nat) : State :=
  ((vas.filterMap fun va => if va < 2 ^ 56 then badEntry s ctx va 3 (s.ctx ctx).root else none).dedup).foldl (fun s pa => s.countFrame pa) s

/-- R88: the address of the line of a PC. -/
def lineAddr (pc : Pc) : Nat := pc.toNat / 64 * 64

def slotOf (pc : Pc) : Nat := pc.toNat % 8

/-- R83: the parity of a line holds. -/
def parityOk (l : CodeLine) : Bool := (List.range 64).foldl (fun x i => x ^^^ byteOf l i) 0#8 == 0

/-- R82: fields of the line word. -/
def lineTgt (l : CodeLine) (slot : Nat) : Bool := l.getLsbD (480 + 19 + slot)
def linePair (l : CodeLine) (slot : Nat) : Bool := slot < 4 && l.getLsbD (480 + 15 + slot)
def lineKind (l : CodeLine) : Nat := bits l (480 + 13) 2
def lineEbud (l : CodeLine) : Nat := bits l (480 + 9) 4
def lineLow (l : CodeLine) : Nat := bits l 480 9

/-- R81: the instruction word in a slot. -/
def lineWord (l : CodeLine) (slot : Nat) : BitVec 96 := l.extractLsb' (96 * slot) 96

/-- R87, checks 2 to 6: the cause bit that a line's word brings on entry, if any. -/
def lineCause (l : CodeLine) (seq : Bool) : Option Nat :=
  if lineKind l == 3 then some 0
  else if lineLow l != 0 || (lineEbud l != 0 && lineKind l != 1) then some 0
  else if (List.range 3).any (fun i => linePair l i && linePair l (i + 1)) then some 1
  else if (List.range 4).any (fun i => linePair l i && lineTgt l (i + 1)) then some 1
  else if seq && (List.range 4).any (fun i => linePair l i) then some 1
  else none

/-- Health counter `e` counts one more (R482); counters saturate. (DEDUCED, log 48.) -/
def State.count (s : State) (e : Nat) (k : Nat := 1) : State :=
  let v := (s.health.counters.read e).toNat + k
  { s with health := { s.health with counters := s.health.counters.write e (BitVec.ofNat 64 (min v (2 ^ 64 - 1))) } }

/-- R324, R491: the leaf of an address is poisoned. -/
def State.poisonedLeaf (s : State) (u ctx va : Nat) : Bool :=
  match (s.leafFor u ctx va).2 with
  | .ok l => entST l.word == 3
  | .error _ => false

/-- R91, R491: the line of an address for a context on a core: the line, or a cause bit. A bad copy is fetched once more. The bytes
are those that every coherent agent reads at the fetch, where R92 allows any since the launch's dispatch. Poison met by a fetch raises
IFETCH and no MEMECC (R270), so it counts and marks no leaf (R325). (DESIGN CHOICE, log 51.) -/
def State.fetchLine (s : State) (core ctx addr : Nat) : State × Except TErr (Option CodeLine) :=
  match s.translate core ctx addr .fetch with
  | (s1, .error e) =>
    if s.poisonedLeaf core ctx addr then (s1, .ok none)
    else (if e = .memecc then s1.countWalks ctx [addr] else s1, .error e)
  | (s1, .ok pa) =>
    if s1.poisoned (pa / 128) then (s1.consume pa none, .ok none)
    else
      let l : CodeLine := BitVec.ofNat 512 (s1.getNat pa 64)
      let s2 := if s1.stores.badFetch.contains (core, addr) then
          let s2 := { s1 with stores := { s1.stores with badFetch := s1.stores.badFetch.erase (core, addr) } }
          if parityOk l then s2.count 2 else s2
        else s1
      (s2, .ok (if parityOk l then some l else none))

end Sys2Proof.Machine
end

