-- ==== Sys2Proof/Machine/Ops.lean ====
section
/-!
DEFINITION. The named operations over a wave's registers and fragments, the program counter, the saving of a wave and of a
sequencer instance, adjournment (taking a cause), and the frame that every instruction of a wave or of a sequencer runs in.
-/
namespace Sys2Proof.Machine

/-- R70: the bit of a cause. -/
def cause (n : Nat) : W64 := (1#64) <<< n

def cILL : W64 := cause 0
def cBADPAIR : W64 := cause 1
def cBADTARGET : W64 := cause 2
def cRUNOFF : W64 := cause 3
def cPCWRAP : W64 := cause 4
def cIFETCH : W64 := cause 5
def cDIVDEEP : W64 := cause 6
def cBUDGETREG : W64 := cause 7
def cREGIDX : W64 := cause 8
def cREGECC : W64 := cause 9
def cARITH : W64 := cause 10
def cGEONF : W64 := cause 11
def cMISAL : W64 := cause 12
def cPROT : W64 := cause 13
def cRLOCK : W64 := cause 14
def cWSET : W64 := cause 15
def cPAGE : W64 := cause 16
def cMEMECC : W64 := cause 17
def cRAGGED : W64 := cause 18
def cBUDGET : W64 := cause 19
def cLINK : W64 := cause 20
def cNEST : W64 := cause 23
def cBREAK : W64 := cause 24
def cLAUNCH : W64 := cause 25
def cSEAL : W64 := cause 26

/-- The 32 lanes of a beat (R27). -/
def beatMask (b : Nat) : Lanes := (0xFFFFFFFF#96) <<< (32 * b)

/-- R58: N. -/
def Wave.n (w : Wave) : Nat := 16 * w.gran

/-- R382: the wave holds a slot and registers. -/
def Wave.holds (w : Wave) : Bool := w.status == .resident || w.status == .live || w.status == .retired

def Wave.frag (w : Wave) (side : Bool) : Option Fragment := if side then w.fb else w.fa

/-- Every fragment of a wave, those on its divergence stack among them. -/
def Wave.frags (w : Wave) : List Fragment := w.fa.toList ++ w.fb.toList ++ w.stack.map (·.1)

/-- Every fragment of a wave changed. -/
def Wave.mapFrags (w : Wave) (g : Fragment → Fragment) : Wave :=
  { w with fa := w.fa.map g, fb := w.fb.map g, stack := w.stack.map fun x => (g x.1, x.2) }

def Wave.setFrag (w : Wave) (side : Bool) (f : Option Fragment) : Wave :=
  if side then { w with fb := f } else { w with fa := f }

/-- R57, R60, R61: a scalar as a fragment reads it. -/
def Wave.readS (w : Wave) (side : Bool) (r : Nat) : W64 :=
  if r < 60 then w.s.read r
  else if r < 63 then
    match w.frag side with
    | some f => (f.mask.extractLsb' (32 * (r - 60)) 32).setWidth 64
    | none => 0
  else 0

/-- R60: word b of the active mask replaced, within the owned lanes. -/
def Fragment.setEm (f : Fragment) (b : Nat) (v : W64) : Fragment :=
  { f with mask := (f.mask &&& ~~~(beatMask b)) ||| ((((v.setWidth 32).setWidth 96 : Lanes) <<< (32 * b)) &&& f.owned) }

/-- R60, R61, R76: a scalar written; a whole write makes the word correct. -/
def Wave.writeS (w : Wave) (side : Bool) (r : Nat) (v : W64) : Wave :=
  if r < 60 then { w with s := w.s.write r v, bad := w.bad.filter (· != 1000 + r) }
  else if r < 63 then
    match w.frag side with
    | some f => w.setFrag side (some (f.setEm (r - 60) v))
    | none => w
  else w

/-- R62: p15 reads all ones. -/
def Wave.readP (w : Wave) (p : Nat) : Lanes := if p = 15 then BitVec.allOnes 96 else w.p.read p

/-- R62, R75: the lanes of the mask are written. -/
def Wave.writeP (w : Wave) (p : Nat) (m : Lanes) (v : Lanes) : Wave :=
  if p = 15 then w
  else { w with p := w.p.write p ((w.p.read p &&& ~~~m) ||| (v &&& m)),
                bad := w.bad.filter fun c => !((List.range 3).any fun b =>
                  c == 2000 + 3 * p + b && m &&& beatMask b == beatMask b) }

/-- One lane of a vector register. -/
def Wave.readV (w : Wave) (r l : Nat) : W32 := w.v.read (96 * r + l)

/-- R59, R75, R76: the lanes of the mask are written; a beat written whole becomes correct. -/
def Wave.writeV (w : Wave) (r : Nat) (m : Lanes) (f : Nat → W32) : Wave :=
  { w with v := w.v.update (96 * r) 96 fun k => if m.getLsbD (k - 96 * r) then f (k - 96 * r) else w.v.read k,
           bad := w.bad.filter fun c => !((List.range 3).any fun b =>
             c == 3 * r + b && m &&& beatMask b == beatMask b) }

/-- R33: a 64-bit element in a register pair. -/
def Wave.readV64 (w : Wave) (r l : Nat) : W64 := pair64 (w.readV r l) (w.readV (r + 1) l)

def Wave.writeV64 (w : Wave) (r : Nat) (m : Lanes) (f : Nat → W64) : Wave :=
  (w.writeV r m fun l => (f l).setWidth 32).writeV (r + 1) m fun l => (f l).extractLsb' 32 32

/-- R33: sub-element j of width wd of a lane, as a number. -/
def Wave.elem (w : Wave) (wd r l j : Nat) : Nat :=
  if wd = 64 then (w.readV64 r l).toNat else bits (w.readV r l) (wd * j) wd

/-- R33: elements per lane. -/
def elemsPerLane (wd : Nat) : Nat := if wd = 64 then 1 else 32 / wd

/-- The lane word of its sub-elements. -/
def packLane (wd : Nat) (f : Nat → Nat) : W32 :=
  BitVec.ofNat 32 ((List.range (32 / wd)).foldr (fun j n => f j % 2 ^ wd * 2 ^ (wd * j) + n) 0)

/-- Elements of the participating lanes written. -/
def Wave.writeElems (w : Wave) (wd r : Nat) (m : Lanes) (f : Nat → Nat → Nat) : Wave :=
  if wd = 64 then w.writeV64 r m fun l => BitVec.ofNat 64 (f l 0)
  else w.writeV r m fun l => packLane wd (f l)

/-- A value no rule fixes is drawn: the counter goes on (DESIGN CHOICE, log 2). -/
def State.drawn (s : State) : State := { s with draw := s.draw + 1 }

/-- R67: the mode register as the fragment reads it. -/
def Wave.modeOf (w : Wave) (side : Bool) : W64 :=
  match w.frag side with
  | some f => f.z ++ w.mode
  | none => (0#32) ++ w.mode

/-- The fragment that executes. -/
structure Here where
  key : Nat
  side : Bool
  w : Wave
  f : Fragment
  deriving DecidableEq, Repr

/-- The fragment of a wave, if it is live in a resident wave. -/
def State.fragment (s : State) (k : Nat) (side : Bool) : Option Here :=
  match s.waves.get? k with
  | some w =>
    match w.status, w.frag side with
    | .live, some f => some ⟨k, side, w, f⟩
    | _, _ => none
  | none => none

/-- The fragment that executes (cur). -/
def State.here (s : State) : Option Here :=
  match s.cur with
  | some (.frag k side) => s.fragment k side
  | _ => none

def State.putWave (s : State) (k : Nat) (w : Wave) : State := { s with waves := s.waves.put k w }

def State.crew (s : State) (k : Nat) : Crew := (s.crews.get? k).getD {}

def State.launch (s : State) (k : Nat) : Launch := (s.launches.get? k).getD {}

def State.setCrew (s : State) (k : Nat) (f : Crew → Crew) : State := { s with crews := s.crews.modify k f }

def State.setLaunch (s : State) (k : Nat) (f : Launch → Launch) : State := { s with launches := s.launches.modify k f }

/-- The launch and the context of a wave. -/
def State.launchOf (s : State) (w : Wave) : Launch := s.launch (s.crew w.crew).launch

def State.ctxOf (s : State) (w : Wave) : Nat := (s.launchOf w).ctx

/-- R88 to R90: the PC and fetch state after an unpaired instruction. (DEDUCED, log 24.) -/
def advancePc (pc : Pc) (fetch : Fetch) : Pc × Fetch :=
  if slotOf pc < 4 then (pc + 1, fetch)
  else if lineAddr pc = 0xFFFFFFFFFFFFC0 then (pc, .wrap)
  else (BitVec.ofNat 56 (lineAddr pc + 64),
    match fetch with
    | .line l => if lineKind l == 2 then .runoff else .none
    | _ => .none)

/-- R88: the sequential successor, none outside the PC range. -/
def successor (pc : Pc) : Option Pc :=
  if slotOf pc < 4 then some (pc + 1)
  else if lineAddr pc = 0xFFFFFFFFFFFFC0 then none
  else some (BitVec.ofNat 56 (lineAddr pc + 64))

/-- The fragment goes on at its successor; a wait is over. -/
def Fragment.advance (f : Fragment) : Fragment :=
  { f with pc := (advancePc f.pc f.fetch).1, fetch := (advancePc f.pc f.fetch).2, wait := .none,
           ended := none, enq := false }

/-- The fragment goes on at a transfer's target (R134). -/
def Fragment.jump (f : Fragment) (t : Pc) : Fragment :=
  { f with pc := t, fetch := .none, wait := .none, ended := none, enq := false }

/-- The line of the fragment's PC is held. -/
def Fragment.fetched (f : Fragment) : Bool :=
  match f.fetch with
  | .line _ => true
  | _ => false

/-- R390: the fragment's wait has ended with a result: its instruction returns when it issues again. -/
def Fragment.endWait (f : Fragment) (e : Ending) : Fragment := { f with ended := some e }

/-- R78, R87: what a fragment keeps of its line while it is saved: a pending RUNOFF or PCWRAP, and no line. -/
def Fetch.saved : Fetch → Fetch
  | .line _ => .none
  | x => x

/-- R62: participating lanes. -/
def partLanes (w : Wave) (f : Fragment) (g : Guard) : Lanes :=
  f.mask &&& (if g.neg then ~~~(w.readP g.p.toNat) else w.readP g.p.toNat)

def Here.part (h : Here) (g : Guard) : Lanes := partLanes h.w h.f g

/-- A scalar operand. -/
def Here.s (h : Here) (r : BitVec 6) : W64 := h.w.readS h.side r.toNat

/-- R430: the report of a cause at the executing instruction. (DEDUCED, log 25.) -/
def Here.report (h : Here) (causes : W64) (fmask : Lanes := 0) : Report :=
  { causes, pc := h.f.pc.setWidth 64, amask := h.f.mask, fmask }

/-- How an instruction may end without completing. (DESIGN CHOICE, log 19.) -/
inductive Abort where
  /-- It adjourns its work; the state is the one to adjourn in. -/
  | trap (r : Report) (s : State)
  /-- It waits at issue or at an unrecorded wait (hazards, R383, R389). -/
  | hold (s : State)
  | stop (x : Fault)
  deriving DecidableEq, Repr

/-- R388: kind, object and value of a wait. -/
def waitFields : Wait → Nat × Nat × W64
  | .none | .shootdown _ | .flip _ | .hidden => (0, 0, 0)
  | .time t => (1, 0, t)
  | .barrier off ph => (2, off, if ph then 1 else 0)
  | .group g ph => (3, g, if ph then 1 else 0)
  | .batch n => (4, 0, n.setWidth 64)
  | .qhead q n => (5, q, n)
  | .qspace q i => (6, q, i)
  | .scope n => (7, n, 0)
  | .flag a v => (8, a.toNat, v)

/-- R388: the wait of a saved header; none for a kind that never occurs. -/
def waitOf (kind obj : Nat) (v : W64) : Option Wait :=
  match kind with
  | 0 => some .none
  | 1 => some (.time v)
  | 2 => some (.barrier obj (v.getLsbD 0))
  | 3 => some (.group obj (v.getLsbD 0))
  | 4 => some (.batch (v.setWidth 32))
  | 5 => some (.qhead obj v)
  | 6 => some (.qspace obj v)
  | 7 => some (.scope obj)
  | 8 => some (.flag (BitVec.ofNat 64 obj) v)
  | _ => none

/-- R78: the header of the save area. -/
def Wave.header (w : Wave) (side : Bool) (state : Nat) : List Byte :=
  let f := (w.frag side).getD {}
  let (kind, obj, val) := waitFields f.wait
  [1, BitVec.ofNat 8 w.gran, BitVec.ofNat 8 state, if side then 1 else 0] ++ leBytes 4 0 ++
    leBytes 8 f.pc.toNat ++ leBytes 16 f.owned.toNat ++
    leBytes 8 (match f.recon with | some r => r.toNat | none => 0xFFFFFFFFFFFFFFFF) ++
    leBytes 8 (w.modeOf side).toNat ++ leBytes 8 w.flags.toNat ++ leBytes 8 w.budget.toNat ++
    leBytes 1 kind ++ leBytes 7 obj ++ leBytes 8 val.toNat ++ leBytes 4 w.openB.toNat ++ leBytes 4 w.lastB.toNat

/-- R77: size of the save area of a wave of `gran` granules. -/
def saveSize (gran : Nat) : Nat := 2560 + 384 * (16 * gran)

/-- R76, R77: the code word that byte `o` of a wave's save area belongs to, 3000 where it belongs to none. -/
def waveCode (n o : Nat) : Nat :=
  if 0x100 ≤ o ∧ o < 0x2E0 then 1000 + (o - 0x100) / 8
  else if 0x300 ≤ o ∧ o < 0x3F0 ∧ o % 16 < 12 then 2000 + 3 * ((o - 0x300) / 16) + o % 16 / 4
  else if 0x400 ≤ o ∧ o < 0x400 + 384 * n then (o - 0x400) / 128
  else 3000

/-- R77: byte `o` of the save area, up to the divergence stack, which stands in memory already. What a code word that cannot be
read holds is a free value (R76). -/
def Wave.imageByte (w : Wave) (side : Bool) (state : Nat) (o : Nat) : Byte :=
  if w.bad.contains (waveCode w.n o) then Config.hiddenByte w.sealTag (4096 + o)
  else if o < 0x100 then (w.header side state).getD o 0
  else if o < 0x300 then byteOf (w.readS side ((o - 0x100) / 8)) (o % 8)
  else if o < 0x400 then (if o % 16 < 12 then byteOf (w.readP ((o - 0x300) / 16)) (o % 16) else 0)
  else if o < 0x400 + 384 * w.n then byteOf (w.readV ((o - 0x400) / 384) ((o - 0x400) % 384 / 4)) (o % 4)
  else Config.hiddenByte w.sealTag (o - (0x400 + 384 * w.n))

/-- R316: a predicate's results reach its wave and the stage counts (R318). -/
def Wave.commitPred (w : Wave) (p : Pred) : Wave :=
  let n1 := (lanesOf p.stage1).length
  let n2 := (lanesOf p.stage2).length
  let n0 := (lanesOf p.lanes).length - n1 - n2 - (lanesOf p.marked).length
  let sat (x : W32) (k : Nat) : W32 := BitVec.ofNat 32 (min (x.toNat + k) (2 ^ 32 - 1))
  { w.writeV p.d p.lanes (fun l => p.res.read l) with st0 := sat w.st0 n0, st1 := sat w.st1 n1, st2 := sat w.st2 n2 }

/-- R384, R425: every predicate that a wave has issued commits. -/
def State.commitPreds (s : State) (k : Nat) : State :=
  match s.waves.get? k with
  | some w =>
    let mine := s.stores.preds.filter fun x => x.2.wave == k
    { s with waves := s.waves.put k (mine.foldl (fun w x => w.commitPred x.2) w),
             stores := { s.stores with preds := s.stores.preds.filter fun x => x.2.wave != k } }
  | none => s

/-- What the model keeps of the fragment saved in the clear: its name, how its wait ended, its open enq, and that it must land. (DESIGN
CHOICE, log 5.) -/
def Fragment.stub (f : Fragment) : Fragment :=
  { id := f.id, pc := f.pc, wait := f.wait, ended := f.ended, enq := f.enq, landing := f.landing }

/-- R139, R382: a wave is saved; the fragment `side` stands in the clear. Its registers are then in memory only. -/
def State.saveWave (s0 : State) (k : Nat) (side : Bool) (st : WStatus) : State :=
  let s := s0.commitPreds k
  match s.waves.get? k with
  | some w0 =>
    let w := { w0 with sealTag := s.draw }
    let code := if st = WStatus.adjourned then 4 else 5
    let s1 := s.homeWrite w.save (saveSize w.gran - 1024) fun a => w.imageByte side code (a - w.save)
    { s1.putWave k ({ w with status := st, s := [], v := [], p := [], mode := 1, flags := 0, budget := 0, openB := 0,
                             lastB := 0, opbuf := [], mend := [], clear := side, ready := false }.setFrag side
                        ((w0.frag side).map Fragment.stub))
      with draw := s.draw + 1, mem := { s1.mem with posts := s1.mem.posts.map fun p =>
        if p.wave = k then { p with crews := w.crew :: p.crews } else p } }
  | none => s

/-- R389: a wait that is not recorded is entered again on restore. -/
def Fragment.calmed (f : Fragment) : Fragment := if f.wait = .hidden then { f with wait := .none } else f

def Wave.calmed (w : Wave) : Wave := w.mapFrags Fragment.calmed

/-- R423, R425: a wave is adjourned: it is detached and saved, and its record will be written (ADJOURNMENT_RECORD). A RUNOFF or
PCWRAP that is pending for the fragment in the clear, and that another cause comes before, is not kept. (DESIGN CHOICE, log 50.) -/
def State.adjourn (s : State) (k : Nat) (side : Bool) (r : Report) : State :=
  match s.waves.get? k with
  | some w =>
    let f := (w.frag side).getD {}
    let w1 := w.setFrag side (some { f with pc := r.pc.setWidth 56, fetch := .none })
    let s1 := (s.putWave k w1.calmed).saveWave k side .adjourned
    { s1 with detached := s1.detached ++ [{ work := .wave k, ctx := s.ctxOf w, die := w.core / 512, report := r }] }
  | none => s

/-- R72, R389: fragments of the wave that must finish an issued instruction before it can be saved. -/
def Wave.mustWait (s : State) (k : Nat) (w : Wave) : Bool :=
  (s.stores.flips.any fun x => x.2.1 == k) ||
    w.frags.any fun f => match f.wait with | .shootdown _ => true | _ => false

/-- How an instruction of a wave ends. -/
def Here.finish (h : Here) : Except Abort State → Host.Outcome State Fault Refusal
  | .ok s => .next s
  | .error (.trap r s) => .next (s.adjourn h.key h.side r)
  | .error (.hold s) => .next s
  | .error (.stop x) => .fault x

/-- The registers that an instruction names: vector registers read in participating lanes, written, and named only (their
lanes read are known to the meaning, which checks them by `ecc`); scalars and predicates read; predicates written; whether
it reaches registers by run-time index. -/
structure Uses where
  vr : List Nat := []
  nm : List Nat := []
  vw : List Nat := []
  sr : List Nat := []
  pr : List Nat := []
  pw : List Nat := []
  indexed : Bool := false
  deriving DecidableEq, Repr

/-- R57: every vector register named exists. -/
def Uses.inRange (u : Uses) (n : Nat) : Bool := (u.vr ++ u.nm ++ u.vw).all fun r => r < n

/-- R383: a hazard keeps the instruction at issue; a wait at which the fragment stood before is over. -/
def Here.hazard (h : Here) (s : State) : Abort :=
  .hold (if h.f.wait = .hidden then s.putWave h.key (h.w.setFrag h.side (some { h.f with wait := .none })) else s)

/-- R316, R385: a register awaits a geometric predicate of the wave. -/
def State.scoreboard (s : State) (k : Nat) (u : Uses) : Bool :=
  s.stores.preds.any fun x => x.2.wave == k && (u.indexed || (u.vr ++ u.nm ++ u.vw).contains x.2.d)

/-- R75: the beats in which some lanes, and not all, are written: those are read first. -/
def partBeats (m : Lanes) : List Nat := (List.range 3).filter fun b => m &&& beatMask b != 0 && m &&& beatMask b != beatMask b

/-- Their code words in a vector register. -/
def partCodes (r : Nat) (m : Lanes) : List Nat := (partBeats m).map fun b => 3 * r + b

/-- R75, R76, R164: the code words that an instruction reads: beats of vector sources with a participating lane, beats of a
destination that are written in part, scalars, and every beat of a predicate or guard. (DESIGN CHOICE, log 49.) -/
def Uses.codes (u : Uses) (m : Lanes) : List Nat :=
  let beats := (List.range 3).filter fun b => m &&& beatMask b != 0
  (u.vr.flatMap fun r => beats.map fun b => 3 * r + b) ++
    (u.vw.flatMap fun r => partCodes r m) ++ (u.sr.filter (· < 60)).map (1000 + ·) ++
    ((u.pr.filter (· < 15)).flatMap fun p => (List.range 3).map fun b => 2000 + 3 * p + b) ++
    ((u.pw.filter (· < 15)).flatMap fun p => (partBeats m).map fun b => 2000 + 3 * p + b)

/-- R76, R429: the report of an uncorrectable code word. -/
def Here.eccReport (h : Here) (c : Nat) : Report :=
  if c < 1000 then
    { h.report cREGECC (beatMask (c % 3)) with detail := BitVec.ofNat 64 (c / 3 * 256 + c % 3 * 2 ^ 18) }
  else if c < 2000 then
    { h.report cREGECC (BitVec.allOnes 96) with detail := BitVec.ofNat 64 ((c - 1000) * 256 + 2 ^ 16) }
  else
    { h.report cREGECC (beatMask ((c - 2000) % 3)) with
      detail := BitVec.ofNat 64 ((c - 2000) / 3 * 256 + 2 * 2 ^ 16 + (c - 2000) % 3 * 2 ^ 18) }

/-- R76: the first of some code words that cannot be read, in the order in which the meaning names them; the record names no
other. (DESIGN CHOICE, log 49.) -/
def Here.ecc (h : Here) (s : State) (codes : List Nat) : Except Abort Unit :=
  match codes.find? fun c => h.w.bad.contains c with
  | some c => .error (.trap (h.eccReport c) s)
  | none => .ok ()

/-- The code word of lane `l` of a vector register. -/
def laneCode (r l : Nat) : Nat := 3 * r + l / 32

/-- R57, R76, R385: what happens before an instruction that names these registers takes effect. -/
def Here.check (h : Here) (s : State) (m : Lanes) (u : Uses) : Except Abort Unit :=
  if !u.inRange h.w.n then .error (.trap (h.report cILL) s)
  else if s.scoreboard h.key u then .error (h.hazard s)
  else h.ecc s (u.codes m)

/-- R425: while the wave's other fragment must finish an instruction, a cause waits. -/
def Here.settle (h : Here) (s0 : State) (r : Except Abort State) : Except Abort State :=
  match r with
  | .error (.trap _ _) => if h.w.mustWait s0 h.key then .error (h.hazard s0) else r
  | _ => r

/-- The frame of every instruction of a wave: the executing fragment, the checks on the registers it names, its effect. (DESIGN CHOICE, log 47.) -/
def onWave (g : Guard) (u : Uses) (s : State) (k : Here → Except Abort State) : Host.Outcome State Fault Refusal :=
  match s.here with
  | none => .refused .noFragment
  | some h => h.finish (h.settle s (h.check s (h.part g) u >>= fun _ => k h))

/-- The wave changes and the fragment goes on at its successor. -/
def Here.done (h : Here) (s : State) (g : Wave → Wave) : State :=
  let w := g h.w
  s.putWave h.key (w.setFrag h.side (some ((w.frag h.side).getD h.f).advance))

/-- As `done`, for a meaning that has no other way to end. -/
def Here.ok (h : Here) (s : State) (g : Wave → Wave) : Except Abort State := .ok (h.done s g)

/-- The fragment jumps to a target. -/
def Here.goto (h : Here) (s : State) (t : Pc) (g : Wave → Wave := id) : State :=
  let w := g h.w
  s.putWave h.key (w.setFrag h.side (some (((w.frag h.side).getD h.f).jump t)))

/-- The fragment enters a wait at the executing instruction. (DEDUCED, log 7.) -/
def Here.await (h : Here) (s : State) (x : Wait) (g : Wave → Wave := id) : State :=
  let w := g h.w
  s.putWave h.key (w.setFrag h.side (some { (w.frag h.side).getD h.f with wait := x }))

/-- The wave of a state as it stands now, for effects that follow others. -/
def Here.again (h : Here) (s : State) : Here :=
  match s.waves.get? h.key with
  | some w => { h with w, f := (w.frag h.side).getD h.f }
  | none => h

/-- R76, R79: the code word of an accumulator or a carry that byte `o` of a sequencer's save area belongs to. -/
def instCode (o : Nat) : Option Nat :=
  if 0x300 ≤ o ∧ o < 0x1300 then some (100000 + (o - 0x300) / 8)
  else if 0x2000 ≤ o then some ((o - 0x2000) / 8)
  else none

/-- R79: byte `o` of a sequencer's save area. What a code word that cannot be read holds is a free value (R76). -/
def Inst.imageByte (i : Inst) (tag o : Nat) : Byte :=
  if (instCode o).any i.bad.contains then Config.hiddenByte tag (4096 + o)
  else if o < 0x58 then
    ((leBytes 8 (1 + 256 * i.depth) ++ leBytes 8 i.pc.toNat ++ leBytes 8 i.mode.toNat ++ leBytes 8 i.flags.toNat ++
      (i.ctr.flatMap fun x => leBytes 4 x.toNat) ++ leBytes 4 0 ++ (i.start.flatMap fun x => leBytes 8 x.toNat) ++
      leBytes 4 i.chunk.toNat ++ leBytes 4 0 ++ leBytes 8 i.rowmask.toNat).getD o 0)
  else if o < 0x100 then 0
  else if o < 0x300 then
    let n := (o - 0x100) / 32
    let b := o % 32
    if b < 6 then byteOf (i.base.read n) b
    else if 8 ≤ b && b < 20 then byteOf (i.stride.read (3 * n + (b - 8) / 4)) (b % 4)
    else 0
  else if o < 0x1300 then
    let e := (o - 0x300) / 4
    byteOf (if e % 2 = 0 then i.carry.read e ^^^ 0x3F800000 else i.carry.read e) (o % 4)
  else if o < 0x2000 then 0
  else byteOf (i.acc.read ((o - 0x2000) / 4)) (o % 4)

/-- R79, R283: an instance is saved. -/
def State.saveInst (s : State) (k : Nat) (st : WStatus) : State :=
  match s.seqs.get? k with
  | some i =>
    let s1 := (s.homeWrite i.save 0x22000 fun a => i.imageByte s.draw (a - i.save)).drawn
    { s1 with seqs := s1.seqs.put k { i with status := st, depth := 0, ctr := [0, 0, 0], start := [0, 0, 0], base := [],
                                             stride := [], acc := [], carry := [], chunk := 0, rowmask := 0, flags := 0,
                                             ready := false } }
  | none => s

/-- R283, R423: the open tile task of an instance is adjourned. -/
def State.adjournInst (s : State) (k : Nat) (r : Report) : State :=
  match s.seqs.get? k with
  | some i =>
    let body := leBytes 8 i.budget.toNat ++ leBytes 4 i.ttask.toNat
    let s1 := { s with seqs := s.seqs.put k { i with pc := r.pc.setWidth 56, fetch := .none, wait := .none, ops := [] } }
    let s2 := s1.saveInst k .adjourned
    { s2 with detached := s2.detached ++ [{ work := .inst k, ctx := (s.launch (s.crew i.crew).launch).ctx,
                                            die := i.core / 512, report := { r with body } }] }
  | none => s

/-- The sequencer instance that executes. -/
structure SeqHere where
  key : Nat
  i : Inst
  deriving DecidableEq, Repr

def State.seqHere (s : State) : Option SeqHere :=
  match s.cur with
  | some (.seq k) =>
    match s.seqs.get? k with
    | some i => if i.status = .live then some ⟨k, i⟩ else none
    | none => none
  | _ => none

def SeqHere.report (h : SeqHere) (causes : W64) (faddr : W64 := 0) : Report :=
  { causes, pc := h.i.pc.setWidth 64, faddr }

/-- R283: the first instruction in program order that meets a cause adjourns the tile task, so a cause waits for the
operations issued before it. -/
def SeqHere.finish (h : SeqHere) (s0 : State) : Except Abort State → Host.Outcome State Fault Refusal
  | .ok s => .next s
  | .error (.trap r s) => .next (if h.i.ops = [] then s.adjournInst h.key r else s0)
  | .error (.hold s) => .next s
  | .error (.stop x) => .fault x

/-- The frame of every instruction of a sequencer stream. (DESIGN CHOICE, log 47.) -/
def onSeq (s : State) (k : SeqHere → Except Abort State) : Host.Outcome State Fault Refusal :=
  match s.seqHere with
  | none => .refused .noFragment
  | some h => h.finish s (k h)

def State.putInst (s : State) (k : Nat) (i : Inst) : State := { s with seqs := s.seqs.put k i }

def Inst.advance (i : Inst) : Inst :=
  { i with pc := (advancePc i.pc i.fetch).1, fetch := (advancePc i.pc i.fetch).2, wait := .none }

/-- The instance changes and goes on at its successor. -/
def SeqHere.done (h : SeqHere) (s : State) (g : Inst → Inst) : State := s.putInst h.key (g h.i).advance

end Sys2Proof.Machine
end

