-- ==== Sys2Proof/Machine/Fragments.lean ====
section
/-!
DEFINITION. Fragments: targets and landings (R85, R88, R90, R96, R491), splitting, arrival, fusion and the divergence stack
(R134 to R139).
-/
namespace Sys2Proof.Machine

/-- R96: a PC-relative target from a displacement of `n` bits above a 3-bit slot: the target or the cause. -/
def relTarget (pc : Pc) (t : Int) (slot : Nat) : Except W64 Pc :=
  let x := (lineAddr pc : Int) + t * 64 + slot
  if x < 0 ∨ x > 2 ^ 56 - 64 + 4 then .error cPCWRAP
  else if slot > 4 then .error cBADTARGET
  else .ok (BitVec.ofNat 56 x.toNat)

/-- R96: the first target, IMM. -/
def target1 (pc : Pc) (t : W32) : Except W64 Pc := relTarget pc (t.extractLsb' 3 29).toInt (bits t 0 3)

/-- R96: the second target. -/
def target2 (pc : Pc) (j : BitVec 24) : Except W64 Pc := relTarget pc (j.extractLsb' 3 21).toInt (bits j 0 3)

/-- The address that a failed PC-relative target reports (R85). -/
def rawTarget (pc : Pc) (t : W32) : W64 :=
  BitVec.ofInt 64 ((lineAddr pc : Int) + (t.extractLsb' 3 29).toInt * 64 + (bits t 0 3 : Int))

/-- R88: a computed target is well formed. -/
def pcForm (v : W64) : Bool := bits v 56 8 == 0 && bits v 3 3 == 0 && bits v 0 3 ≤ 4

/-- The outcome of the check of one target: its causes (0 if it passes), the address reported, and where it lands. -/
structure Landing where
  causes : W64 := 0
  faddr : W64 := 0
  dest : Option (Pc × CodeLine) := none
  deriving DecidableEq, Repr

/-- R85, R491: the check of a formed target. -/
def State.landing (s : State) (core ctx : Nat) (t : Pc) : Except Fault (State × Landing) :=
  let fa := t.setWidth 64
  match s.fetchLine core ctx (lineAddr t) with
  | (_, .error .absent) => .error .noMemory
  | (s1, .error .prot) => .ok (s1, { causes := cPROT, faddr := fa })
  | (s1, .error .memecc) => .ok (s1, { causes := cMEMECC, faddr := fa })
  | (s1, .error _) => .ok (s1, { causes := cPAGE, faddr := fa })
  | (s1, .ok none) => .ok (s1, { causes := cIFETCH, faddr := fa })
  | (s1, .ok (some l)) =>
    if lineKind l == 3 || !lineTgt l (slotOf t) then .ok (s1, { causes := cBADTARGET, faddr := fa })
    else .ok (s1, { dest := some (t, l) })

/-- R85, R90, R96, R491: the check of a relative target; `raw` is the address reported if its slot is none. (DEDUCED, log 21.) -/
def Here.relLanding (h : Here) (s : State) (t : Except W64 Pc) (raw : W64) : Except Abort (State × Landing) :=
  match t with
  | .error c => .ok (s, { causes := c, faddr := if c = cBADTARGET then raw else 0 })
  | .ok p =>
    match s.landing h.w.core (s.ctxOf h.w) p with
    | .ok x => .ok x
    | .error x => .error (.stop x)

/-- R85, R88, R491: the check of a computed target. -/
def Here.absLanding (h : Here) (s : State) (v : W64) : Except Abort (State × Landing) :=
  if !pcForm v then .ok (s, { causes := cBADTARGET, faddr := v })
  else
    match s.landing h.w.core (s.ctxOf h.w) (v.setWidth 56) with
    | .ok x => .ok x
    | .error x => .error (.stop x)

/-- R70, R109: a failed check adjourns the transferring instruction. -/
def Here.landed (h : Here) (s : State) (x : Landing) : Except Abort (Pc × CodeLine) :=
  match x.dest with
  | some d => .ok d
  | none => .error (.trap { h.report x.causes with faddr := x.faddr } s)

/-- R86: the register budget of the line that a call enters. -/
def entryBudget (l : CodeLine) : Nat := if lineKind l == 1 then (lineEbud l + 1) * 16 else 0

/-- R77, R138: physical address of entry `i` of the divergence stack. (DESIGN CHOICE, log 5.) -/
def Wave.stackAt (w : Wave) (i : Nat) : Nat := w.save + 0x600 + 384 * w.n + 32 * i

/-- R135, R138: the other fragment goes onto the divergence stack, as it stands. -/
def State.pushFrag (s : State) (w : Wave) (g : Fragment) : State × Wave :=
  ((s.homeWrite (w.stackAt w.stack.length) 32 fun a => Config.hiddenByte s.draw (a - w.stackAt w.stack.length)).drawn,
    { w with stack := (g, s.draw) :: w.stack })

/-- R138: the top entry as memory holds it: altered bytes make a corrupted fragment, whose PC, mask and Z are free values; its
owned lanes and its target are taken as intact. (DESIGN CHOICE, log 5.) -/
def State.popFrag (s : State) (w : Wave) : Option (Except Nat (Fragment × Wave)) :=
  match w.stack with
  | [] => none
  | (g, tag) :: rest =>
    let a := w.stackAt rest.length
    if s.poisoned (a / 128) then some (.error a)
    else
      let same := (List.range 32).all fun i => s.mem.byteAt (a + i) == Config.hiddenByte tag i
      let g1 := if same then g else
        { g with pc := Config.corruptPc tag, mask := Config.corruptLanes tag &&& g.owned, z := Config.corruptZ tag }
      some (.ok (g1, { w with stack := rest }))

/-- R135: fragment F splits: the lanes K leave for T, the rest goes to a PC with what the core holds of its line; both reconverge
at J. -/
def Here.split (h : Here) (s : State) (K : Lanes) (T J : Pc) (pcF : Pc × Fetch) : Except Abort State :=
  let other := h.w.frag (!h.side)
  if other.isSome && h.w.stack.length = 32 then .error (.trap (h.report cDIVDEEP) s)
  else
    let (s1, w1) := match other with
      | some g => s.pushFrag h.w g
      | none => (s, h.w)
    let child : Fragment := { id := s1.draw, pc := T, owned := K, mask := K, recon := some J, z := h.f.z }
    let mine := { h.f with owned := h.f.owned &&& ~~~K, mask := h.f.mask &&& ~~~K, recon := some J, pc := pcF.1,
                           fetch := pcF.2, wait := .none }
    .ok (((s1.sharePosts h.f.id s1.draw).drawn).putWave h.key ((w1.setFrag (!h.side) (some child)).setFrag h.side (some mine)))

/-- R136: the fragment that has arrived goes on; a popped sibling takes the free slot. -/
def Here.continueAt (h : Here) (s : State) (w : Wave) (side : Bool) (f : Fragment) : Except Abort State :=
  match s.popFrag w with
  | none => .ok (s.putWave h.key (w.setFrag side (some { f with recon := none })))
  | some (.error a) => .error (.trap { h.report cMEMECC with faddr := BitVec.ofNat 64 a } (s.consume a none))
  | some (.ok (g, w1)) =>
    .ok (s.putWave h.key ((w1.setFrag side (some { f with recon := g.recon })).setFrag (!side) (some g)))

/-- The least lane of a mask, 96 if none. -/
def lowest (m : Lanes) : Nat := ((List.range 96).find? fun l => m.getLsbD l).getD 96

/-- R136: the fragment stands at its reconvergence target. A PC that a pending PCWRAP reports is no arrival. -/
def Fragment.atRecon (f : Fragment) : Bool := f.recon == some f.pc && f.fetch != .wrap

/-- R89, R136: a fused fragment meets the RUNOFF that is pending for either; else it keeps the line of the last to arrive.
(DESIGN CHOICE, log 50.) -/
def Fetch.fuse (x y : Fetch) : Fetch := if y = .runoff then .runoff else x

/-- R136: arrival. A fragment that must wait for its sibling changes nothing. (DESIGN CHOICE, log 50.) -/
def Here.arrive (h : Here) (s : State) : Except Abort State :=
  match h.w.frag (!h.side) with
  | none => h.continueAt s h.w h.side h.f
  | some g =>
    if g.atRecon ∧ g.recon = h.f.recon then
      let fused := { h.f with owned := h.f.owned ||| g.owned, mask := h.f.mask ||| g.mask, fetch := h.f.fetch.fuse g.fetch,
                              preds := h.f.preds ++ g.preds, landing := h.f.landing || g.landing,
                              z := if lowest h.f.owned < lowest g.owned then h.f.z else g.z }
      h.continueAt (s.sharePosts g.id h.f.id) { h.w with fa := some fused, fb := none } false fused
    else .ok s

/-- R136: the fragment stands at its reconvergence target and is not inside an instruction. Arrival is tested before a pending
RUNOFF. (DESIGN CHOICE, log 50.) -/
def Fragment.arrived (f : Fragment) : Bool := f.atRecon && f.wait == .none

/-- A scalar written for a fragment that may stand on the divergence stack: the general registers are the wave's, the mask its
own (R60, R61). -/
def Fragment.putMask (f : Fragment) (d : Nat) (v : W64) : Fragment := if 60 ≤ d ∧ d < 63 then f.setEm (d - 60) v else f

/-- The instruction in which a fragment of a resident wave stands at the wait `x` returns, wherever the fragment is: it goes on,
with `v` in s_d. -/
def State.returnFrom (s : State) (k : Nat) (x : Wait) (d : Nat) (v : W64) : State :=
  match ([false, true].findSome? fun b => (s.fragment k b).filter fun h => h.f.wait == x : Option Here) with
  | some h => h.done s fun w => w.writeS h.side d v
  | none => { s with waves := s.waves.modify k fun w =>
      if (w.stack.any fun y => y.1.wait == x) then
        { (if d < 60 then w.writeS false d v else w) with
          stack := w.stack.map fun y => (if y.1.wait = x then (y.1.putMask d v).advance else y.1, y.2) }
      else w }

/-- The owned lanes of two fragments never meet (R71). -/
def Wave.disjoint (w : Wave) : Prop :=
  match w.fa, w.fb with
  | some a, some b => a.owned &&& b.owned = 0
  | _, _ => True

end Sys2Proof.Machine
end

