-- ==== Sys2Proof/Machine/Fetch.lean ====
section
/-!
DEFINITION. Entering a line (R84, R87, R89 to R91), blocked fragments (R383), held callis (R145), ageing and budgets (R386,
R392 to R394), and the events LINE_FETCH, FRAGMENT_AGED and BUDGET_EXHAUSTED.
-/
namespace Sys2Proof.Machine

/-- The causes of a failed translation of an instruction fetch (R329). -/
def fetchCause : TErr → Except Fault W64
  | .prot => .ok cPROT
  | .memecc => .ok cMEMECC
  | .absent => .error .noMemory
  | _ => .ok cPAGE

/-- R446: the fragment was redirected and must land before it first issues. (DEDUCED, log 26.) -/
def Here.mustLand (h : Here) : Bool := h.f.landing

/-- The landing of a redirected fragment has been checked. -/
def Here.checked (h : Here) (s : State) : State :=
  if h.f.landing then s.putWave h.key (h.w.setFrag h.side (some { h.f with landing := false })) else s

/-- R87: the fragment enters the line at its PC, or its wave adjourns before anything in the line executes. -/
def Here.enterLine (h : Here) (s : State) : Except Abort State :=
  let addr := BitVec.ofNat 64 (lineAddr h.f.pc)
  match h.f.fetch with
  | .line _ => .ok s
  | .wrap => .error (.trap (h.report cPCWRAP) s)
  | .runoff => .error (.trap (h.report cRUNOFF) s)
  | .none =>
    match s.fetchLine h.w.core (s.ctxOf h.w) (lineAddr h.f.pc) with
    | (s1, .error e) =>
      match fetchCause e with
      | .ok c => .error (.trap { h.report c with faddr := if h.mustLand then h.f.pc.setWidth 64 else addr } (h.checked s1))
      | .error x => .error (.stop x)
    | (s1, .ok none) =>
      .error (.trap { h.report cIFETCH with faddr := if h.mustLand then h.f.pc.setWidth 64 else addr } (h.checked s1))
    | (s1, .ok (some l)) =>
      if h.mustLand && (lineKind l == 3 || !lineTgt l (slotOf h.f.pc)) then
        .error (.trap { h.report cBADTARGET with faddr := h.f.pc.setWidth 64 } (h.checked s1))
      else
        match lineCause l false with
        | some b => .error (.trap (h.report (cause b)) s1)
        | none =>
          .ok (s1.putWave h.key (h.w.setFrag h.side (some { h.f with fetch := .line l, landing := false })))

/-- R87, R102: the same for a sequencer stream. -/
def SeqHere.enterLine (h : SeqHere) (s : State) : Except Abort State :=
  let addr := if h.i.landing then h.i.pc.setWidth 64 else BitVec.ofNat 64 (lineAddr h.i.pc)
  match h.i.fetch with
  | .line _ => .ok s
  | .wrap => .error (.trap (h.report cPCWRAP) s)
  | .runoff => .error (.trap (h.report cRUNOFF) s)
  | .none =>
    match s.fetchLine h.i.core (s.launch (s.crew h.i.crew).launch).ctx (lineAddr h.i.pc) with
    | (s1, .error e) =>
      match fetchCause e with
      | .ok c => .error (.trap (h.report c addr) s1)
      | .error x => .error (.stop x)
    | (s1, .ok none) => .error (.trap (h.report cIFETCH addr) s1)
    | (s1, .ok (some l)) =>
      if h.i.landing && (lineKind l == 3 || !lineTgt l (slotOf h.i.pc)) then .error (.trap (h.report cBADTARGET addr) s1)
      else
        match lineCause l true with
        | some b => .error (.trap (h.report (cause b)) s1)
        | none => .ok (s1.putInst h.key { h.i with fetch := .line l, landing := false })

/-- LINE_FETCH (R87): the line at the fragment's PC is fetched and checked. -/
def execLineFetch (w : Nat) (b : Bool) (s : State) : Host.Outcome State Fault Refusal :=
  match s.fragment w b with
  | none => .next s
  | some h => h.finish (h.settle s (h.enterLine s))

/-- The instruction that a fragment would issue, when its line is held. -/
def Fragment.instr? (f : Fragment) : Option Instr :=
  match f.fetch with
  | .line l => match decode (lineWord l (slotOf f.pc)) with
    | .ok i => some i
    | .error _ => none
  | _ => none

/-- R145: the fragment is held at a calli. -/
def Wave.held (w : Wave) (side : Bool) (f : Fragment) : Bool :=
  match w.frag (!side), f.instr? with
  | some g, some (.calli _ _) => f.recon != none && f.recon == successor f.pc && !(g.atRecon && g.recon == f.recon)
  | _, _ => false

/-- R383, R388, R389: the fragment is at a scheduler-visible wait that has not ended. -/
def Fragment.waits (f : Fragment) : Bool :=
  f.ended.isNone && match f.wait with
    | .none | .flip _ => false
    | _ => true

/-- R383: a live fragment is blocked. -/
def Wave.blocked (w : Wave) (side : Bool) (f : Fragment) : Bool :=
  f.waits ||
    (f.arrived && match w.frag (!side) with
      | some g => !(g.atRecon && g.recon == f.recon)
      | none => false)

/-- R383: a scheduler-visible wait keeps every live fragment, one at least at a wait. -/
def Wave.isWaiting (w : Wave) : Bool :=
  let fs := [(false, w.fa), (true, w.fb)].filterMap fun x => x.2.map fun f => (x.1, f)
  let blk (x : Bool × Fragment) : Bool := w.blocked x.1 x.2 ||
    (w.held x.1 x.2 && match w.frag (!x.1) with | some g => w.blocked (!x.1) g | none => false)
  (fs.all blk) && fs.any fun x => x.2.waits

/-- R382: ready. -/
def Wave.isReady (w : Wave) : Bool := w.status == .live && !w.isWaiting

/-- FRAGMENT_AGED (R386): a fragment eligible for 256 ungated cycles without issuing is aged. -/
def execFragmentAged (w : Nat) (b : Bool) (s : State) : Host.Outcome State Fault Refusal :=
  match s.fragment w b with
  | none => .next s
  | some h =>
    if 256 ≤ h.f.age then .next (s.putWave w (h.w.setFrag b (some { h.f with aged := true })))
    else .next s

/-- R393: one core-cycle is charged unless the budget is unlimited. -/
def chargeBudget (b : W64) : W64 := if b = 0xFFFFFFFFFFFFFFFF ∨ b = 0 then b else b - 1

/-- R17: the unit that takes an instruction of a class. -/
def unitOf (cls : Nat) : Nat :=
  if cls ≤ 2 then 0 else if cls ≤ 6 then 1 else if cls ≤ 8 then 2 else if cls = 9 then 3 else if cls = 12 then 4
  else if cls ≤ 14 then 5 else 6

/-- The unit that the instruction at a fragment's PC needs, when its line is held. -/
def Fragment.unit? (f : Fragment) : Option Nat :=
  match f.fetch with
  | .line l => some (unitOf (bits (lineWord l (slotOf f.pc)) 92 4))
  | _ => none

/-- R385: the fragment is eligible, a free unit apart. What may keep it back at issue (a scoreboard, a pending flip, a full copy
queue, the owner of the stores) counts against it whatever its instruction. (DESIGN CHOICE, log 4.) -/
def State.eligible (s : State) (k : Nat) (w : Wave) (side : Bool) (f : Fragment) : Bool :=
  w.status == .live && w.budget != 0 && f.fetched && f.wait == .none && !f.arrived && !w.held side f &&
    !(s.stores.preds.any fun x => x.2.wave == k) && !(s.stores.flips.any fun x => x.1 == w.core) && !w.mustWait s k &&
    decide ((s.copies.filter fun x => x.2.core == w.core).length < Config.copyQueue) &&
    ((s.stores.owner.read w.core).toNat == 0 || (s.stores.owner.read w.core).toNat == s.ctxOf w + 1)

/-- R385: the eligible fragment G (of level `lg`) is picked before F: F has yielded; or G is aged, longer than F; or neither is aged
and G's level is higher, or the same and G has gone longer without issuing. -/
def Fragment.before (g : Fragment) (lg : BitVec 2) (f : Fragment) (lf : BitVec 2) : Bool :=
  if g.yielded != f.yielded then f.yielded
  else if g.aged || f.aged then g.aged && (!f.aged || decide (f.age < g.age))
  else decide (lf < lg) || (lg == lf && decide (f.idle < g.idle))

/-- R385, R386: another eligible fragment of the core, of the same unit, is picked before this one. One of another unit may be kept
back by that (R18). (DESIGN CHOICE, log 2.) -/
def State.outranked (s : State) (k : Nat) (side : Bool) (h : Here) : Bool :=
  s.waves.any fun x => x.2.core == h.w.core && [(false, x.2.fa), (true, x.2.fb)].any fun y => match y.2 with
    | some g => (x.1 != k || y.1 != side) && g.unit? == h.f.unit? && s.eligible x.1 x.2 y.1 g && g.before x.2.level h.f h.w.level
    | none => false

/-- R386: a fragment of the core has been eligible for 1,024 cycles: no further one passes before it issues. -/
def State.overdue (s : State) (core : Nat) : Bool :=
  s.waves.any fun x => x.2.core == core && [(false, x.2.fa), (true, x.2.fb)].any fun y => match y.2 with
    | some f => decide (1024 ≤ f.age) && s.eligible x.1 x.2 y.1 f
    | none => false

/-- R386: a fragment after one ungated cycle; one that has yielded has let the others go first (R385). -/
def Fragment.aging (f : Fragment) (eligible : Bool) : Fragment :=
  { f with age := if eligible then f.age + 1 else 0, aged := eligible && (f.aged || decide (256 ≤ f.age + 1)), yielded := false }

/-- R386, R393, R397: one ungated cycle of a core. (DESIGN CHOICE, log 4.) -/
def State.cycle (s : State) (core : Nat) : State :=
  if s.overdue core then s
  else
    let mine (w : Wave) : Bool := w.core == core && w.isReady
    let busy (i : Inst) : Bool := i.core == core && i.status == .live && match i.wait with | .barrier _ _ => false | _ => true
    let ctxs := (s.waves.filter fun x => mine x.2).map (fun x => s.ctxOf x.2) ++
      (s.seqs.filter fun x => busy x.2).map fun x => (s.launch (s.crew x.2.crew).launch).ctx
    let charged (c : Nat) (x : Ctx) : Ctx :=
      { x with vc := x.vc.write (core / 512) (x.vc.read (core / 512) + BitVec.ofNat 64 (ctxs.count c)) }
    { s with
      waves := s.waves.map fun x => if x.2.core == core then
          (x.1, { x.2 with
            budget := if mine x.2 then chargeBudget x.2.budget else x.2.budget
            fa := x.2.fa.map fun f => f.aging (s.eligible x.1 x.2 false f)
            fb := x.2.fb.map fun f => f.aging (s.eligible x.1 x.2 true f) })
        else x
      seqs := s.seqs.map fun x => if busy x.2 then (x.1, { x.2 with budget := chargeBudget x.2.budget }) else x
      ctxs := s.ctxs.map fun x => (x.1, charged x.1 x.2) }

/-- R394: a wave whose budget is 0 adjourns with BUDGET; the fragment that issued last stands in the clear. -/
def State.budgetOut (s : State) (k : Nat) : State :=
  match s.waves.get? k with
  | some w =>
    if w.status = .live ∧ w.budget = 0 ∧ !w.mustWait s k then
      let side := if (w.frag w.issuedB).isSome then w.issuedB else !w.issuedB
      match s.fragment k side with
      | some h => s.adjourn k side (h.report cBUDGET)
      | none => s
    else s
  | none => s

/-- BUDGET_EXHAUSTED (R394): a wave, or an instance at the next instruction it would issue, adjourns with BUDGET. -/
def execBudgetExhausted (seq : Bool) (w : Nat) (s : State) : Host.Outcome State Fault Refusal :=
  if seq then
    match s.seqs.get? w with
    | some i =>
      if i.status = .live ∧ i.budget = 0 ∧ i.ops = [] then
        .next (s.adjournInst w { causes := cBUDGET, pc := i.pc.setWidth 64 })
      else .next s
    | none => .next s
  else .next (s.budgetOut w)

end Sys2Proof.Machine
end

