-- ==== Sys2Proof/Machine/Access.lean ====
section
/-!
DEFINITION. The checks of R195 on one access, range locks (R221), the write set (R365, R367), global reads and writes of a
core, and the A-store with its windows (R206 to R208, R254 to R267).
-/
namespace Sys2Proof.Machine

/-- Two ranges share a byte. -/
def meets (a n b m : Nat) : Bool := a < b + m && b < a + n

/-- The global and the local ranges that a copy reads and writes (R214, R290). -/
def Copy.globSrc (c : Copy) : Option (Nat × Nat) :=
  match c.kind with
  | .cpys => none
  | .scpy => if c.scpy = ScpyKind.fromA then none else some (c.src, c.len)
  | _ => some (c.src, c.len)

def Copy.globDst (c : Copy) : Option (Nat × Nat) :=
  match c.kind with
  | .cpys | .cpyg => some (c.dst, c.len)
  | .scpy => if c.scpy = ScpyKind.fromA then some (c.dst, c.len) else none
  | _ => none

def Copy.locSrc (c : Copy) : Option (Nat × Nat) :=
  match c.kind with
  | .cpys => some (c.src, c.len)
  | .scpy => if c.scpy = ScpyKind.fromA then some (c.src, c.len) else none
  | _ => none

def Copy.locDst (c : Copy) : Option (Nat × Nat) :=
  match c.kind with
  | .cpy => some (c.dst, c.len)
  | .scpy => if c.scpy = ScpyKind.toA then some (c.dst, c.len) else none
  | _ => none

def rangeHit (r : Option (Nat × Nat)) (a n : Nat) : Bool :=
  match r with
  | some (b, m) => meets a n b m
  | none => false

/-- R221: a copy of the cluster has locked the range against the access. -/
def State.locked (s : State) (clus ctx : Nat) (loc write : Bool) (a n : Nat) : Bool :=
  s.copies.any fun x =>
    let c := x.2
    c.core / 8 == clus && (loc || c.ctx == ctx) &&
      (rangeHit (if loc then c.locDst else c.globDst) a n || (write && rangeHit (if loc then c.locSrc else c.globSrc) a n))

/-- R364: a page belongs to the write set of a launch; a fault task has none and is not bound (R436). -/
def Launch.mayWrite (l : Launch) (va size : Nat) : Bool := l.task.isSome || l.wset.any fun r => meets va size r.1 r.2

/-- R364, R365: the page of an address belongs to the launch's write set. -/
def State.inWset (s : State) (l : Launch) (u va : Nat) : Bool :=
  l.task.isSome ||
    match (s.leafFor u l.ctx va).2 with
    | .ok leaf => l.mayWrite leaf.va leaf.size
    | .error _ => false

/-- R138: the waves whose divergence stacks a program's write reaches. -/
def State.stacksIn (s : State) (pa n : Nat) : List Nat :=
  (s.waves.filter fun x => meets pa n (x.2.stackAt 0) 1024).map (·.1)

/-- R138, R367: a write by other work to a page of an active write set makes that launch non-replayable; one to a divergence stack
spoils its wave. -/
def State.noteWrite (s : State) (who : Option Nat) (pa n : Nat) : State :=
  { s with
    spoilt := s.spoilt ++ s.stacksIn pa n
    launches := s.launches.map fun x =>
      if who != some x.1 && (x.2.st == .running || x.2.st == .draining || x.2.st == .replaying) &&
          x.2.shadows.any (fun h => meets pa n h.frame h.size)
      then (x.1, { x.2 with nonReplay := true }) else x }

/-- R194: an access cut at its lines: address and length. -/
def cuts (a n : Nat) : List (Nat × Nat) :=
  if a % 128 + n ≤ 128 then [(a, n)] else [(a, 128 - a % 128), (a + (128 - a % 128), n - (128 - a % 128))]


/-- The outcome of the checks of one lane (R195). -/
inductive LaneCheck where
  | ok (ps : List Piece)
  | bad (c : W64)
  /-- A snapshot copy is under way (R326). -/
  | wait
  | absent
  deriving DecidableEq, Repr, Inhabited

/-- Translations of the pieces of an access. -/
def State.xlate (u ctx : Nat) (k : Access) : State → List (Nat × Nat) → State × List (Nat × Nat × Except TErr Nat)
  | s, [] => (s, [])
  | s, (a, n) :: rest =>
    let r := s.translate u ctx a k
    let q := State.xlate u ctx k r.1 rest
    (q.1, (a, n, r.2) :: q.2)

/-- A translation failed in the given way. -/
def failed (e : TErr) (r : Except TErr Nat) : Bool :=
  match r with
  | .error x => x == e
  | .ok _ => false

/-- R195, checks 2 to 5, on `n` bytes of global memory for a launch on a core: the first failing check decides. -/
def State.checkGlobal (s : State) (core : Nat) (l : Launch) (k : Access) (a n : Nat) : State × LaneCheck :=
  let (s1, rs) := State.xlate core l.ctx k s (cuts a n)
  let any (e : TErr) : Bool := rs.any fun r => failed e r.2.2
  (s1,
    if any .absent then .absent
    else if any .page then .bad cPAGE
    else if any .memecc then .bad cMEMECC
    else if any .prot then .bad cPROT
    else if k == .write && !(rs.all fun r => s1.inWset l core r.1) then .bad cWSET
    else if s1.locked (core / 8) l.ctx false (k == .write) a n then .bad cRLOCK
    else if any .snapshot then .wait
    else .ok (rs.map fun r => ⟨r.1, match r.2.2 with | .ok pa => pa | .error _ => 0, r.2.1⟩))

/-- The run of a crew: base and length in bytes (R259). -/
def Crew.base (c : Crew) : Nat := 65536 * c.unit

def Crew.runLen (c : Crew) : Nat := 65536 * c.nunits

/-- R192: the bytes lie in the crew's run. -/
def Crew.holds (c : Crew) (a n : Nat) : Bool := a < 2 ^ 22 && c.base ≤ a && a + n ≤ c.base + c.runLen

/-- R192, R195: the checks on `n` bytes of the cluster space. -/
def State.checkLocal (s : State) (c : Crew) (write : Bool) (a n : Nat) : LaneCheck :=
  if !c.holds a n then .bad cPROT
  else if s.locked c.clus 0 true write a n then .bad cRLOCK
  else .ok [⟨a, a, n⟩]

/-- The checks of every lane, one after another. -/
def checkLanes (chk : State → Nat → State × LaneCheck) : State → List Nat → State × List (Nat × LaneCheck)
  | s, [] => (s, [])
  | s, l :: ls =>
    let r := chk s l
    let q := checkLanes chk r.1 ls
    (q.1, (l, r.2) :: q.2)

/-- The report of lanes that fail together, with one address for each (R195). (DEDUCED, log 25.) -/
def Here.lanesReport (h : Here) (causes : W64) (m : Lanes) (addr : Nat → W64) : Report :=
  { h.report causes m with lanes := (lanesOf m).map fun l => (l, addr l) }

/-- The cause of a lane's check. -/
def LaneCheck.cause : LaneCheck → W64
  | .bad c => c
  | _ => 0

/-- R195: any failing lane adjourns the wave; else a lane that waits keeps the instruction back. -/
def Here.allPass (h : Here) (s : State) (addr : Nat → W64) (rs : List (Nat × LaneCheck)) :
    Except Abort (List (Nat × List Piece)) :=
  if rs.any fun r => r.2 == .absent then .error (.stop .noMemory)
  else
    let bad := rs.filter fun r => r.2.cause != 0
    if bad != [] then
      .error (.trap (h.lanesReport (bad.foldl (fun c r => c ||| r.2.cause) 0) (lanesMask (bad.map (·.1))) addr)
        (s.countWalks (s.ctxOf h.w) ((bad.filter fun r => r.2.cause == cMEMECC).map fun r => (addr r.1).toNat)))
    else if rs.any fun r => r.2 == .wait then .error (.hold (h.await s .hidden))
    else .ok (rs.map fun r => (r.1, match r.2 with | .ok ps => ps | _ => []))

/-- The pieces of a lane. -/
def piecesOf (ps : List (Nat × List Piece)) (l : Nat) : List Piece := ((ps.find? fun x => x.1 == l).map (·.2)).getD []

/-- R268, R270: reading the piece consumes poison: the L1 does not serve it. -/
def State.spoiled (s : State) (core : Nat) (p : Piece) : Bool :=
  s.poisoned (p.pa / 128) && (s.mem.l1.get? (l1Key core (p.pa / 128))).isNone

/-- Distinct uncorrectable lines consumed, each once (R325, R327). -/
def State.consumeAll (s : State) (u ctx : Nat) (ps : List Piece) : State :=
  let firsts := ps.foldl (fun (acc : List Piece) p => if acc.any fun q => q.pa / 128 == p.pa / 128 then acc else acc ++ [p]) []
  firsts.foldl (fun s p => s.consume p.pa (some (u, ctx, p.va))) s

/-- R325: the access went through a leaf whose entry has changed since its walk, and walks again. -/
def State.walksAgain (s : State) (u ctx : Nat) (ps : List Piece) : Bool :=
  ps.any fun p => match s.usedLeaf u ctx p.va with
    | some (_, same) => !same
    | none => false

/-- R196, R325: the loads of these pieces consume uncorrectable data: the wave adjourns with a report, or the access walks again. -/
def Here.consumes (h : Here) (s : State) (ps : List Piece) (r : Report) : Abort :=
  let s1 := s.consumeAll h.w.core (s.ctxOf h.w) ps
  if s.walksAgain h.w.core (s.ctxOf h.w) ps then h.hazard s1 else .trap r s1

/-- The bytes of some pieces as the core loads them (R268). -/
def State.loadPieces (s : State) (core : Nat) (alloc : Bool) : List Piece → State × List Byte
  | [] => (s, [])
  | p :: ps =>
    let r := s.coreLine core (p.pa / 128) alloc
    let q := r.1.loadPieces core alloc ps
    (q.1, (List.range p.len).map (fun i => byteOf r.2 (p.pa % 128 + i)) ++ q.2)

/-- Bytes stored to some pieces by a core on behalf of a launch. -/
def State.storePieces (s : State) (core : Nat) (who : Option Nat) : List Piece → List Byte → State
  | [], _ => s
  | p :: ps, bs =>
    ((s.coreWrite core p.pa p.len (bytesFn p.pa (bs.take p.len))).noteWrite who p.pa p.len).storePieces core who ps
      (bs.drop p.len)

def Piece.meets (p q : Piece) : Bool := Machine.meets p.pa p.len q.pa q.len

/-- Two events touch a byte of memory both. -/
def Post.meets (x y : Post) : Bool := x.parts.any fun p => y.parts.any p.meets

/-- The byte that an event leaves at an address, where it writes one. -/
def Post.byte? (p : Post) (a : Nat) : Option Byte :=
  (p.parts.foldl (fun (r : Option Byte × List Byte) q =>
    (if q.pa ≤ a ∧ a < q.pa + q.len then some (r.2.getD (a - q.pa) 0) else r.1, r.2.drop q.len)) (none, p.data)).1

/-- R229, R230: the store of one lane: one event where its address is a multiple of its size, else an event for every byte. -/
def lanePosts (ps : List Piece) (bs : List Byte) : List Post :=
  match ps with
  | [p] => if p.pa % p.len = 0 then [{ parts := [p], data := bs }]
    else (List.range p.len).map fun i => { parts := [⟨p.va + i, p.pa + i, 1⟩], data := [bs.getD i 0] }
  | _ =>
    (ps.flatMap fun p => (List.range p.len).map fun i => (⟨p.va + i, p.pa + i, 1⟩ : Piece)).zipIdx.map fun x =>
      { parts := [x.1], data := [bs.getD x.2 0] }

/-- R230: the line of a beat of lanes that is fully coalesced. -/
def fullBeat (ps : List (Nat × List Piece)) (b : Nat) : Option Nat :=
  let mine := (List.range 32).map fun i => (ps.find? fun x => x.1 == 32 * b + i).map (·.2)
  match mine.head? with
  | some (some [p]) =>
    if mine.all fun x => match x with
      | some [q] => q.len == 4 && q.pa % 4 == 0 && q.pa / 128 == p.pa / 128
      | _ => false
    then some (p.pa / 128) else none
  | _ => none

/-- R197, R230: the event of a fully coalesced beat: the words that its lanes write, the higher-numbered lane's last. -/
def beatPost (line : Nat) (ps : List (Nat × List Piece)) (b : Nat) (data : Nat → List Byte) : Post :=
  let lanes := ps.filter fun x => x.1 / 32 == b
  let word (i : Nat) : Option (Piece × List Byte) := lanes.foldl (fun r x => match x.2 with
    | [q] => if q.pa % 128 / 4 = i then some (q, data x.1) else r
    | _ => r) none
  let ws := (List.range 32).filterMap word
  match ws with
  | (q, _) :: _ =>
    if ws.length = 32 then { parts := [⟨q.va, 128 * line, 128⟩], data := ws.flatMap (·.2), beat := true }
    else { parts := ws.map (·.1), data := ws.flatMap (·.2), beat := true }
  | [] => {}

/-- R197, R229, R230: the events of a store of some lanes, in the order of the lanes. -/
def storePosts (ps : List (Nat × List Piece)) (data : Nat → List Byte) : List Post :=
  (List.range 3).flatMap fun b => match fullBeat ps b with
    | some line => [beatPost line ps b data]
    | none => (ps.filter fun x => x.1 / 32 == b).flatMap fun x => lanePosts x.2 (data x.1)

/-- R228, R235: the store events of a fragment issue; each is performed in a turn of its own. (DESIGN CHOICE, log 3.) -/
def Here.post (h : Here) (s : State) (l : List Post) : State :=
  { s with
    mem := { s.mem with posts := s.mem.posts ++ l.zipIdx.map fun x => { x.1 with
      tok := s.draw + x.2, core := h.w.core, wave := h.key, who := some (s.crew h.w.crew).launch, obs := [h.f.id] } }
    draw := s.draw + l.length }

/-- Cores other than the issuing one on which a fragment must see the event. -/
def State.watchers (s : State) (p : Post) : List Nat :=
  (s.waves.filter fun x => x.2.core != p.core && x.2.frags.any fun f => p.seenBy f.id).map (·.2.core)

/-- R235, R268, R269: a store event is performed at .sys, in one step. -/
def State.performed (s : State) (p : Post) : State :=
  let s1 := s.storePieces p.core p.who p.parts p.data
  s1.setMem ((p.parts.map fun q => q.pa / 128).dedup.foldl (fun m l => m.evictL1 l (s.watchers p)) s1.mem)

/-- R232: the pending events that `p` names, with older ones that touch the same bytes, and those left. -/
def duePosts (p : Post → Bool) (l : List Post) : List Post × List Post :=
  l.foldr (fun x r => if p x || r.1.any x.meets then (x :: r.1, r.2) else (r.1, x :: r.2)) ([], [])

/-- The pending store events that `p` names are performed, oldest first. -/
def State.settle (s : State) (p : Post → Bool) : State :=
  let r := duePosts p s.mem.posts
  r.1.foldl State.performed (s.setMem { s.mem with posts := r.2 })

/-- R232: the pending events that a fragment must see and that touch some pieces are performed. -/
def State.settleOver (s : State) (id : Nat) (ps : List Piece) : State :=
  s.settle fun p => p.seenBy id && p.parts.any fun x => ps.any x.meets

/-- What a load sees of a pending store event: the whole, or some of its bytes. -/
structure Glimpse where
  post : Post
  mask : Option Nat
  deriving DecidableEq, Repr

/-- R231: another shape of access. -/
def Piece.otherShape (q : Piece) (p : Post) : Bool := p.parts.any fun x => x.pa != q.pa || x.len != q.len

/-- R231: a single-copy event that an access of another shape may meet half way. -/
def Post.tears (p : Post) (ps : List Piece) : Bool :=
  !p.beat && decide (1 < p.data.length) && ps.any fun q => q.otherShape p && p.parts.any q.meets

/-- R232, R235: what the loads of some pieces by a fragment on a core see of the pending events: those that it must; of its core's
others, those that a free choice names; and of one of another shape, the bytes that a free choice names. `whole` are the lines that a
coalesced beat reads. (DESIGN CHOICE, log 3.) -/
def State.glimpses (s : State) (core id : Nat) (ps : List Piece) (whole : List Nat) : List Glimpse :=
  ((s.mem.posts.filter fun p => p.parts.any fun x => ps.any x.meets).zipIdx).filterMap fun (x : Post × Nat) =>
    let c := Config.choice (s.draw + x.2)
    if x.1.seenBy id || (x.1.core == core && c % 2 == 1) then some ⟨x.1, none⟩
    else if x.1.tears ps && !(x.1.parts.any fun q => whole.contains (q.pa / 128)) then some ⟨x.1, some (c / 2)⟩
    else none

/-- The byte at an address as a piece of a load sees it. -/
def seenByte (gs : List Glimpse) (q : Piece) (a : Nat) (b : Byte) : Byte :=
  gs.foldl (fun b g => match g.post.byte? a with
    | some x => match g.mask with
      | none => x
      | some m => if q.otherShape g.post && m.testBit (a - ((g.post.parts.map (·.pa)).headD 0)) then x else b
    | none => b) b

/-- R232, R236: the fragment has read the events that it saw; one that it met half way is performed. -/
def State.sawPosts (s : State) (id : Nat) (ps : List Piece) (gs : List Glimpse) : State :=
  let full := (gs.filter fun g => g.mask.isNone && !g.post.seenBy id).map (·.post.tok)
  let torn := (gs.filter fun g => match g.mask with | some m => m != 0 | none => false).map (·.post.tok)
  let draws := if s.mem.posts.all fun p => p.seenBy id || !(p.parts.any fun x => ps.any x.meets) then 0 else s.mem.posts.length
  let s1 := s.setMem { s.mem with posts := s.mem.posts.map fun p => if full.contains p.tok then { p with obs := id :: p.obs } else p }
  { s1 with draw := s.draw + draws }.settle fun (p : Post) => torn.contains p.tok

/-- R204: the lines of an L1 that these pieces name, and the addresses by which. -/
def State.tagL1 (s : State) (core ctx : Nat) (ps : List Piece) : State :=
  s.setMem { s.mem with l1va := ps.foldl (fun t p =>
    let x := (l1Key core (p.pa / 128), ctx, p.va / 128)
    if (s.mem.l1.get? x.1).isNone || t.contains x then t else t ++ [x]) s.mem.l1va }

/-- The bytes of some pieces as a fragment loads them: those of memory or its L1 (R268), with the pending events it sees. -/
def seenPieces (gs : List Glimpse) : List Piece → List Byte → List Byte
  | [], _ => []
  | p :: ps, bs => ((bs.take p.len).zipIdx.map fun x => seenByte gs p (p.pa + x.2) x.1) ++ seenPieces gs ps (bs.drop p.len)

/-- The 4-byte words that `[a, a+n)` touches, by address over 4. -/
def wordsOf (a n : Nat) : List Nat := if n = 0 then [] else (List.range ((a + n - 1) / 4 - a / 4 + 1)).map (a / 4 + ·)

/-- A byte range holds the whole of a word. -/
def coversWord (a n w : Nat) : Bool := a ≤ 4 * w && 4 * w + 4 ≤ a + n

/-- R258: a word of the A-store that cannot be read. -/
def State.badWord (s : State) (clus w : Nat) : Bool := s.stores.bad.contains (0, 2 ^ 20 * clus + w)

/-- Bytes of the cluster space. -/
def State.getA (s : State) (clus a n : Nat) : List Byte := (List.range n).map fun i => s.stores.astore.read (2 ^ 22 * clus + a + i)

/-- R258: bytes written to the cluster space; words written whole become correct. -/
def State.putA (s : State) (clus a n : Nat) (f : Nat → Byte) : State :=
  { s with stores := { s.stores with
      astore := s.stores.astore.update (2 ^ 22 * clus + a) n fun k => f (k - 2 ^ 22 * clus)
      bad := s.stores.bad.filter fun b => !(b.1 == 0 && b.2 / 2 ^ 20 == clus && coversWord a n (b.2 % 2 ^ 20)) } }

/-- R413: PH of the barrier object at an offset of the cluster space. -/
def State.objPh (s : State) (clus off : Nat) : Bool := (s.stores.astore.read (2 ^ 22 * clus + off + 7)).getLsbD 7

/-- R416: a barrier wait whose object's PH equals the awaited value. -/
def Wait.flipped (s : State) (clus : Nat) : Wait → Bool
  | .barrier off ph => s.objPh clus off == ph
  | _ => false

/-- R416: a fragment whose barrier wait ends goes on, or, without its line, returns when it issues. -/
def Fragment.wake (s : State) (clus : Nat) (f : Fragment) : Fragment :=
  if f.wait.flipped s clus then (if f.fetched then f.advance else f.endWait .plain) else f

/-- R416, R419: a wave on a core with a fragment whose barrier wait ends. -/
def Wave.wakes (s : State) (w : Wave) : Bool :=
  w.status == .live && w.frags.any fun f => f.wait.flipped s (w.core / 8)

def Inst.wakes (s : State) (i : Inst) : Bool := i.status == .live && i.wait.flipped s (i.core / 8)

/-- R262, R263: the open window that holds a byte of the run: its number and the byte's offset in it. -/
def Crew.winAt (c : Crew) (l : Launch) (x : Nat) : Option (Nat × Nat) :=
  ((List.range l.wins.length).find? fun k =>
    match l.wins[k]? with
    | some w => c.opened.getLsbD k && c.base + w.aoff ≤ x && x < c.base + w.aoff + w.len
    | none => false).map fun k => (k, x - (c.base + ((l.wins[k]?).map (·.aoff)).getD 0))

/-- R262: the global address of byte `o` of window `k` for a crew. -/
def Crew.winVa (c : Crew) (l : Launch) (k o : Nat) : Nat :=
  match l.wins[k]? with
  | some w => (w.gbase + BitVec.ofNat 64 c.idx * w.cstr + BitVec.ofNat 64 o).toNat
  | none => 0

/-- R263: key of a word and its state: 0 Invalid, 2 Clean, 3 Dirty. -/
def winKey (k o : Nat) : Nat := 2 ^ 18 * k + o / 4

/-- R207: the blocks that an access must have filled first: `(window, block)`. -/
def Crew.fillsFor (c : Crew) (l : Launch) (write : Bool) (a n : Nat) : List (Nat × Nat) :=
  (wordsOf a n).filterMap fun w =>
    match c.winAt l (4 * w) with
    | some (k, o) => if c.words.read (winKey k o) = 0 ∧ !(write && coversWord a n w) then some (k, o / 256) else none
    | none => none

/-- R264: what the read of a block meets. -/
def State.fillCheck (s : State) (core : Nat) (l : Launch) (va : Nat) : State × LaneCheck :=
  match s.translate core l.ctx va .read with
  | (s1, .error .absent) => (s1, .absent)
  | (s1, .error .prot) => (s1, .bad cPROT)
  | (s1, .error .memecc) => (s1.countWalks l.ctx [va], .bad cMEMECC)
  | (s1, .error _) => (s1, .bad cPAGE)
  | (s1, .ok pa) =>
    if s1.poisoned (pa / 128) then (s1.consume pa (some (core, l.ctx, va)), .bad cMEMECC)
    else if s1.poisoned (pa / 128 + 1) then (s1.consume (pa + 128) (some (core, l.ctx, va)), .bad cMEMECC)
    else (s1, .ok [⟨va, pa, 256⟩])

/-- R232, R264: words still Invalid are installed Clean; the L1s of the cluster, which may hold an older value, lose the lines. -/
def State.installBlock (s0 : State) (ck : Nat) (k blk pa : Nat) : State :=
  let c := s0.crew ck
  let die := c.clus / 64
  let s := if homeOf (pa / 128) == die then s0 else
    [pa / 128, pa / 128 + 1].foldl (fun s l => match s.mem.l2.get? (l2Key die l) with | some _ => s | none => s.doGetS die l) s0
  let l := s.launch c.launch
  let base := c.base + ((l.wins[k]?).map (·.aoff)).getD 0 + 256 * blk
  let fresh := (List.range 64).filter fun i => c.words.read (winKey k (256 * blk + 4 * i)) == 0
  let byte (x : Nat) : Byte := byteOf (s.mem.dieLine die ((pa + (x - base)) / 128)) ((pa + (x - base)) % 128)
  let s0 := s.setMem ([pa / 128, pa / 128 + 1].foldl (fun m l => m.evictL1 l ((List.range 8).map (8 * c.clus + ·))) s.mem)
  let s1 := fresh.foldl (fun s i => s.putA c.clus (base + 4 * i) 4 byte) s0
  s1.setCrew ck fun c => { c with
    words := fresh.foldl (fun w i => w.write (winKey k (256 * blk + 4 * i)) 2) c.words
    phys := c.phys.write (2 ^ 13 * k + blk) (BitVec.ofNat 52 (pa / 256 + 1)) }

/-- WINDOW_FILL (R264): a wanted block arrives. One that can no longer be read is dropped: the access that wants it
executes again and meets the cause itself. -/
def execWindowFill (ck k blk : Nat) (s : State) : Host.Outcome State Fault Refusal :=
  let c := s.crew ck
  if c.fills.contains (k, blk) then
    let s1 := s.setCrew ck fun c => { c with fills := c.fills.filter (· != (k, blk)) }
    let l := s.launch c.launch
    if !c.opened.getLsbD k || c.space.isSome then .next s1
    else
      match s1.translate (dieUnit (c.clus / 64)) l.ctx (c.winVa l k (256 * blk)) .read with
      | (s2, .ok pa) => if s2.poisoned (pa / 128) || s2.poisoned (pa / 128 + 1) then .next s2 else .next (s2.installBlock ck k blk pa)
      | (s2, .error _) => .next s2
  else .next s

/-- R207, R232: the blocks wanted are asked for, after the fragment's own stores to them, and the fragment waits; a block that cannot
be read adjourns the wave. -/
def Here.needFills (h : Here) (s : State) : List (Nat × Nat) → Except Abort State
  | [] => .ok s
  | (k, b) :: rest =>
    let c := s.crew h.w.crew
    let l := s.launch c.launch
    let va := c.winVa l k (256 * b)
    match s.fillCheck h.w.core l va with
    | (_, .absent) => .error (.stop .noMemory)
    | (s1, .bad x) => .error (.trap { h.report x with faddr := BitVec.ofNat 64 va } s1)
    | (s1, r) =>
      let ps := match r with | .ok ps => ps | _ => []
      match h.needFills (s1.settleOver h.f.id ps) rest with
      | .error (.hold s2) | .ok s2 =>
        .error (.hold ((s2.setCrew h.w.crew fun c => { c with
          fills := if c.fills.contains (k, b) then c.fills else c.fills ++ [(k, b)] }) |> fun s3 => h.await s3 .hidden))
      | .error a => .error a

/-- R207, R263: bytes stored into the run; words of open windows become Dirty. -/
def State.storeLocal (s : State) (ck a n : Nat) (f : Nat → Byte) : State :=
  let c := s.crew ck
  let l := s.launch c.launch
  (s.putA c.clus a n f).setCrew ck fun c => { c with
    words := (wordsOf a n).foldl (fun ws w => match c.winAt l (4 * w) with
      | some (k, o) => ws.write (winKey k o) 3
      | none => ws) c.words }

/-- Why a write-back fails. -/
inductive WbFail where
  | bad (c : W64) (va : Nat)
  | wait
  | absent
  deriving DecidableEq, Repr

/-- R208: the Dirty words of some windows. -/
def Crew.dirty (c : Crew) (ks : List Nat) : List Nat :=
  (c.words.filter fun x => x.2 == 3 && ks.contains (x.1 / 2 ^ 18)).map (·.1)

/-- R208: the checks on every Dirty word before any is captured: the physical address of each. -/
def State.wbCheck (core ck : Nat) : State → List Nat → State × Except WbFail (List (Nat × Nat))
  | s, [] => (s, .ok [])
  | s, key :: keys =>
    let c := s.crew ck
    let l := s.launch c.launch
    let o := 4 * (key % 2 ^ 18)
    let va := c.winVa l (key / 2 ^ 18) o
    let blk := c.winVa l (key / 2 ^ 18) (o / 256 * 256)
    let x := c.base + ((l.wins[key / 2 ^ 18]?).map (·.aoff)).getD 0 + o
    if s.badWord c.clus (x / 4) then (s, .error (.bad cMEMECC x))
    else
      match s.checkGlobal core l .write va 4 with
      | (s1, .ok (p :: _)) =>
        match State.wbCheck core ck s1 keys with
        | (s2, .ok r) => (s2, .ok ((key, p.pa) :: r))
        | r => r
      | (s1, .bad c) => (s1, .error (.bad c blk))
      | (s1, .absent) => (s1, .error .absent)
      | (s1, _) => (s1, .error .wait)

/-- R208, R232: the words are captured, become Clean and are merged at home; a window's own write-back leaves it as it is, and the L1s of
the cluster lose the line. Each is performed in the step that captures it. (DESIGN CHOICE, log 3.) -/
def State.wbWrite (ck : Nat) : State → List (Nat × Nat) → State
  | s, [] => s
  | s, (key, pa) :: rest =>
    let c := s.crew ck
    let l := s.launch c.launch
    let x := c.base + ((l.wins[key / 2 ^ 18]?).map (·.aoff)).getD 0 + 4 * (key % 2 ^ 18)
    let bs := s.getA c.clus x 4
    let s1 := s.setCrew ck fun c => { c with
      words := c.words.write key 2
      phys := c.phys.write (2 ^ 13 * (key / 2 ^ 18) + key % 2 ^ 18 / 64) (BitVec.ofNat 52 (pa / 256 + 1)) }
    let s2 := (s1.homeWrite pa 4 (bytesFn pa bs) (some (ck, key / 2 ^ 18))).noteWrite (some c.launch) pa 4
    State.wbWrite ck (s2.setMem (s2.mem.evictL1 (pa / 128) ((List.range 8).map (8 * c.clus + ·)))) rest

/-- R208, R212: the Dirty words of some windows are written back, all or none. -/
def State.writeBack (s : State) (core ck : Nat) (ks : List Nat) : State × Except WbFail Unit :=
  match State.wbCheck core ck s ((s.crew ck).dirty ks) with
  | (s1, .ok ps) => (State.wbWrite ck s1 ps, .ok ())
  | (s1, .error e) => (s1, .error e)

/-- The same for an instruction of a wave, after the stores that come before it. -/
def Here.writeBack (h : Here) (s0 : State) (ks : List Nat) : Except Abort State :=
  let s := s0.settle (·.seenBy h.f.id)
  match s.writeBack h.w.core h.w.crew ks with
  | (s1, .ok ()) => .ok s1
  | (s1, .error (.bad c va)) =>
    .error (.trap { h.report c with faddr := BitVec.ofNat 64 va } (if c = cMEMECC then s1.countWalks (s1.ctxOf h.w) [va] else s1))
  | (s1, .error .wait) => .error (.hold (h.await s1 .hidden))
  | (_, .error .absent) => .error (.stop .noMemory)

/-- R206: the windows of a crew that are open. -/
def Crew.openWins (c : Crew) : List Nat := (List.range 8).filter fun k => c.opened.getLsbD k

/-- The fragments of a wave, by name. -/
def Wave.ids (w : Wave) : List Nat := w.frags.map (·.id)

/-- R212, R236: a release by a fragment: at .wv its wave sees every event that it must see; at .crw they are performed for its crew; at
.die and wider the windows are written back and they are performed for every agent. -/
def Here.release (h : Here) (s : State) (sc : Scope) : Except Abort State :=
  match sc with
  | .wv => .ok (s.markPosts h.f.id fun p => { p with obs := p.obs ++ h.w.ids })
  | .crw => .ok (s.markPosts h.f.id fun p => { p with obs := p.obs ++ h.w.ids, crews := h.w.crew :: p.crews })
  | _ => h.writeBack s (s.crew h.w.crew).openWins

/-- R240: the pending events that a fragment must see and that write Clean words of a crew's windows are performed. (DESIGN CHOICE, log 53.) -/
def State.settleWords (s : State) (id crew : Nat) : State :=
  s.settle fun p => p.seenBy id && p.parts.any fun x => (s.crew crew).words.any fun y => y.2 == 2 && (s.crew crew).wordIn x.pa x.len y.1

/-- R212, R236, R240: an acquire by a fragment (or, without one, by an engine of the crew) on a core: at .crw and wider its L1 is
invalidated and it sees what is performed for its crew; at .die and wider the words of its crew's windows that others have written are
Invalid, those among them that stores have written which it must see. -/
def State.acquire (s : State) (core id crew : Nat) (sc : Scope) : State :=
  let s1 := s.setMem { s.mem.dropL1 core with
    posts := s.mem.posts.map fun p => if p.crews.contains crew then { p with obs := id :: p.obs } else p }
  match sc with
  | .wv => s
  | .crw => s1
  | _ => (s1.settleWords id crew).setCrew crew Crew.dropStale

def Here.acquire (h : Here) (s : State) (sc : Scope) : State := s.acquire h.w.core h.f.id h.w.crew sc

/-- R236, R289: an acquire at .crw by a sequencer instance: what is performed for its crew is performed for its copies. -/
def State.seqAcquire (s : State) (i : Inst) : State :=
  (s.setMem (s.mem.dropL1 i.core)).settle fun p => p.crews.contains i.crew

/-- R416: after writes to the A-store, every resident barrier wait whose condition holds ends; its return is an acquire at
.crw on its core (R236, R289, R419). (DEDUCED, log 7.) -/
def State.wake (s : State) : State :=
  let s1 := { s with
    waves := s.waves.map fun x => if x.2.wakes s then (x.1, x.2.mapFrags (·.wake s (x.2.core / 8))) else x
    seqs := s.seqs.map fun x => if x.2.wakes s then (x.1, x.2.advance) else x }
  let s2 := (s.waves.filter fun x => x.2.wakes s).foldl (fun t x =>
    (x.2.frags.filter fun f => f.wait.flipped s (x.2.core / 8)).foldl (fun t f => t.acquire x.2.core f.id x.2.crew .crw) t) s1
  (s.seqs.filter fun x => x.2.wakes s).foldl (fun t x => t.seqAcquire x.2) s2

end Sys2Proof.Machine
end

