-- ==== Sys2Proof/Machine/Float.lean ====
section
/-!
DEFINITION. Floating point on exact integers: formats (R34), rounding (R41 to R43), saturation (R44), NaNs (R45), the
operations of the float groups (R168 to R172), conversions (R47) and DX blocks (R37 to R40).
-/
namespace Sys2Proof.Machine

/-- R69: the sticky flags. -/
abbrev Flags := BitVec 7

def flNV : Flags := 1
def flDZ : Flags := 2
def flOF : Flags := 4
def flUF : Flags := 8
def flNX : Flags := 16
def flGU : Flags := 32
def flDXO : Flags := 64

/-- A floating-point datum. A NaN carries its fraction at the top of 52 bits, quiet bit first (R34, R45). -/
inductive FVal where
  | nan (neg : Bool) (frac : Nat)
  | inf (neg : Bool)
  | fin (neg : Bool) (m : Nat) (e : Int)
  deriving DecidableEq, Repr, Inhabited

/-- A finite real `±m·2^e`. A value strictly between two of its units is stood for by their midpoint: every boundary of a
rounding is a multiple of the unit. -/
structure Exact where
  neg : Bool
  m : Nat
  e : Int
  deriving DecidableEq, Repr, Inhabited

/-- R34: fraction bits and bias. -/
def fracBits (t : Ty) : Nat := t.precision - 1

def biasOf : Ty → Nat
  | .f64 => 1023
  | .f32 | .bf16 => 127
  | .f16 | .e5m2 => 15
  | .e4m3 => 7
  | _ => 0

/-- Exponent of the smallest normal. -/
def eminOf (t : Ty) : Int := 1 - (biasOf t : Int)

/-- The all-ones exponent. -/
def expTop (t : Ty) : Nat := 2 ^ (t.width - 1 - fracBits t) - 1

/-- R34: the largest finite magnitude, significand and exponent. -/
def maxSig (t : Ty) : Nat × Int :=
  if t = Ty.e4m3 then (14, 5) else (2 ^ t.precision - 1, (expTop t : Int) - 1 - biasOf t - fracBits t)

/-- R46: the formats that DAZ and FTZ reach. -/
def flushable (t : Ty) : Bool := t == .f32 || t == .f16 || t == .bf16

/-- R34, R46: the datum of a bit pattern; `daz` reads a subnormal as a signed zero. -/
def decodeF (t : Ty) (daz : Bool) (x : Nat) : FVal :=
  let f := x % 2 ^ fracBits t
  let e := x / 2 ^ fracBits t % (expTop t + 1)
  let neg := x / 2 ^ (t.width - 1) % 2 == 1
  if e = expTop t ∧ (t ≠ Ty.e4m3 ∨ f = 7) then
    if f = 0 then .inf neg else .nan neg (f * 2 ^ (52 - fracBits t))
  else if e = 0 then
    if daz && flushable t then .fin neg 0 0 else .fin neg f (eminOf t - fracBits t)
  else .fin neg (2 ^ fracBits t + f) ((e : Int) - biasOf t - fracBits t)

/-- `m·2^e` in units of `2^q`, rounded down. -/
def scaleTo (m : Nat) (e q : Int) : Nat :=
  if q ≤ e then m * 2 ^ (e - q).toNat else m / 2 ^ (q - e).toNat

/-- Exponent of the leading bit of `m·2^e`. -/
def leadExp (m : Nat) (e : Int) : Int := (Nat.log2 m : Int) + e

/-- R34, R42, R45: the bit pattern of a datum that the format holds; E4M3 writes an infinity as its NaN. -/
def encodeF (t : Ty) (v : FVal) : Nat :=
  let sgn (n : Bool) : Nat := if n then 2 ^ (t.width - 1) else 0
  match v with
  | .nan n f =>
    if t = Ty.e4m3 then sgn n + 0x7F
    else sgn n + expTop t * 2 ^ fracBits t + f / 2 ^ (52 - fracBits t) % 2 ^ fracBits t
  | .inf n => if t = Ty.e4m3 then sgn n + 0x7F else sgn n + expTop t * 2 ^ fracBits t
  | .fin n m e =>
    if m = 0 then sgn n
    else if leadExp m e < eminOf t then sgn n + scaleTo m e (eminOf t - fracBits t)
    else
      sgn n + (leadExp m e + biasOf t).toNat * 2 ^ fracBits t +
        (scaleTo m e (leadExp m e - fracBits t) - 2 ^ fracBits t)

/-- R35: the canonical NaN. -/
def canonNaN : FVal := .nan false (2 ^ 51)

def FVal.isNaN : FVal → Bool
  | .nan _ _ => true
  | _ => false

/-- R34: signalling. -/
def FVal.isSNaN : FVal → Bool
  | .nan _ f => !f.testBit 51
  | _ => false

def FVal.isInf : FVal → Bool
  | .inf _ => true
  | _ => false

def FVal.isZero : FVal → Bool
  | .fin _ m _ => m == 0
  | _ => false

def FVal.neg : FVal → Bool
  | .nan n _ => n
  | .inf n => n
  | .fin n _ _ => n

/-- The exact real of a finite datum. -/
def FVal.exact : FVal → Exact
  | .fin n m e => ⟨n, m, e⟩
  | _ => ⟨false, 0, 0⟩

/-- R45: the first NaN, quieted; the canonical one if there is none. -/
def selectNaN (ops : List FVal) : FVal :=
  match ops.find? FVal.isNaN with
  | some (.nan n f) => .nan n (f ||| 2 ^ 51)
  | _ => canonNaN

/-- How an instruction rounds: the effective mode and, under stochastic rounding, the bits U of width w (R43). -/
structure How where
  mode : Rnd := .rne
  u : Nat := 0
  w : Nat := 32
  deriving DecidableEq, Repr, Inhabited

/-- R41, R43: whether a magnitude `n + r/2^d` (0 < r < 2^d) rounds away from zero. -/
def roundsUp (h : How) (neg : Bool) (n r d : Nat) : Bool :=
  match h.mode with
  | .dyn | .rne => 2 ^ d < 2 * r || (2 * r == 2 ^ d && n % 2 == 1)
  | .rtz => false
  | .rdn => neg
  | .rup => !neg
  | .rna => 2 ^ d ≤ 2 * r
  | .sr => if neg then !(h.u < (2 ^ d - r) * 2 ^ h.w / 2 ^ d) else h.u < r * 2 ^ h.w / 2 ^ d

/-- The real rounded to a multiple of `2^q`: the multiple, and whether it changed. -/
def roundAt (h : How) (x : Exact) (q : Int) : Nat × Bool :=
  if q ≤ x.e then (x.m * 2 ^ (x.e - q).toNat, false)
  else
    let d := (q - x.e).toNat
    let n := x.m / 2 ^ d
    let r := x.m % 2 ^ d
    if r = 0 then (n, false) else (if roundsUp h x.neg n r d then n + 1 else n, true)

/-- A real far below every boundary of the format stands for all of them. -/
def Exact.clampTo (x : Exact) (lo : Int) : Exact := if leadExp x.m x.e < lo then { x with m := 1, e := lo } else x

/-- Magnitudes compared: `a·2^ea < b·2^eb`. -/
def magLt (a : Nat) (ea : Int) (b : Nat) (eb : Int) : Bool :=
  if ea ≤ eb then a < b * 2 ^ (eb - ea).toNat else a * 2 ^ (ea - eb).toNat < b

/-- R42, R43, R46: RoundTo with the flags it raises, and FTZ. -/
def roundTo (t : Ty) (h0 : How) (ftz : Bool) (x0 : Exact) : FVal × Flags :=
  if x0.m = 0 then (.fin x0.neg 0 0, 0)
  else
    let qmin := eminOf t - fracBits t
    let x := x0.clampTo (qmin - 64)
    let mx := maxSig t
    let big := leadExp mx.1 mx.2 < leadExp x.m x.e || (leadExp x.m x.e == leadExp mx.1 mx.2 && magLt mx.1 mx.2 x.m x.e)
    let h := if h0.mode = Rnd.sr ∧ big then { h0 with mode := .rne } else h0
    let lead := leadExp x.m x.e
    let q := max (lead - fracBits t) qmin
    let (n, inexact) := roundAt h x q
    if leadExp mx.1 mx.2 < leadExp n q || (leadExp n q == leadExp mx.1 mx.2 && magLt mx.1 mx.2 n q) then
      let toMax := match h.mode with
        | .rtz => true
        | .rdn => !x.neg
        | .rup => x.neg
        | _ => false
      (if toMax then .fin x.neg mx.1 mx.2 else .inf x.neg, flOF ||| flNX)
    else
      let tiny := lead < eminOf t && leadExp (roundAt h x (lead - fracBits t)).1 (lead - fracBits t) < eminOf t
      if ftz && flushable t && tiny then (.fin x.neg 0 0, flUF ||| flNX)
      else (.fin x.neg n q, (if inexact then flNX else 0) ||| (if tiny && inexact then flUF else 0))

/-- R46: FTZ on a result that is already a datum of the format. -/
def flushF (t : Ty) (ftz : Bool) (r : FVal × Flags) : FVal × Flags :=
  match r.1 with
  | .fin n m e =>
    if ftz && flushable t && m != 0 && leadExp m e < eminOf t then (.fin n 0 0, r.2 ||| flUF ||| flNX) else r
  | _ => r

/-- R44: saturation of a floating-point result. -/
def saturateF (t : Ty) (sat : Sat) (v : FVal) : FVal :=
  match sat with
  | .none => v
  | .clamp => match v with
    | .inf n => .fin n (maxSig t).1 (maxSig t).2
    | _ => v
  | .unit => match v with
    | .nan _ _ => .fin false 0 0
    | .inf n => if n then .fin false 0 0 else .fin false 1 0
    | .fin n m e => if n then .fin false 0 0 else if magLt 1 0 m e then .fin false 1 0 else v

/-- The exact result of an operation before rounding. -/
inductive FRes where
  /-- An invalid operation on operands that are no NaN (R45), or 0 · ∞ beside a NaN (R168). -/
  | invalid
  | value (v : FVal) (fl : Flags)
  | exact (x : Exact)
  deriving DecidableEq, Repr

/-- R45, R168: NaN operands, the invalid cases, one rounding. -/
def deliver (t : Ty) (h : How) (ftz : Bool) (ops : List FVal) (r : FRes) : FVal × Flags :=
  let inv := match r with | .invalid => flNV | _ => 0
  if ops.any FVal.isNaN then (selectNaN ops, (if ops.any FVal.isSNaN then flNV else 0) ||| inv)
  else
    match r with
    | .invalid => (canonNaN, flNV)
    | .value v fl => (v, fl)
    | .exact x => roundTo t h ftz x

/-- The signed integer of a real in units of `2^q`, `q` not above its exponent. -/
def Exact.units (x : Exact) (q : Int) : Int :=
  let n : Int := (x.m * 2 ^ (x.e - q).toNat : Nat)
  if x.neg then -n else n

/-- A real from a signed integer; `zneg` is the sign of a zero. -/
def exactOf (v : Int) (e : Int) (zneg : Bool) : Exact := ⟨if v = 0 then zneg else v < 0, v.natAbs, e⟩

/-- R52: exact sum by IEEE 754-2019; a zero keeps the sign that both addends share, else it is +0, or −0 under RDN. (DEDUCED, log 18.) -/
def sumEx (mode : Rnd) (a b : Exact) : Exact :=
  let q := min a.e b.e
  exactOf (a.units q + b.units q) q (if a.m = 0 ∧ b.m = 0 ∧ a.neg = b.neg then a.neg else mode == .rdn)

def mulEx (a b : Exact) : Exact := ⟨a.neg != b.neg, a.m * b.m, a.e + b.e⟩

/-- A quotient to at least 117 bits; a remainder makes it a midpoint. -/
def divEx (a b : Exact) : Exact :=
  let k := 117 + Nat.log2 b.m
  let n := a.m * 2 ^ k
  if n % b.m = 0 then ⟨a.neg != b.neg, n / b.m, a.e - b.e - k⟩
  else ⟨a.neg != b.neg, 2 * (n / b.m) + 1, a.e - b.e - k - 1⟩

/-- Integer square root, one bit at a time. -/
def isqrtFrom : Nat → Nat → Nat → Nat
  | 0, n, r => if (r + 1) * (r + 1) ≤ n then r + 1 else r
  | i + 1, n, r =>
    if (r + 2 ^ (i + 1)) * (r + 2 ^ (i + 1)) ≤ n then isqrtFrom i n (r + 2 ^ (i + 1)) else isqrtFrom i n r

def isqrt (n : Nat) : Nat := isqrtFrom (Nat.log2 n / 2 + 1) n 0

/-- The same real with an even exponent. -/
def Exact.even (x : Exact) : Exact := if x.e % 2 = 0 then x else { x with m := 2 * x.m, e := x.e - 1 }

def sqrtEx (x : Exact) : Exact :=
  let y := x.even
  let n := y.m * 2 ^ 240
  let r := isqrt n
  if r * r = n then ⟨false, r, y.e / 2 - 120⟩ else ⟨false, 2 * r + 1, y.e / 2 - 121⟩

def rsqrtEx (x : Exact) : Exact :=
  let y := x.even
  let k := 120 + Nat.log2 y.m
  let r := isqrt (2 ^ (2 * k) / y.m)
  if r * r * y.m = 2 ^ (2 * k) then ⟨false, r, -(y.e / 2) - k⟩ else ⟨false, 2 * r + 1, -(y.e / 2) - k - 1⟩

def FVal.negate : FVal → FVal
  | .nan n f => .nan n f
  | .inf n => .inf !n
  | .fin n m e => .fin (!n) m e

/-- R168: the operations. -/
def resAdd (mode : Rnd) (a b : FVal) : FRes :=
  match a, b with
  | .inf x, .inf y => if x = y then .value a 0 else .invalid
  | .inf _, _ => .value a 0
  | _, .inf _ => .value b 0
  | _, _ => .exact (sumEx mode a.exact b.exact)

/-- R162, R168: the sign of an exact zero sum, which is the form's own. -/
def FRes.zeroSum (neg : Bool) : FRes → FRes
  | .exact x => .exact (if x.m = 0 then { x with neg } else x)
  | r => r

/-- R168: fadd and fsub: an exact zero sum is +0, or −0 under RDN, unless both addends are −0. -/
def resSum (mode : Rnd) (a b : FVal) : FRes :=
  (resAdd mode a b).zeroSum (mode == .rdn || (a.isZero && a.neg && b.isZero && b.neg))

def resMul (a b : FVal) : FRes :=
  if (a.isInf && b.isZero) || (a.isZero && b.isInf) then .invalid
  else if a.isInf || b.isInf then .value (.inf (a.neg != b.neg)) 0
  else .exact (mulEx a.exact b.exact)

def resFma (mode : Rnd) (a b c : FVal) : FRes :=
  match resMul a b with
  | .invalid => .invalid
  | .value p _ => if a.isNaN || b.isNaN then .value p 0 else resAdd mode p c
  | .exact p => if c.isInf then .value c 0 else .exact (sumEx mode p c.exact)

def resDiv (a b : FVal) : FRes :=
  let s := a.neg != b.neg
  if (a.isZero && b.isZero) || (a.isInf && b.isInf) then .invalid
  else if a.isInf then .value (.inf s) 0
  else if b.isInf || a.isZero then .value (.fin s 0 0) 0
  else if b.isZero then .value (.inf s) flDZ
  else .exact (divEx a.exact b.exact)

def resSqrt (a : FVal) : FRes :=
  if a.isZero then .value a 0
  else if a.neg && !a.isNaN then .invalid
  else if a.isInf then .value a 0
  else .exact (sqrtEx a.exact)

def resRcp (a : FVal) : FRes :=
  if a.isZero then .value (.inf a.neg) flDZ
  else if a.isInf then .value (.fin a.neg 0 0) 0
  else .exact (divEx ⟨false, 1, 0⟩ a.exact)

def resRsq (a : FVal) : FRes :=
  if a.isZero then .value (.inf a.neg) flDZ
  else if a.neg && !a.isNaN then .invalid
  else if a.isInf then .value (.fin false 0 0) 0
  else .exact (rsqrtEx a.exact)

def resLdexp (a : FVal) (n : Int) : FRes :=
  if a.isZero || a.isInf then .value a 0
  else .exact { a.exact with e := a.exact.e + n }

/-- R168: frint. -/
def resRint (h : How) (a : FVal) : FRes :=
  if a.isInf then .value a 0
  else .value (.fin a.neg (roundAt h a.exact 0).1 0) (if (roundAt h a.exact 0).2 then flNX else 0)

/-- Numeric order of two data that are no NaN; −0 equals +0. -/
def FVal.lt (a b : FVal) : Bool :=
  match a, b with
  | .inf x, .inf y => x && !y
  | .inf x, _ => x
  | _, .inf y => !y
  | _, _ => let q := min a.exact.e b.exact.e; a.exact.units q < b.exact.units q

/-- R172, R157: a float comparison with its flags. -/
def cmpF (cc : FCond) (a b : FVal) : Bool × Flags :=
  let un := a.isNaN || b.isNaN
  (match cc with
    | .eq => !un && !a.lt b && !b.lt a
    | .ne => un || a.lt b || b.lt a
    | .lt => !un && a.lt b
    | .le => !un && !b.lt a
    | .gt => !un && b.lt a
    | .ge => !un && !a.lt b
    | .un => un
    | .or => !un,
   if a.isSNaN || b.isSNaN then flNV else 0)

/-- R169: minimumNumber and maximumNumber. -/
def minMaxF (isMax : Bool) (a b : FVal) : FVal × Flags :=
  let fl := if a.isSNaN || b.isSNaN then flNV else 0
  let below := a.lt b || (!b.lt a && a.neg && !b.neg)
  (if a.isNaN && b.isNaN then selectNaN [a, b]
   else if a.isNaN then b
   else if b.isNaN then a
   else if below != isMax then a else b, fl)

/-- R170: the class mask of a bit pattern. -/
def classF (t : Ty) (x : Nat) : Nat :=
  match decodeF t false x with
  | .nan _ f => if f.testBit 51 then 2 else 1
  | .inf n => if n then 4 else 512
  | .fin n m e =>
    if m = 0 then (if n then 32 else 64)
    else if leadExp m e < eminOf t then (if n then 16 else 128)
    else if n then 8 else 256

/-- R171: one lane of fdot2. -/
def resDot2 (mode : Rnd) (a0 a1 b0 b1 : FVal) : FRes :=
  match resMul a0 b0, resMul a1 b1 with
  | .exact x, .exact y => .exact (sumEx mode x y)
  | .value p _, .value q _ =>
    if a0.isNaN || b0.isNaN || a1.isNaN || b1.isNaN then .value p 0 else resAdd mode p q
  | .invalid, _ => .invalid
  | _, .invalid => .invalid
  | .value p _, .exact _ => .value p 0
  | .exact _, .value q _ => .value q 0

/-- The range of an integer type. -/
def tyMin (t : Ty) : Int := if t.isS then -(2 ^ (t.width - 1) : Int) else 0

def tyMax (t : Ty) : Int := if t.isS then 2 ^ (t.width - 1) - 1 else 2 ^ t.width - 1

/-- The value of the low bits of a word, read as its type reads them (R153). -/
def intOf (t : Ty) (x : Nat) : Int :=
  let n : Int := ((x % 2 ^ t.width : Nat) : Int)
  if t.isS && x.testBit (t.width - 1) then n - 2 ^ t.width else n

/-- The low w bits of an integer. -/
def lowBits (w : Nat) (v : Int) : Nat := (v % (2 ^ w : Int)).toNat

/-- R36: wrap or clamp to the type. -/
def narrow (t : Ty) (sat : Sat) (v : Int) : Nat :=
  lowBits t.width (if sat = Sat.none then v else max (tyMin t) (min v (tyMax t)))

/-- R47: one conversion, from bit pattern to bit pattern. -/
def convert (dst src : Ty) (h : How) (daz ftz : Bool) (sat : Sat) (x : Nat) : Nat × Flags :=
  if src.isF then
    let v := decodeF src daz x
    if dst.isF then
      let r := match v with
        | .nan _ _ => (selectNaN [v], if v.isSNaN then flNV else 0)
        | .inf _ => (v, 0)
        | .fin n m e => roundTo dst h ftz ⟨n, m, e⟩
      (encodeF dst (saturateF dst sat r.1), r.2)
    else
      match v with
      | .nan _ _ => (0, flNV)
      | .inf n => (lowBits dst.width (if n then tyMin dst else tyMax dst), flNV)
      | .fin n m e =>
        let r := roundAt h ⟨n, m, e⟩ 0
        let i : Int := if n then -(r.1 : Int) else r.1
        if i < tyMin dst then (lowBits dst.width (tyMin dst), flNV)
        else if tyMax dst < i then (lowBits dst.width (tyMax dst), flNV)
        else (lowBits dst.width i, if r.2 then flNX else 0)
  else if dst.isF then
    let i := intOf src x
    let r := roundTo dst h ftz ⟨i < 0, i.natAbs, 0⟩
    (encodeF dst (saturateF dst sat r.1), r.2)
  else (narrow dst sat (intOf src x), 0)

/-- R97: a float immediate in the type of the operation; it is exact (WellFormed), and a NaN keeps its state. -/
def immF (t : Ty) (v : W32) : Nat := encodeF t (decodeF .f32 false v.toNat)

/-- R43: a step of the stochastic state. -/
def stepZ (z : W32) : W32 :=
  let x : W32 := if z = 0 then 1 else z
  if x.getLsbD 0 then (x >>> 1) ^^^ 0x80200003 else x >>> 1

/-- R43: the word of lane L. -/
def laneWord (z : W32) (l : Nat) : W32 :=
  let h0 : W32 := z ^^^ (BitVec.ofNat 32 l * 0x9E3779B9)
  let h1 := (h0 ^^^ (h0 >>> 16)) * 0x85EBCA6B
  let h2 := (h1 ^^^ (h1 >>> 13)) * 0xC2B2AE35
  h2 ^^^ (h2 >>> 16)

/-- R43: the bits U of element j of e. -/
def howOf (mode : Rnd) (z : W32) (l e j : Nat) : How :=
  if mode = Rnd.sr then ⟨mode, bits (laneWord z l) (32 / e * j) (32 / e), 32 / e⟩ else { mode }

/-- R37: scale `log₂ P` and largest magnitude of a DX format. -/
def dxScale (dx : Ty) : Nat := if dx = Ty.dx8 then 5 else 1

def dxMax (dx : Ty) : Nat := if dx = Ty.dx8 then 63 else 3

/-- R37: a DX element under its block's exponents. -/
def decodeDx (dx : Ty) (ehi elo code : Nat) : FVal :=
  let p := dxScale dx
  if ehi = 255 ∨ elo = 255 then canonNaN
  else .fin (code.testBit (p + 1)) (code % 2 ^ (p + 1)) ((if code.testBit (p + 2) then ehi else elo : Nat) - 127 - p : Int)

/-- R39: Quant. -/
def quantDx (dx : Ty) (h : How) (x : Exact) (ex : Nat) : Nat :=
  min (roundAt h x ((ex : Int) - 127 - dxScale dx)).1 (dxMax dx)

/-- The distance of a magnitude from a code, in units of `2^q`. -/
def dxErr (x : Exact) (m : Nat) (u q : Int) : Nat :=
  ((x.m * 2 ^ (x.e - q).toNat : Nat) - (m * 2 ^ (u - q).toNat : Nat) : Int).natAbs

/-- R39: one block of 32 values quantised: the exponents, the codes, and the flags that each element raises. -/
def quantBlock (dx : Ty) (hows : Nat → How) (xs : List FVal) : Nat × Nat × List Nat × Flags :=
  if xs.any fun v => v.isNaN || v.isInf then (255, 255, xs.map fun _ => 0, flNV)
  else
    let ys := xs.map FVal.exact
    let leads := (ys.filter fun y => y.m != 0).map fun y => leadExp y.m y.e
    match leads with
    | [] => (0, 0, ys.map fun y => 2 ^ (dxScale dx + 2) + (if y.neg then 2 ^ (dxScale dx + 1) else 0), 0)
    | l0 :: ls =>
      let e := ls.foldl max l0 + 127
      let ehi : Nat := if 254 < e then 254 else if e < 0 then 0 else e.toNat
      let dxo : Flags := if 254 < e ∨ e < 0 then flDXO else 0
      let low := leads.filter fun l => l < (ehi : Int) - 128
      let elo : Nat := match low with
        | [] => ehi
        | a :: as => (as.foldl max a + 127).toNat
      let codes := (List.range ys.length).map fun i =>
        let y := ys.getD i default
        let mh := quantDx dx (hows i) y ehi
        let ml := quantDx dx (hows i) y elo
        let uh := (ehi : Int) - 127 - dxScale dx
        let ul := (elo : Int) - 127 - dxScale dx
        let q := min y.e (min uh ul)
        let eh := dxErr y mh uh q
        let el := dxErr y ml ul q
        let sign := if y.neg then 2 ^ (dxScale dx + 1) else 0
        if el < eh then (sign + ml, el) else (2 ^ (dxScale dx + 2) + sign + mh, eh)
      (ehi, elo, codes.map (·.1), dxo ||| (if codes.any fun c => c.2 != 0 then flNX else 0))

end Sys2Proof.Machine
end

