-- ==== Sys2Proof/Machine/Flags.lean ====
section
/-!
DEFINITION. The mode register, the sticky flags and the arithmetic trap (R41, R43, R48 to R51, R67 to R69).
-/
namespace Sys2Proof.Machine

/-- R67: the rounding mode that a mode register holds. -/
def modeRnd (mode : W32) : Rnd :=
  match bits mode 0 3 with
  | 2 => .rtz
  | 3 => .rdn
  | 4 => .rup
  | 5 => .rna
  | 6 => .sr
  | _ => .rne

/-- R41: the effective mode. -/
def effMode (mode : W32) (r : Rnd) : Rnd := if r = Rnd.dyn then modeRnd mode else r

/-- R67: flush bits and trap enables. -/
def modeFtz (mode : W32) : Bool := mode.getLsbD 3

def modeDaz (mode : W32) : Bool := mode.getLsbD 4

def modeTraps (mode : W32) : Flags := ((mode.extractLsb' 5 5 : BitVec 5)).setWidth 7

/-- R68: a value that %mode accepts; `seq` lets KSG be set. -/
def modeOk (v : W64) : Bool := 1 ≤ bits v 0 3 && bits v 0 3 ≤ 6 && bits v 11 21 == 0 && !v.getLsbD 10

/-- The effective mode of the executing fragment. -/
def Here.rnd (h : Here) (r : Rnd) : Rnd := effMode h.w.mode r

/-- R43: the state Z after an instruction that rounds in `mode`. -/
def nextZ (mode : Rnd) (z : W32) : W32 := if mode = Rnd.sr then stepZ z else z

/-- The flags that a set of lanes raises together (R50). -/
def orFlags (l : List Flags) : Flags := l.foldl (· ||| ·) 0

/-- R48, R43: flags raised and Z stepped. -/
def Wave.raised (w : Wave) (side : Bool) (fl : Flags) (z : W32) : Wave :=
  let w1 := { w with flags := w.flags ||| fl }
  match w1.frag side with
  | some f => w1.setFrag side (some { f with z })
  | none => w1

/-- R49, R51: an instruction whose lanes raise flags: it adjourns with ARITH in state `s`, or it raises them, steps Z and
takes its effect in state `s1`. (DEDUCED, log 25.) -/
def Here.arithTo (h : Here) (s s1 : State) (m : Lanes) (fl : Nat → Flags) (z : W32) (g : Wave → Wave) : Except Abort State :=
  let en := modeTraps h.w.mode
  let all := orFlags ((lanesOf m).map fl)
  if all &&& en = 0 then h.ok s1 fun w => g (w.raised h.side all z)
  else
    .error (.trap { h.report cARITH (lanesMask ((lanesOf m).filter fun l => fl l &&& en != 0)) with
                    detail := (all &&& 31).setWidth 64 } s)

/-- The same where the effect is on the wave alone. -/
def Here.arith (h : Here) (s : State) (m : Lanes) (fl : Nat → Flags) (z : W32) (g : Wave → Wave) : Except Abort State :=
  h.arithTo s s m fl z g

/-- R160: the same for a scalar instruction: the faulting-lane mask is empty. -/
def Here.arithS (h : Here) (s : State) (fl : Flags) (z : W32) (g : Wave → Wave) : Except Abort State :=
  if fl &&& modeTraps h.w.mode = 0 then h.ok s fun w => g (w.raised h.side fl z)
  else .error (.trap { h.report cARITH with detail := (fl &&& 31).setWidth 64 } s)

end Sys2Proof.Machine
end

