-- ==== Sys2Proof/Machine/Integer.lean ====
section
/-!
DEFINITION. The exact results of the integer operations that classes 0x1, 0x2 and 0x3 share, on the low w bits of their
operands (R153, R154, R156, R166).
-/
namespace Sys2Proof

/-- The float condition of an integer one. -/
def ICond.float : ICond → FCond
  | .eq => .eq | .ne => .ne | .lt => .lt | .le => .le | .gt => .gt | .ge => .ge

end Sys2Proof

namespace Sys2Proof.Machine

def intAdd (t : Ty) (a b : Nat) : Int := intOf t a + intOf t b

def intSub (t : Ty) (a b : Nat) : Int := intOf t a - intOf t b

def intMul (t : Ty) (a b : Nat) : Int := intOf t a * intOf t b

/-- Floor of the product over `2^w`. -/
def intMulh (t : Ty) (a b : Nat) : Int := intOf t a * intOf t b / 2 ^ t.width

def intMad (t : Ty) (a b c : Nat) : Int := intOf t a * intOf t b + intOf t c

/-- R154: division by zero has a stated result; `TypeMin / −1` is exact here and narrowed by the saturation. -/
def intDiv (t : Ty) (a b : Nat) : Int :=
  if intOf t b = 0 then (if intOf t a < 0 then tyMin t else tyMax t) else (intOf t a).tdiv (intOf t b)

def intRem (t : Ty) (a b : Nat) : Int :=
  if intOf t b = 0 then intOf t a else (intOf t a).tmod (intOf t b)

def intMin (t : Ty) (a b : Nat) : Int := min (intOf t a) (intOf t b)

def intMax (t : Ty) (a b : Nat) : Int := max (intOf t a) (intOf t b)

def intAnd (t : Ty) (a b : Nat) : Int := ((a % 2 ^ t.width &&& b % 2 ^ t.width : Nat) : Int)

def intOr (t : Ty) (a b : Nat) : Int := ((a % 2 ^ t.width ||| b % 2 ^ t.width : Nat) : Int)

def intXor (t : Ty) (a b : Nat) : Int := ((a % 2 ^ t.width ^^^ b % 2 ^ t.width : Nat) : Int)

def intShl (t : Ty) (a b : Nat) : Int :=
  let n := b % 2 ^ t.width
  if t.width ≤ n then 0 else ((a % 2 ^ t.width * 2 ^ n : Nat) : Int)

def intShr (t : Ty) (a b : Nat) : Int :=
  let n := b % 2 ^ t.width
  if t.width ≤ n then 0 else ((a % 2 ^ t.width / 2 ^ n : Nat) : Int)

/-- The w bits read as signed, whatever the type. -/
def asSigned (w a : Nat) : Int :=
  let x : Int := ((a % 2 ^ w : Nat) : Int)
  if a.testBit (w - 1) then x - 2 ^ w else x

def intSar (t : Ty) (a b : Nat) : Int := asSigned t.width a / 2 ^ min (b % 2 ^ t.width) t.width

/-- R156: leading zeros of the low w bits. -/
def clzOf (w a : Nat) : Nat := if a % 2 ^ w = 0 then w else w - 1 - Nat.log2 (a % 2 ^ w)

/-- R156: set bits of the low w bits. -/
def popcOf (w a : Nat) : Nat := ((List.range w).filter fun i => a.testBit i).length

/-- R156: the w bits in reverse order. -/
def brevOf (w a : Nat) : Nat := (List.range w).foldl (fun n i => 2 * n + (if a.testBit i then 1 else 0)) 0

/-- Field `[pos+len-1 : pos]`, cut at bit w−1; a signed one is sign-extended (R156, R166). -/
def fieldOf (w : Nat) (signed : Bool) (a pos len : Nat) : Int :=
  if w ≤ pos then 0
  else
    let n := min len (w - pos)
    let x := a % 2 ^ w / 2 ^ pos % 2 ^ n
    if signed && 0 < n && x.testBit (n - 1) then (x : Int) - 2 ^ n else x

/-- The field replaced by the low bits of `b`, cut at bit w−1 (R156, R166). -/
def fieldSet (w a b pos len : Nat) : Nat :=
  if w ≤ pos then a % 2 ^ w
  else
    let n := min len (w - pos)
    let lo := a % 2 ^ pos
    let hi := a % 2 ^ w / 2 ^ (pos + n)
    lo + (b % 2 ^ n) * 2 ^ pos + hi * 2 ^ (pos + n)

/-- Integer comparison (R157, R189); a raw type has only equality. -/
def cmpI (cc : ICond) (t : Ty) (a b : Nat) : Bool :=
  match cc with
  | .eq => intOf t a == intOf t b
  | .ne => intOf t a != intOf t b
  | .lt => intOf t a < intOf t b
  | .le => intOf t a ≤ intOf t b
  | .gt => intOf t b < intOf t a
  | .ge => intOf t b ≤ intOf t a

end Sys2Proof.Machine
end

