-- ==== Sys2Proof/Machine/Operands.lean ====
section
/-!
DEFINITION. Operand forms: registers, scalars and immediates as the classes read them (R33, R97, R103, R153, R160, R165), and
the registers that a form names.
-/
namespace Sys2Proof

/-- The registers of an element's block: one, or a pair. -/
def regsOf (t : Ty) (r : Nat) : List Nat := if t.width = 64 then [r, r + 1] else [r]

/-- The registers that a vector B operand names. -/
def SrcV.vregs (t : Ty) : SrcV → List Nat
  | .vec r => regsOf t r.toNat
  | _ => []

def SrcV.sregs : SrcV → List Nat
  | .scal r => [r.toNat]
  | _ => []

def SrcS.sregs : SrcS → List Nat
  | .reg r => [r.toNat]
  | .imm _ => []

/-- The predicate registers that a guard reads. -/
def Guard.pregs (g : Guard) : List Nat := [g.p.toNat]

end Sys2Proof

namespace Sys2Proof.Machine

/-- R103: an integer immediate, extended by its type. -/
def immInt (t : Ty) (v : W32) : Nat := if t.isN then v.toNat else (v.signExtend 64).toNat

/-- R153: the B operand of class 0x1, low w bits. -/
def Here.srcS (h : Here) (t : Ty) : SrcS → Nat
  | .reg r => (h.s r).toNat % 2 ^ t.width
  | .imm v => immInt t v % 2 ^ t.width

/-- R165: the integer B operand of sub-element j of lane L. -/
def Here.srcV (h : Here) (t : Ty) (l j : Nat) : SrcV → Nat
  | .vec r => h.w.elem t.width r.toNat l j
  | .scal r => (h.s r).toNat % 2 ^ t.width
  | .imm v => immInt t v % 2 ^ t.width

/-- R165: the floating-point B operand. -/
def Here.srcF (h : Here) (t : Ty) (l j : Nat) : SrcV → Nat
  | .vec r => h.w.elem t.width r.toNat l j
  | .scal r => (h.s r).toNat % 2 ^ t.width
  | .imm v => immF t v

/-- R160: a scalar floating-point operand. -/
def Here.fltS (h : Here) (t : Ty) (r : BitVec 6) : FVal :=
  decodeF t (modeDaz h.w.mode) ((h.s r).toNat % 2 ^ t.width)

/-- R161: an integer result fills the register by its type; any other is zero-extended. -/
def fillS (t : Ty) (x : Nat) : W64 := if t.isS then BitVec.ofInt 64 (intOf t x) else BitVec.ofNat 64 x

end Sys2Proof.Machine
end

