-- ==== Sys2Proof/Machine/LoadStore.lean ====
section
/-!
DEFINITION. Class 0x7: loads, stores, prefetch, L1 invalidation and windows (R192 to R208).
-/
namespace Sys2Proof.Machine

/-- R192: the offset of a lane. -/
def Here.offset (h : Here) (am : AMode) (b : BitVec 8) (l : Nat) : W64 :=
  match am with
  | .base => 0
  | .s32 => sext64 (h.w.readV b.toNat l)
  | .n32 => (h.w.readV b.toNat l).setWidth 64
  | .b64 => h.w.readV64 b.toNat l

/-- R192: the address of a lane, modulo 2^64. -/
def Here.addr (h : Here) (am : AMode) (a : BitVec 6) (b : BitVec 8) (imm : W32) (l : Nat) : W64 :=
  h.s a + sext64 imm + h.offset am b l

/-- The registers that an address mode reads. -/
def amRegs (am : AMode) (b : BitVec 8) : List Nat :=
  match am with
  | .base => []
  | .s32 | .n32 => [b.toNat]
  | .b64 => [b.toNat, b.toNat + 1]

/-- R193: bytes that a lane accesses. -/
def laneBytes (t : Ty) (rf : RForm) : Nat := if rf = RForm.packed ∧ t.width < 32 then 4 else t.width / 8

/-- R193: the data lies in a pair. -/
def pairData (t : Ty) (rf : RForm) : Bool := rf == .pair || (rf == .packed && t.width == 64)

def dataRegs (t : Ty) (rf : RForm) (r : Nat) : List Nat := if pairData t rf then [r, r + 1] else [r]

/-- R199: the type that a widened element has in its register. -/
def wideTy (t : Ty) (rf : RForm) : Ty :=
  if t.isF then (if rf = RForm.pair then .f64 else .f32)
  else if t.isS then (if rf = RForm.pair then .s64 else .s32)
  else (if rf = RForm.pair then .n64 else .n32)

/-- R199: what a load puts into the register side for the bytes it read; widening raises nothing. -/
def loadValue (t : Ty) (rf : RForm) (x : Nat) : Nat :=
  if rf = RForm.packed ∨ wideTy t rf = t then x
  else if t.isF then (convert (wideTy t rf) t {} false false .none x).1
  else narrow (wideTy t rf) .none (intOf t x)

/-- R200: what a store takes from the register side, with its flags. FTZ reaches only the 16-bit formats. -/
def storeValue (t : Ty) (rf : RForm) (how : How) (daz ftz : Bool) (sat : Sat) (x : Nat) : Nat × Flags :=
  if rf = RForm.packed ∨ t.isB ∨ wideTy t rf = t then (x, 0)
  else convert t (wideTy t rf) how daz (ftz && t.width == 16) sat x

/-- R193: the register side of lane L. -/
def Here.laneData (h : Here) (t : Ty) (rf : RForm) (r : BitVec 8) (l : Nat) : Nat :=
  if pairData t rf then (h.w.readV64 r.toNat l).toNat else (h.w.readV r.toNat l).toNat

def Wave.writeData (w : Wave) (t : Ty) (rf : RForm) (r : BitVec 8) (m : Lanes) (f : Nat → Nat) : Wave :=
  if pairData t rf then w.writeV64 r.toNat m fun l => BitVec.ofNat 64 (f l)
  else w.writeV r.toNat m fun l => BitVec.ofNat 32 (f l)

/-- The bytes that each lane loads, lane after lane, with the pending events that it sees. -/
def State.loadLanes (core : Nat) (alloc : Bool) (gs : List Glimpse) : State → List (Nat × List Piece) → State × List (Nat × Nat)
  | s, [] => (s, [])
  | s, (l, ps) :: rest =>
    let r := s.loadPieces core alloc ps
    let q := State.loadLanes core alloc gs r.1 rest
    (q.1, (l, leNat (seenPieces gs ps r.2)) :: q.2)

/-- R230: the lines that fully coalesced beats of a load read. -/
def wholeLines (ps : List (Nat × List Piece)) : List Nat := (List.range 3).filterMap (fullBeat ps)

/-- What a load sees of the pending store events. -/
def Here.glimpses (h : Here) (s : State) (ps : List (Nat × List Piece)) : List Glimpse :=
  s.glimpses h.w.core h.f.id (ps.flatMap (·.2)) (wholeLines ps)

/-- R204, R232: what a load leaves beside its lines: what it saw, and the addresses under which its L1 holds lines. -/
def Here.loadDone (h : Here) (s0 s : State) (ps : List (Nat × List Piece)) : State :=
  (s.sawPosts h.f.id (ps.flatMap (·.2)) (h.glimpses s0 ps)).tagL1 h.w.core (s0.ctxOf h.w) (ps.flatMap (·.2))

/-- The value that a lane loaded. -/
def laneOf (vs : List (Nat × Nat)) (l : Nat) : Nat := ((vs.find? fun x => x.1 == l).map (·.2)).getD 0

/-- R195, R196, R199: a global load of some lanes: checks, poison, data. -/
def Here.loadGlobal (h : Here) (s : State) (ls : List Nat) (addr : Nat → W64) (n : Nat) (hnt : Hint) :
    Except Abort (State × List (Nat × Nat)) := do
  let la := s.launchOf h.w
  let r := checkLanes (fun s l => s.checkGlobal h.w.core la .read (addr l).toNat n) s ls
  let ps ← h.allPass r.1 addr r.2
  let bad := ps.filter fun x => x.2.any (r.1.spoiled h.w.core)
  if bad != [] then
    .error (h.consumes r.1 ((bad.flatMap (·.2)).filter (r.1.spoiled h.w.core)) (h.lanesReport cMEMECC (lanesMask (bad.map (·.1))) addr))
  else
    let q := State.loadLanes h.w.core (hnt != .stream) (h.glimpses r.1 ps) r.1 ps
    .ok (h.loadDone r.1 q.1 ps, q.2)

/-- R59, R199: the loaded values reach the register. -/
def Here.loaded (h : Here) (s : State) (t : Ty) (rf : RForm) (d : BitVec 8) (m : Lanes) (vs : List (Nat × Nat)) :
    Except Abort State :=
  h.ok s fun w => w.writeData t rf d m fun l => loadValue t rf (laneOf vs l)

/-- LDG (R198, R199). -/
def execLdg (o : MemOp) (s : State) : Host.Outcome State Fault Refusal :=
  onWave o.g { vr := amRegs o.am o.b, vw := dataRegs o.ty o.rf o.v.toNat, sr := [o.a.toNat], pr := o.g.pregs } s fun h => do
    let m := h.part o.g
    let (s1, vs) ← h.loadGlobal s (lanesOf m) (h.addr o.am o.a o.b o.imm) (laneBytes o.ty o.rf) o.hnt
    h.loaded s1 o.ty o.rf o.v m vs

/-- LDGS (R201): the offset of lane L is L times a scalar. -/
def execLdgs (g : Guard) (ty : Ty) (hnt : Hint) (rf : RForm) (d : BitVec 8) (a b : BitVec 6) (imm : W32) (s : State) :
    Host.Outcome State Fault Refusal :=
  onWave g { vw := dataRegs ty rf d.toNat, sr := [a.toNat, b.toNat], pr := g.pregs } s fun h => do
    let m := h.part g
    let (s1, vs) ← h.loadGlobal s (lanesOf m) (fun l => h.s a + sext64 imm + BitVec.ofNat 64 l * h.s b)
      (laneBytes ty rf) hnt
    h.loaded s1 ty rf d m vs

/-- The address that a lane of a store writes to, and how many bytes. -/
def Here.target (h : Here) (o : MemOp) (l : Nat) : W64 := h.addr o.am o.a o.b o.imm l

/-- R200: the data of a store with its flags. -/
def Here.storeData (h : Here) (o : MemOp) (z : W32) (l : Nat) : Nat × Flags :=
  storeValue o.ty o.rf (howOf (h.rnd o.rnd) z l 1 0) (modeDaz h.w.mode) (modeFtz h.w.mode) o.sat (h.laneData o.ty o.rf o.v l)

/-- R43, R200: the state Z after a store: only a narrowing float store can round. -/
def Here.storeZ (h : Here) (o : MemOp) : W32 :=
  if o.ty.isF && o.rf != .packed && wideTy o.ty o.rf != o.ty then nextZ (h.rnd o.rnd) h.f.z else h.f.z

/-- STG (R198, R200): the events of its lanes issue in increasing order (R197). -/
def execStg (o : MemOp) (s : State) : Host.Outcome State Fault Refusal :=
  onWave o.g { vr := amRegs o.am o.b ++ dataRegs o.ty o.rf o.v.toNat, sr := [o.a.toNat], pr := o.g.pregs } s fun h => do
    let m := h.part o.g
    let n := laneBytes o.ty o.rf
    let la := s.launchOf h.w
    let r := checkLanes (fun s l => s.checkGlobal h.w.core la .write (h.target o l).toNat n) s (lanesOf m)
    let ps ← h.allPass r.1 (h.target o) r.2
    let z := h.storeZ o
    let s1 := h.post r.1 (storePosts ps fun l => leBytes n (h.storeData o z l).1)
    h.arithTo r.1 s1 m (fun l => (h.storeData o z l).2) z id

/-- R192, R195, R207: the checks of some lanes of the cluster space, then the fills they need. -/
def Here.localLanes (h : Here) (s : State) (ls : List Nat) (addr : Nat → W64) (n : Nat) (write full : Bool) :
    Except Abort State := do
  let c := s.crew h.w.crew
  let r := checkLanes (fun s l => (s, s.checkLocal c write (addr l).toNat n)) s ls
  let _ ← h.allPass s addr r.2
  let want := (ls.flatMap fun l => c.fillsFor (s.launch c.launch) (write && full) (addr l).toNat n).dedup
  h.needFills s want

/-- R258: lanes whose words cannot be read adjourn the wave. -/
def Here.localEcc (h : Here) (s : State) (ls : List Nat) (addr : Nat → W64) (n : Nat) : Except Abort Unit :=
  let clus := (s.crew h.w.crew).clus
  let bad := ls.filter fun l => (wordsOf (addr l).toNat n).any (s.badWord clus)
  if bad = [] then .ok () else .error (.trap (h.lanesReport cMEMECC (lanesMask bad) addr) s)

/-- LDL (R198, R199, R207). -/
def execLdl (o : MemOp) (s : State) : Host.Outcome State Fault Refusal :=
  onWave o.g { vr := amRegs o.am o.b, vw := dataRegs o.ty o.rf o.v.toNat, sr := [o.a.toNat], pr := o.g.pregs } s fun h => do
    let m := h.part o.g
    let n := laneBytes o.ty o.rf
    let s1 ← h.localLanes s (lanesOf m) (h.target o) n false false
    h.localEcc s1 (lanesOf m) (h.target o) n
    h.ok s1 fun w => w.writeData o.ty o.rf o.v m fun l =>
      loadValue o.ty o.rf (leNat (s1.getA (s.crew h.w.crew).clus (h.target o l).toNat n))

/-- STL (R198, R200, R207). -/
def execStl (o : MemOp) (s : State) : Host.Outcome State Fault Refusal :=
  onWave o.g { vr := amRegs o.am o.b ++ dataRegs o.ty o.rf o.v.toNat, sr := [o.a.toNat], pr := o.g.pregs } s fun h => do
    let m := h.part o.g
    let n := laneBytes o.ty o.rf
    let s1 ← h.localLanes s (lanesOf m) (h.target o) n true true
    let z := h.storeZ o
    let s2 := (lanesOf m).foldl (fun s l =>
      s.storeLocal h.w.crew (h.target o l).toNat n (bytesFn (h.target o l).toNat (leBytes n (h.storeData o z l).1))) s1
    let s3 ← h.arithTo s1 s2 m (fun l => (h.storeData o z l).2) z id
    .ok s3.wake

/-- R202: the checks of a scalar access stand for the whole mask. -/
def Here.scalarPass (h : Here) (s : State) (a : W64) (r : LaneCheck) : Except Abort (List Piece) :=
  match r with
  | .ok ps => .ok ps
  | .absent => .error (.stop .noMemory)
  | .wait => .error (.hold (h.await s .hidden))
  | .bad c => .error (.trap (h.lanesReport c h.f.mask fun _ => a) (if c = cMEMECC then s.countWalks (s.ctxOf h.w) [a.toNat] else s))

/-- LDS (R202). -/
def execLds (ty : Ty) (hnt : Hint) (d a : BitVec 6) (imm : W32) (s : State) : Host.Outcome State Fault Refusal :=
  onWave Guard.none { sr := [a.toNat] } s fun h =>
    if h.f.mask = 0 then h.ok s id
    else do
      let la := s.launchOf h.w
      let va := h.s a + sext64 imm
      let r := s.checkGlobal h.w.core la .read va.toNat (ty.width / 8)
      let ps ← h.scalarPass r.1 va r.2
      let bad := ps.filter (r.1.spoiled h.w.core)
      if bad != [] then .error (h.consumes r.1 bad (h.lanesReport cMEMECC h.f.mask fun _ => va))
      else
        let q := State.loadLanes h.w.core (hnt != .stream) (h.glimpses r.1 [(0, ps)]) r.1 [(0, ps)]
        h.ok (h.loadDone r.1 q.1 [(0, ps)]) fun w => w.writeS h.side d.toNat (fillS ty (laneOf q.2 0))

/-- STS (R202). -/
def execSts (ty : Ty) (hnt : Hint) (c a : BitVec 6) (imm : W32) (s : State) : Host.Outcome State Fault Refusal :=
  let _ := hnt
  onWave Guard.none { sr := [a.toNat, c.toNat] } s fun h =>
    if h.f.mask = 0 then h.ok s id
    else do
      let la := s.launchOf h.w
      let va := h.s a + sext64 imm
      let r := s.checkGlobal h.w.core la .write va.toNat (ty.width / 8)
      let ps ← h.scalarPass r.1 va r.2
      h.ok (h.post r.1 (lanePosts ps (leBytes (ty.width / 8) (h.s c).toNat))) id

/-- R203: one lane of a prefetch: its line is requested, or the lane is dropped. -/
def Here.prefetch (h : Here) (keep : Bool) (s : State) (a : W64) : State :=
  match s.checkGlobal h.w.core (s.launchOf h.w) .read a.toNat 1 with
  | (s1, .ok (p :: _)) =>
    if keep && !s1.poisoned (p.pa / 128) then
      (s1.coreLine h.w.core (p.pa / 128) true).1.tagL1 h.w.core (s.ctxOf h.w) [p]
    else s1
  | (s1, _) => s1

/-- PFG (R203). -/
def execPfg (g : Guard) (am : AMode) (hnt : Hint) (a : BitVec 6) (b : BitVec 8) (imm : W32) (s : State) :
    Host.Outcome State Fault Refusal :=
  onWave g { vr := amRegs am b, sr := [a.toNat], pr := g.pregs } s fun h =>
    h.ok ((lanesOf (h.part g)).foldl (fun s l => h.prefetch (hnt == .keep) s (h.addr am a b imm l)) s) id

/-- R204: the L1 lines of a core that were reached through addresses of a virtual range; nothing is translated. (DESIGN CHOICE, log 17.) -/
def State.cinvRange (s : State) (core ctx lo n : Nat) : State :=
  let hit := s.mem.l1va.filter fun x => x.1 / 2 ^ 45 == core && x.2.1 == ctx && meets (128 * x.2.2) 128 lo n
  s.setMem { s.mem with l1 := s.mem.l1.filter fun x => !(hit.any fun y => y.1 == x.1)
                        l1va := s.mem.l1va.filter fun x => !hit.contains x }

/-- CINV (R204). A range of more than 2^20 bytes, or one past the address space, invalidates the whole L1 (DESIGN CHOICE, log 17). -/
def execCinv (a b : BitVec 6) (imm : W32) (s : State) : Host.Outcome State Fault Refusal :=
  onWave Guard.none { sr := [a.toNat, b.toNat] } s fun h =>
    let lo := (h.s a + sext64 imm).toNat
    let n := bits (h.s b) 0 32
    if n = 0 ∨ 2 ^ 20 < n ∨ 2 ^ 56 < lo + n then h.ok (s.setMem (s.mem.dropL1 h.w.core)) id
    else h.ok (s.cinvRange h.w.core (s.ctxOf h.w) lo n) id

/-- R206: the crew's launch declared the window. -/
def State.declared (s : State) (ck k : Nat) : Bool :=
  match (s.launch (s.crew ck).launch).wins[k]? with
  | some w => w.len != 0
  | none => false

/-- R206: a window instruction on a declared window. -/
def onWindow (k : BitVec 3) (s : State) (f : Here → Except Abort State) : Host.Outcome State Fault Refusal :=
  onWave Guard.none {} s fun h =>
    if s.declared h.w.crew k.toNat then f h else .error (.trap (h.report cPROT) s)

/-- The words of window k dropped where `p` holds of their state. -/
def Crew.dropWords (c : Crew) (k : Nat) (p : BitVec 2 → Bool) : Crew :=
  { c with words := c.words.filter fun x => !(x.1 / 2 ^ 18 == k && p x.2) }

/-- WOPEN (R206): no effect on an open window. -/
def execWopen (k : BitVec 3) (s : State) : Host.Outcome State Fault Refusal :=
  onWindow k s fun h =>
    if (s.crew h.w.crew).opened.getLsbD k.toNat then h.ok s id
    else h.ok (s.setCrew h.w.crew fun c => { c.dropWords k.toNat (fun _ => true) with opened := c.opened ||| (1 <<< k.toNat) }) id

/-- A window closed: no word valid (R206). -/
def Crew.closeWin (c : Crew) (k : Nat) : Crew :=
  { c.dropWords k (fun _ => true) with opened := c.opened &&& ~~~((1#8) <<< k), fills := c.fills.filter fun x => x.1 != k }

/-- WCLOSE (R206, R208). -/
def execWclose (k : BitVec 3) (s : State) : Host.Outcome State Fault Refusal :=
  onWindow k s fun h =>
    if (s.crew h.w.crew).opened.getLsbD k.toNat then do
      let s1 ← h.writeBack s [k.toNat]
      h.ok (s1.setCrew h.w.crew fun c => c.closeWin k.toNat) id
    else h.ok s id

/-- WFLUSH (R206, R208). -/
def execWflush (k : BitVec 3) (s : State) : Host.Outcome State Fault Refusal :=
  onWindow k s fun h =>
    if (s.crew h.w.crew).opened.getLsbD k.toNat then do
      let s1 ← h.writeBack s [k.toNat]
      h.ok s1 id
    else h.ok s id

/-- WINV (R206). -/
def execWinv (k : BitVec 3) (s : State) : Host.Outcome State Fault Refusal :=
  onWindow k s fun h =>
    if (s.crew h.w.crew).opened.getLsbD k.toNat then
      h.ok (s.setCrew h.w.crew fun c => c.dropWords k.toNat (· == 2)) id
    else h.ok s id

end Sys2Proof.Machine
end

