-- ==== Sys2Proof/Machine/Atomic.lean ====
section
/-!
DEFINITION. Class 0x8: atomics and fences (R209 to R213, R236).
-/
namespace Sys2Proof.Machine

/-- R210: the value that an operation leaves. -/
def atomNew (op : AtOp) (t : Ty) (old opd : Nat) : Nat :=
  match op with
  | .exch => opd
  | .and => old &&& opd
  | .or => old ||| opd
  | .xor => old ^^^ opd
  | .add =>
    if t.isF then
      let a := decodeF t false old
      let b := decodeF t false opd
      encodeF t (deliver t {} false [a, b] (resAdd .rne a b)).1
    else narrow t .none (intAdd t old opd)
  | .min =>
    if t.isF then encodeF t (minMaxF false (decodeF t false old) (decodeF t false opd)).1
    else narrow t .none (intMin t old opd)
  | .max =>
    if t.isF then encodeF t (minMaxF true (decodeF t false old) (decodeF t false opd)).1
    else narrow t .none (intMax t old opd)

/-- R211, R272: one atomic at the home: the line is recalled; `f` of the old value is written, or nothing. -/
def State.atomicAt (s : State) (pa n : Nat) (f : Nat → Option Nat) : State × Nat :=
  let s1 := s.recall (pa / 128)
  let old := leNat ((List.range n).map fun i => s1.mem.ram.read (pa + i))
  match f old with
  | some v => (s1.putBytes pa (leBytes n v), old)
  | none => (s1, old)

/-- R211: one lane of an atomic of a wave: its core loses its L1 copy. -/
def State.atomicLane (s : State) (core : Nat) (who : Option Nat) (pa n : Nat) (f : Nat → Option Nat) : State × Nat :=
  let r := s.atomicAt pa n f
  let s1 := r.1.setMem { r.1.mem with l1 := r.1.mem.l1.erase (l1Key core (pa / 128)) }
  (match f r.2 with
    | some _ => s1.noteWrite who pa n
    | none => s1, r.2)

/-- R210: the lanes in increasing order: the old values of those performed, and the lanes that met uncorrectable data. (DEDUCED, log 23.) -/
def State.atomicLanes (core : Nat) (who : Option Nat) (n : Nat) (f : Nat → Nat → Option Nat) :
    State → List (Nat × List Piece) → State × List (Nat × Nat) × List (Nat × Piece)
  | s, [] => (s, [], [])
  | s, (l, ps) :: rest =>
    match ps with
    | [] => State.atomicLanes core who n f s rest
    | p :: _ =>
      if s.poisoned (p.pa / 128) then
        let q := State.atomicLanes core who n f s rest
        (q.1, q.2.1, (l, p) :: q.2.2)
      else
        let r := s.atomicLane core who p.pa n (f l)
        let q := State.atomicLanes core who n f r.1 rest
        (q.1, (l, r.2) :: q.2.1, q.2.2)

/-- R106: a memory order with a release, with an acquire. -/
def hasRel (o : Order) : Bool := o == .rel || o == .ar

def hasAcq (o : Order) : Bool := o == .acq || o == .ar

/-- R195: natural alignment before every other check of an atomic lane. -/
def aligned (a n : Nat) (r : State × LaneCheck) (s : State) : State × LaneCheck :=
  if a % n = 0 then r else (s, .bad cMISAL)

/-- The registers that an atomic reads and writes. -/
def atomUses (o : AtomOp) (rd wr : Bool) : Uses :=
  { vr := amRegs o.am o.b ++ regsOf o.ty o.c.toNat ++ (if rd then regsOf o.ty o.d.toNat else []),
    vw := if wr then regsOf o.ty o.d.toNat else [], sr := [o.a.toNat], pr := o.g.pregs }

/-- The address of a lane of an atomic. -/
def Here.atomAddr (h : Here) (o : AtomOp) (l : Nat) : W64 := h.addr o.am o.a o.b o.imm l

/-- R60, R210 to R213: a global atomic: checks, release, lanes, result, acquire; with an empty active mask, nothing. -/
def Here.atomic (h : Here) (o : AtomOp) (wr : Bool) (f : Nat → Nat → Option Nat) (s : State) : Except Abort State := do
  let m := h.part o.g
  let n := o.ty.width / 8
  let la := s.launchOf h.w
  if h.f.mask = 0 then h.ok s id else
  let r := checkLanes (fun s l => aligned (h.atomAddr o l).toNat n
    (s.checkGlobal h.w.core la .write (h.atomAddr o l).toNat n) s) s (lanesOf m)
  let ps ← h.allPass r.1 (h.atomAddr o) r.2
  let s0 ← if hasRel o.ord then h.release r.1 o.scope else .ok r.1
  let s1 := s0.settleOver h.f.id (ps.flatMap (·.2))
  let q := State.atomicLanes h.w.core (some (s.crew h.w.crew).launch) n f s1 ps
  if q.2.2 != [] then
    .error (.trap (h.lanesReport cMEMECC (lanesMask (q.2.2.map (·.1))) (h.atomAddr o))
      (q.1.consumeAll h.w.core la.ctx (q.2.2.map (·.2))))
  else
    let s2 := if hasAcq o.ord then h.acquire q.1 o.scope else q.1
    h.ok s2 fun w => if wr then w.writeElems o.ty.width o.d.toNat m fun l _ => laneOf q.2.1 l else w

/-- The operand of a lane. -/
def Here.atomSrc (h : Here) (o : AtomOp) (l : Nat) : Nat := h.w.elem o.ty.width o.c.toNat l 0

/-- ATOM (R210, R211). -/
def execAtom (o : AtomOp) (s : State) : Host.Outcome State Fault Refusal :=
  onWave o.g (atomUses o false true) s fun h =>
    h.atomic o true (fun l old => some (atomNew o.op o.ty old (h.atomSrc o l))) s

/-- ATOMC (R210, R213): a lane whose compare fails writes nothing. -/
def execAtomc (o : AtomOp) (s : State) : Host.Outcome State Fault Refusal :=
  onWave o.g (atomUses o true true) s fun h =>
    h.atomic o true (fun l old =>
      if old = h.w.elem o.ty.width o.d.toNat l 0 then some (h.atomSrc o l) else none) s

/-- RED (R210). -/
def execRed (o : AtomOp) (s : State) : Host.Outcome State Fault Refusal :=
  onWave o.g (atomUses o false false) s fun h =>
    h.atomic o false (fun l old => some (atomNew o.op o.ty old (h.atomSrc o l))) s

/-- R210: the lanes of an atoml in increasing order, with the old values. -/
def State.atomlLanes (ck clus n : Nat) (addr : Nat → Nat) (f : Nat → Nat → Nat) :
    State → List Nat → State × List (Nat × Nat)
  | s, [] => (s, [])
  | s, l :: ls =>
    let old := leNat (s.getA clus (addr l) n)
    let q := State.atomlLanes ck clus n addr f (s.storeLocal ck (addr l) n (bytesFn (addr l) (leBytes n (f l old)))) ls
    (q.1, (l, old) :: q.2)

/-- ATOML (R207, R211, R213): performed at the A-store; an order at .wv or .crw writes nothing back. -/
def execAtoml (o : AtomOp) (s : State) : Host.Outcome State Fault Refusal :=
  onWave o.g (atomUses o false true) s fun h => do
    let m := h.part o.g
    let n := o.ty.width / 8
    let c := s.crew h.w.crew
    if h.f.mask = 0 then h.ok s id else
    let a (l : Nat) := h.atomAddr o l
    let r := checkLanes (fun s l => aligned (a l).toNat n (s, s.checkLocal c true (a l).toNat n) s) s (lanesOf m)
    let _ ← h.allPass s a r.2
    let s1 ← h.needFills s ((lanesOf m).flatMap fun l => c.fillsFor (s.launch c.launch) false (a l).toNat n).dedup
    h.localEcc s1 (lanesOf m) a n
    let s2 ← if hasRel o.ord then h.release s1 o.scope else .ok s1
    let q := State.atomlLanes h.w.crew c.clus n (fun l => (a l).toNat)
      (fun l old => atomNew o.op o.ty old (h.atomSrc o l)) s2 (lanesOf m)
    let s3 := if hasAcq o.ord then h.acquire q.1 o.scope else q.1
    .ok (h.done s3 fun w => w.writeElems o.ty.width o.d.toNat m fun l _ => laneOf q.2 l).wake

/-- FENCE (R212, R236). -/
def execFence (ord : Order) (sc : Scope) (s : State) : Host.Outcome State Fault Refusal :=
  onWave Guard.none {} s fun h => do
    let s1 ← if hasRel ord then h.release s sc else .ok s
    h.ok (if hasAcq ord then h.acquire s1 sc else s1) id

end Sys2Proof.Machine
end

