-- ==== Sys2Proof/Machine/Barrier.lean ====
section
/-!
DEFINITION. Barrier objects (R413 to R421) and the flag wait (R390, R420).
-/
namespace Sys2Proof.Machine

/-- R413: a barrier object. -/
structure BarObj where
  bytes : W64
  ph : Bool
  err : Bool
  rest : BitVec 30
  expd : BitVec 16
  pend : BitVec 16
  deriving DecidableEq, Repr

/-- R413: bits [63:0] of an object. -/
def BarObj.low (b : BarObj) : W64 := BitVec.ofBool b.ph ++ BitVec.ofBool b.err ++ b.rest ++ b.expd ++ b.pend

/-- The object at an offset of the cluster space. -/
def State.barObj (s : State) (clus off : Nat) : BarObj :=
  let lo : W64 := BitVec.ofNat 64 (leNat (s.getA clus off 8))
  { bytes := BitVec.ofNat 64 (leNat (s.getA clus (off + 8) 8)), ph := lo.getLsbD 63, err := lo.getLsbD 62,
    rest := lo.extractLsb' 32 30, expd := lo.extractLsb' 16 16, pend := lo.extractLsb' 0 16 }

/-- R414: the whole object written in one step. -/
def State.setBarObj (s : State) (clus off : Nat) (b : BarObj) : State :=
  s.putA clus off 16 (bytesFn off (leBytes 8 b.low.toNat ++ leBytes 8 b.bytes.toNat))

/-- R415: an update that leaves PEND = 0 and BYTES = 0 completes the phase. -/
def BarObj.settle (b : BarObj) : BarObj :=
  if b.pend = 0 ∧ b.bytes = 0 then { b with ph := !b.ph, pend := b.expd } else b

/-- R415, R417: an arrival of k. -/
def BarObj.arrive (b : BarObj) (k : Nat) : BarObj :=
  if b.pend = 0 then { b with err := true }
  else if b.pend.toNat < k then { b with pend := 0, err := true }.settle
  else { b with pend := b.pend - BitVec.ofNat 16 k }.settle

/-- R415, R417: BYTES changed by an amount; it saturates at the bounds of s64. -/
def BarObj.addBytes (b : BarObj) (x : Int) : BarObj :=
  let y := b.bytes.toInt + x
  if y < -2 ^ 63 then { b with bytes := BitVec.ofInt 64 (-2 ^ 63), err := true }.settle
  else if 2 ^ 63 - 1 < y then { b with bytes := BitVec.ofInt 64 (2 ^ 63 - 1), err := true }.settle
  else { b with bytes := BitVec.ofInt 64 y }.settle

/-- R415, R421: a subtraction by an engine, of 0 too, with the waits that it ends. -/
def State.barSub (s : State) (clus off n : Nat) : State :=
  (s.setBarObj clus off ((s.barObj clus off).addBytes (-(n : Int)))).wake

/-- R418, R192: the range overlaps an open window of the crew. -/
def Crew.inOpenWin (c : Crew) (l : Launch) (a n : Nat) : Bool :=
  (List.range l.wins.length).any fun k =>
    match l.wins[k]? with
    | some w => c.opened.getLsbD k && w.len != 0 && meets a n (c.base + w.aoff) w.len
    | none => false

/-- R418: the checks on an object, in order; then its words must be readable (R258). (DEDUCED, log 28.) -/
def Here.barCheck (h : Here) (s : State) (a : W64) : Except Abort Nat :=
  let c := s.crew h.w.crew
  let bad (x : W64) : Except Abort Nat := .error (.trap (h.lanesReport x h.f.mask fun _ => a) s)
  if a.toNat % 16 != 0 then bad cMISAL
  else if !c.holds a.toNat 16 || c.inOpenWin (s.launch c.launch) a.toNat 16 then bad cPROT
  else if s.locked c.clus 0 true true a.toNat 16 then bad cRLOCK
  else if (wordsOf a.toNat 16).any (s.badWord c.clus) then bad cMEMECC
  else .ok a.toNat

/-- R418: an object form acts when the mask is non-empty. -/
def onBar (a : BitVec 6) (sr : List Nat) (s : State) (k : Here → Nat → Nat → Except Abort State) :
    Host.Outcome State Fault Refusal :=
  onWave Guard.none { sr := a.toNat :: sr } s fun h =>
    if h.f.mask = 0 then h.ok s id
    else do
      let off ← h.barCheck s (h.s a)
      k h (s.crew h.w.crew).clus off

/-- BARI (R419): a plain write of the whole object. -/
def execBari (a b : BitVec 6) (s : State) : Host.Outcome State Fault Refusal :=
  onBar a [b.toNat] s fun h clus off =>
    let n : BitVec 16 := (h.s b).setWidth 16
    .ok (h.done (s.setBarObj clus off { bytes := 0, ph := false, err := false, rest := 0, expd := n, pend := n }) id).wake

/-- BARA (R419): a release at .crw and an arrival of k; s_D receives PH before it. -/
def execBara (d a : BitVec 6) (k : BitVec 16) (s0 : State) : Host.Outcome State Fault Refusal :=
  onBar a [] s0 fun h clus off => do
    let s ← h.release s0 .crw
    let b := s.barObj clus off
    .ok (h.done (s.setBarObj clus off (b.arrive k.toNat)) fun w => w.writeS h.side d.toNat (if b.ph then 1 else 0)).wake

/-- BARX (R419): with an amount of 0 nothing changes. -/
def execBarx (a b : BitVec 6) (s : State) : Host.Outcome State Fault Refusal :=
  onBar a [b.toNat] s fun h clus off =>
    let n := bits (h.s b) 0 32
    if n = 0 then h.ok s id
    else .ok (h.done (s.setBarObj clus off ((s.barObj clus off).addBytes n)) id).wake

/-- BART (R419): bits [63:0] of the object; acquire at .crw. -/
def execBart (d a : BitVec 6) (s : State) : Host.Outcome State Fault Refusal :=
  onBar a [] s fun h clus off =>
    h.ok (h.acquire s .crw) fun w => w.writeS h.side d.toNat (s.barObj clus off).low

/-- BARW on an object (R416, R419): it goes on when PH equals the awaited value; a recorded wait is tested alone (R388). -/
def execBarw (a b : BitVec 6) (s : State) : Host.Outcome State Fault Refusal :=
  onWave Guard.none { sr := [a.toNat, b.toNat] } s fun h =>
    match h.f.wait with
    | .barrier off ph => if s.objPh (h.w.core / 8) off == ph || h.f.ended.isSome then h.ok (h.acquire s .crw) id else .ok s
    | _ =>
      if h.f.mask = 0 then h.ok s id
      else do
        let off ← h.barCheck s (h.s a)
        let ph := (h.s b).getLsbD 0
        if (s.barObj (s.crew h.w.crew).clus off).ph == ph then h.ok (h.acquire s .crw) id
        else .ok (h.await s (.barrier off ph))

/-- R420: one read of the flag word at its home: the value, once it differs. -/
def State.flagRead (s : State) (pa : Nat) (v : W64) : State × Option W64 :=
  let r := s.atomicAt pa 8 fun _ => none
  (r.1, if BitVec.ofNat 64 r.2 = v then none else some (BitVec.ofNat 64 r.2))

/-- R420: the flag differs: the value reaches s_D and the return is an acquire at .sys. -/
def Here.flagReturn (h : Here) (s0 : State) (d : BitVec 6) (pa : Nat) (addr v : W64) : Except Abort State :=
  let s := s0.settleOver h.f.id [⟨addr.toNat, pa, 8⟩]
  if s.poisoned (pa / 128) then
    .error (h.consumes s [⟨addr.toNat, pa, 8⟩] (h.lanesReport cMEMECC h.f.mask fun _ => addr))
  else
    match s.flagRead pa v with
    | (s1, some x) => h.ok (h.acquire s1 .sys) fun w => w.writeS h.side d.toNat x
    | (s1, none) => .ok (h.await s1 (.flag addr v))

/-- R420: a later read of the wait; its translation is not checked again: while there is none, the wait goes on. (DEDUCED, log 28.) -/
def Here.flagAgain (h : Here) (s : State) (d : BitVec 6) (addr v : W64) : Except Abort State :=
  match s.translate h.w.core (s.ctxOf h.w) addr.toNat .read with
  | (s1, .ok pa) => h.flagReturn s1 d pa addr v
  | (_, .error _) => .ok s

/-- BARW in its global-flag form (R420). -/
def execBarwFlag (d a b : BitVec 6) (s : State) : Host.Outcome State Fault Refusal :=
  onWave Guard.none { sr := [a.toNat, b.toNat] } s fun h =>
    match h.f.wait, h.f.ended with
    | .flag _ _, some (.value x) => h.ok (h.acquire s .sys) fun w => w.writeS h.side d.toNat x
    | .flag addr v, _ => h.flagAgain s d addr v
    | _, _ =>
      if h.f.mask = 0 then h.ok s id
      else do
        let addr := h.s a
        let r := aligned addr.toNat 8 (s.checkGlobal h.w.core (s.launchOf h.w) .read addr.toNat 8) s
        let ps ← h.scalarPass r.1 addr r.2
        h.flagReturn r.1 d ((ps.head?.map (·.pa)).getD 0) addr (h.s b)

/-- FLAG_POLL (R390): the core reads the flag that a fragment waits on. -/
def execFlagPoll (w : Nat) (b : Bool) (s : State) : Host.Outcome State Fault Refusal :=
  match s.fragment w b with
  | none => .next s
  | some h =>
    match h.f.wait, h.f.ended, h.f.instr? with
    | .flag addr v, none, some (.barwFlag d _ _) => h.finish (h.settle s (h.flagAgain s d addr v))
    | _, _, _ => .next s

/-- R390, R400: the word that ends a flag wait of a context, read as the home holds it, or as every coherent agent does: none while
the condition does not hold there. -/
def State.flagSeen (s : State) (core ctx : Nat) (all : Bool) (addr v : W64) : Option W64 :=
  match (s.translate core ctx addr.toNat .read).2 with
  | .ok pa =>
    if s.poisoned (pa / 128) || (!all && (s.mem.ownerData (pa / 128)).isSome) then none
    else if s.get64 pa = v then none else some (s.get64 pa)
  | .error _ => none

/-- R390: a fragment whose flag wait is seen to end. -/
def Fragment.flagEnd (seen : W64 → W64 → Option W64) (f : Fragment) : Fragment :=
  match f.wait, f.ended with
  | .flag addr v, none => match seen addr v with
    | some x => f.endWait (.value x)
    | none => f
  | _, _ => f

/-- A fragment of the wave is at a flag wait. -/
def Wave.onFlag (w : Wave) : Bool := w.frags.any fun f => match f.wait, f.ended with | .flag _ _, none => true | _, _ => false

/-- R390, R400: the cores read the flag words that fragments wait on, resident or evicted: after every write that a home performs,
and every 4,096 ns (`all`) as every agent sees them. -/
def State.seeFlags (s : State) (all : Bool) : State :=
  if s.waves.any fun x => x.2.onFlag then
    { s with waves := s.waves.map fun x =>
        if x.2.onFlag then (x.1, x.2.mapFrags (Fragment.flagEnd (s.flagSeen x.2.core (s.ctxOf x.2) all))) else x }
  else s

end Sys2Proof.Machine
end

