-- ==== Sys2Proof/Machine/Special.lean ====
section
/-!
DEFINITION. The special functions (R173), in fixed point of 320 fraction bits (DEDUCED, log 6), and the activation function (R175).
-/
namespace Sys2Proof.Machine

/-- Fraction bits of the series, and of the reduction of an angle. (DEDUCED, log 6.) -/
def fixBits : Nat := 320

/-- DEDUCED, log 6. -/
def angBits : Nat := 640

def fixOne : Int := 2 ^ fixBits

def fixMul (a b : Int) : Int := a * b / 2 ^ fixBits

/-- `∑ t·y^i/(k·(k+1)·…)`, the tail of the exponential series from term `t` of index `k`. -/
def expSeries : Nat → Int → Int → Int → Int
  | 0, _, t, _ => t
  | n + 1, k, t, y => t + expSeries n (k + 1) (fixMul t y / k) y

/-- `2^y` for `0 ≤ y < 1` in fixed point, given `ln 2`. -/
def exp2Fix (ln2 y : Int) : Int := expSeries 90 1 fixOne (fixMul y ln2)

/-- `∑ t·z2^i/(k+2i)`, the series of artanh. -/
def atanhSeries : Nat → Int → Int → Int → Int
  | 0, k, t, _ => t / k
  | n + 1, k, t, z2 => t / k + atanhSeries n (k + 2) (fixMul t z2) z2

/-- `ln x` for `1 ≤ x ≤ 2` in fixed point. -/
def lnFix (x : Int) : Int :=
  let z := (x - fixOne) * fixOne / (x + fixOne)
  2 * atanhSeries 110 1 z (fixMul z z)

def ln2Fix : Int := lnFix (2 * fixOne)

/-- `arctan(1/n)` in fixed point of `angBits` bits: the alternating series from the power `t`. -/
def atanInvSeries : Nat → Int → Int → Int → Int
  | 0, k, t, _ => t / k
  | m + 1, k, t, n2 => t / k - atanInvSeries m (k + 2) (t / n2) n2

def atanInv (n : Int) : Int := atanInvSeries 150 1 (2 ^ angBits / n) (n * n)

/-- `π/2` in fixed point of `angBits` bits (Machin). -/
def halfPi : Int := 2 * (4 * atanInv 5 - atanInv 239)

/-- `∑ ±t·r2^i/((k+1)(k+2)…)`: the series of sine (k = 1) and cosine (k = 0). -/
def trigSeries : Nat → Int → Int → Int → Int
  | 0, _, t, _ => t
  | n + 1, k, t, r2 => t + trigSeries n (k + 2) (-(fixMul t r2) / ((k + 1) * (k + 2))) r2

def sinFix (r : Int) : Int := trigSeries 50 1 r (fixMul r r)

def cosFix (r : Int) : Int := trigSeries 50 0 fixOne (fixMul r r)

/-- An irrational result just above a truncated fixed-point value. -/
def fixReal (v : Int) : Exact := ⟨v < 0, 2 * v.natAbs + 1, -(fixBits : Int) - 1⟩

/-- A value just below `m·2^e` in magnitude. -/
def justBelow (neg : Bool) (m : Nat) (e : Int) : Exact := ⟨neg, m * 2 ^ 72 - 1, e - 72⟩

/-- R173: fexp2. -/
def resExp2 (a : FVal) : FRes :=
  match a with
  | .inf n => .value (if n then .fin false 0 0 else .inf false) 0
  | .nan _ _ => .value canonNaN 0
  | .fin n m e =>
    if m = 0 then .exact ⟨false, 1, 0⟩
    else if 0 ≤ e then
      .exact ⟨false, 1, let i : Int := (m * 2 ^ e.toNat : Nat); if n then -i else i⟩
    else
      let d := (-e).toNat
      if m % 2 ^ d = 0 then .exact ⟨false, 1, let i : Int := (m / 2 ^ d : Nat); if n then -i else i⟩
      else
        let v : Int := if n then -(m : Int) else m
        let i := v / 2 ^ d
        let fr := (v - i * 2 ^ d) * 2 ^ (fixBits - d)
        let y := exp2Fix ln2Fix fr
        .exact ⟨false, 2 * y.natAbs + 1, i - fixBits - 1⟩

/-- R173: flog2. -/
def resLog2 (a : FVal) : FRes :=
  if a.isZero then .value (.inf true) flDZ
  else if a.neg && !a.isNaN then .invalid
  else
    match a with
    | .fin _ m e =>
      let l := Nat.log2 m
      let i : Int := l + e
      if m = 2 ^ l then .exact (exactOf i 0 false)
      else .exact (fixReal (i * fixOne + lnFix (m * 2 ^ (fixBits - l)) * fixOne / ln2Fix))
    | _ => .value a 0

/-- R173: sine and cosine of a finite angle: the remainder modulo π/2 and its quadrant. -/
def trigReduce (n : Bool) (m : Nat) (e : Int) : Int × Nat :=
  let x : Int := scaleTo m e (-(angBits : Int))
  let v := if n then -x else x
  let k := (v + halfPi / 2) / halfPi
  ((v - k * halfPi) / 2 ^ (angBits - fixBits), (k % 4).toNat)

def resTrig (isSin : Bool) (a : FVal) : FRes :=
  match a with
  | .inf _ => .invalid
  | .nan _ _ => .value canonNaN 0
  | .fin n m e =>
    if m = 0 then (if isSin then .value a 0 else .exact ⟨false, 1, 0⟩)
    else if leadExp m e < -36 then .exact (if isSin then justBelow n m e else justBelow false 1 0)
    else
      let (r, k) := trigReduce n m e
      .exact (fixReal (match (if isSin then k else (k + 1) % 4) with
        | 0 => sinFix r
        | 1 => cosFix r
        | 2 => -(sinFix r)
        | _ => -(cosFix r)))

/-- R175: the index of the segment of `u`. -/
def actIndex (u : FVal) : Nat :=
  match u with
  | .inf n => if n then 0 else 255
  | .nan _ _ => 0
  | .fin n m e => if n then 0 else min 255 (scaleTo m e 0)

/-- R175: the activation function of one lane; `seg i j` is coefficient j of segment i. -/
def actF (h : How) (daz ftz : Bool) (sat : Sat) (seg : Nat → Nat → Nat) (x hh k : Nat) : Nat × Flags :=
  let xv := decodeF .f32 daz x
  let rne : How := {}
  if xv.isNaN then (encodeF .f32 (saturateF .f32 sat (selectNaN [xv])), if xv.isSNaN then flNV else 0)
  else
    let fma (h : How) (ftz : Bool) (a b c : FVal) := deliver .f32 h ftz [a, b, c] (resFma h.mode a b c)
    let u := fma rne false xv (decodeF .f32 false hh) (decodeF .f32 false k)
    if u.1.isNaN then (encodeF .f32 (saturateF .f32 sat canonNaN), u.2 ||| flNV)
    else
      let i := actIndex u.1
      let iv : FVal := .fin true i 0
      let t := deliver .f32 rne false [u.1, iv] (resAdd .rne u.1 iv)
      let c (j : Nat) := decodeF .f32 false (seg i j)
      let y1 := fma h false (c 3) t.1 (c 2)
      let y2 := fma h false y1.1 t.1 (c 1)
      let y := fma h ftz y2.1 t.1 (c 0)
      (encodeF .f32 (saturateF .f32 sat y.1), u.2 ||| t.2 ||| y1.2 ||| y2.2 ||| y.2)

end Sys2Proof.Machine
end

