-- ==== Sys2Proof/Machine/CoreState.lean ====
section
/-!
DEFINITION. The stores that a core owns for one context (R256, R257), the activation table and its bank flip (R174 to R176).
-/
namespace Sys2Proof.Machine

/-- R257: a crew holds wave slots, run units or an instance on a core. -/
def State.crewOn (s : State) (k core : Nat) : Bool :=
  (s.waves.any fun x => x.2.crew == k && x.2.core == core &&
    x.2.holds) ||
  (s.seqs.any fun x => x.2.crew == k && x.2.core == core && x.2.status == .live) ||
  match s.crews.get? k with
  | some c => c.space.isNone && c.clus == core / 8 && c.unit < 8 * (core % 8) + 8 && 8 * (core % 8) < c.unit + c.nunits
  | none => false

/-- R215, R225, R290: a copy writes the W-store or the activation table of its core. -/
def Copy.inCore (c : Copy) : Bool :=
  match c.kind with
  | .cpyw | .cpywSparse | .cpact => true
  | .scpy => c.scpy == .toW || c.scpy == .toWSparse
  | _ => false

/-- R257: some crew of a context is resident on a core. -/
def State.ctxOn (s : State) (ctx core : Nat) : Bool :=
  s.crews.any fun x => (s.launch x.2.launch).ctx == ctx && s.crewOn x.1 core

/-- R174, R256: W-store and banks cleared, bank 0 current, no owner; cleared words are correct again (R258). -/
def Stores.clearCore (t : Stores) (core : Nat) : Stores :=
  { t with wstore := t.wstore.clear (2 ^ 18 * core) (2 ^ 18), act := t.act.clear (2 ^ 13 * core) (2 ^ 13),
           bank := t.bank.write core 0, owner := t.owner.write core 0,
           bad := t.bad.filter fun b => !((b.1 == 1 && b.2 / 2 ^ 15 == core) || (b.1 == 2 && b.2 / 2 ^ 10 == core)) }

/-- R257: a core whose owner has no crew resident there is cleared. -/
def State.tidyCore (s : State) (core : Nat) : State :=
  let o := (s.stores.owner.read core).toNat
  if o = 0 ∨ s.ctxOn (o - 1) core then s else { s with stores := s.stores.clearCore core }

/-- The same for every core of a cluster. -/
def State.tidyCluster (s : State) (clus : Nat) : State :=
  (List.range 8).foldl (fun s i => s.tidyCore (8 * clus + i)) s

/-- R174, R256, R257: every core whose owner has left it is cleared. -/
def State.tidyOwners (s : State) : State := s.stores.owner.foldl (fun s x => s.tidyCore x.1) s

/-- R257: an access of a context to a core's stores; none if it waits for the owner to leave. -/
def State.own (s : State) (core ctx : Nat) : Option State :=
  let o := (s.stores.owner.read core).toNat
  if o = ctx + 1 then some s
  else if o = 0 then some { s with stores := { s.stores with owner := s.stores.owner.write core (BitVec.ofNat 8 (ctx + 1)) } }
  else none

/-- R174: the number of the current bank. -/
def State.bankOf (s : State) (core : Nat) : Nat := (s.stores.bank.read core).toNat

/-- R176: an actflip pending on the core. -/
def State.flipping (s : State) (core : Nat) : Bool := s.stores.flips.any fun x => x.1 == core

/-- R174: coefficient j of segment i of a bank. -/
def State.coeff (s : State) (core bank i j : Nat) : Nat :=
  leNat ((List.range 4).map fun k => s.stores.act.read (2 ^ 13 * core + 2 ^ 12 * bank + 16 * i + 4 * j + k))

/-- R258: a half of segment i that cannot be read: its offset. -/
def State.badSegment (s : State) (core bank i : Nat) : Option Nat :=
  let h := 2 ^ 10 * core + 2 ^ 9 * bank + 2 * i
  if s.stores.bad.contains (2, h) then some (16 * i)
  else if s.stores.bad.contains (2, h + 1) then some (16 * i + 8)
  else none

/-- R175: the segment that a lane reads, none for a NaN. -/
def actSegment (daz : Bool) (x hh k : Nat) : Option Nat :=
  let xv := decodeF .f32 daz x
  let u := deliver .f32 {} false [xv, decodeF .f32 false hh, decodeF .f32 false k]
    (resFma .rne xv (decodeF .f32 false hh) (decodeF .f32 false k))
  if xv.isNaN || u.1.isNaN then none else some (actIndex u.1)

/-- FACT (R175, R176): the bank is the one current at issue. (DEDUCED, log 22.) -/
def execFact (g : Guard) (rnd : Rnd) (sat : Sat) (d a : BitVec 8) (b : BitVec 6) (s0 : State) :
    Host.Outcome State Fault Refusal :=
  onWave g { vr := [a.toNat], vw := [d.toNat], sr := [b.toNat], pr := g.pregs } s0 fun h =>
    match s0.own h.w.core (s0.ctxOf h.w) with
    | none => .ok (h.await s0 .hidden)
    | some s =>
      if s.flipping h.w.core then .error (h.hazard s0)
      else
        let bank := s.bankOf h.w.core
        let hh := bits (h.s b) 0 32
        let k := bits (h.s b) 32 32
        let m := h.part g
        let daz := modeDaz h.w.mode
        let bad (l : Nat) : Option Nat := (actSegment daz (h.w.readV a.toNat l).toNat hh k).bind (s.badSegment h.w.core bank)
        let failing := (lanesOf m).filter fun l => (bad l).isSome
        if failing != [] then
          .error (.trap { h.report cMEMECC (lanesMask failing) with
            lanes := failing.map fun l => (l, BitVec.ofNat 64 (4096 * bank + (bad l).getD 0)) } s)
        else
          let mode := h.rnd rnd
          let z := nextZ mode h.f.z
          let out (l : Nat) := actF (howOf mode z l 1 0) daz (modeFtz h.w.mode) sat (s.coeff h.w.core bank)
            (h.w.readV a.toNat l).toNat hh k
          h.arith s m (fun l => (out l).2) z fun w => w.writeV d.toNat m fun l => BitVec.ofNat 32 (out l).1

/-- ACTFLIP (R176): it is issued, and its fragment stays until the flip. -/
def execActflip (s0 : State) : Host.Outcome State Fault Refusal :=
  onWave Guard.none {} s0 fun h =>
    match h.f.wait with
    | .flip _ => .ok s0
    | _ =>
      match s0.own h.w.core (s0.ctxOf h.w) with
      | none => .ok (h.await s0 .hidden)
      | some s =>
        let before := (s.copies.filter fun x => x.2.core == h.w.core && x.2.kind == .cpact).map (·.1)
        let s1 := { s with stores := { s.stores with flips := s.stores.flips ++ [(h.w.core, h.key, s.draw, before)] } }
        .ok (h.await s1.drawn (.flip s.draw))

/-- R176: a drain with .act that has not read its coefficients. -/
def MatOp.isActDrain (o : MatOp) : Bool :=
  match o.op with
  | .mdrain d => d.act
  | _ => false

/-- ACTIVATION_BANK_FLIP (R176): the oldest pending actflip of a core takes effect once nothing it waits for is left. -/
def execActivationBankFlip (core : Nat) (s : State) : Host.Outcome State Fault Refusal :=
  match s.stores.flips.find? fun x => x.1 == core with
  | none => .next s
  | some (_, w, t, before) =>
    let drains := s.seqs.any fun x => x.2.core == core && x.2.ops.any MatOp.isActDrain
    if before.any (fun k => (s.copies.get? k).isSome) || drains then .next s
    else
      let s1 := { s with stores := { s.stores with
        bank := s.stores.bank.write core (s.stores.bank.read core ^^^ 1)
        flips := s.stores.flips.filter fun x => !(x.2.1 == w && x.2.2.1 == t) } }
      .next (s1.returnFrom w (.flip t) 63 0)

end Sys2Proof.Machine
end

