-- ==== Sys2Proof/Machine/Group.lean ====
section
/-!
DEFINITION. Groups of a crew (R405 to R411), the parking area (R340), and the instructions qxfer and wprio (R402, R403).
-/
namespace Sys2Proof.Machine

/-- The least member of a 64-bit set. -/
def leastBit (m : BitVec 64) : BitVec 6 := BitVec.ofNat 6 (((List.range 64).find? fun i => m.getLsbD i).getD 0)

/-- R407: the group at crew start. -/
def Group.start (mask : BitVec 64) : Group := { members := mask, live := mask }

/-- R407: the phase completes when ARR covers a non-empty LIVE. -/
def Group.tryComplete (g : Group) : Group :=
  if g.live ≠ 0 ∧ g.live &&& ~~~g.arr = 0 then
    { g with ph := !g.ph, arr := 0, rand := g.vand, ror := g.vor, rsum := g.vsum, elected := leastBit g.arr,
             vand := BitVec.allOnes 64, vor := 0, vsum := 0 }
  else g

/-- R410: the first arrival of a wave in a phase, with its vote if it has one. -/
def Group.arrive (g : Group) (wid : Nat) (vote : Option W64) : Group :=
  if g.arr.getLsbD wid then g
  else
    let g1 := { g with arr := g.arr ||| (1#64) <<< wid }
    match vote with
    | some v => { g1 with vand := g1.vand &&& v, vor := g1.vor ||| v, vsum := g1.vsum + v }
    | none => g1

/-- R408: a member leaves LIVE and ARR; its vote stays. -/
def Group.leave (g : Group) (wid : Nat) : Group :=
  if g.live.getLsbD wid then
    ({ g with live := g.live &&& ~~~((1#64) <<< wid), arr := g.arr &&& ~~~((1#64) <<< wid) }).tryComplete
  else g

/-- R410: what a form writes at the return. -/
def Group.result (g : Group) : Instr → Option (BitVec 6 × W64)
  | .grpe d _ => some (d, g.elected.setWidth 64)
  | .grpvAnd d _ _ => some (d, g.rand)
  | .grpvOr d _ _ => some (d, g.ror)
  | .grpvAdd d _ _ => some (d, g.rsum)
  | _ => none

/-- R410: the destination written at the return of a form. -/
def Group.write (g : Group) (i : Instr) (side : Bool) (w : Wave) : Wave :=
  match g.result i with
  | some (d, v) => w.writeS side d.toNat v
  | none => w

/-- R407: a fragment that waits on the phase just completed goes on with its results. -/
def Wave.groupReturn (w : Wave) (side : Bool) (n : Nat) (g : Group) : Wave :=
  match w.frag side with
  | some f =>
    if f.wait = Wait.group n g.ph then
      match f.instr? with
      | some i =>
        let w1 := g.write i side w
        w1.setFrag side (some ((w1.frag side).getD f).advance)
      | none => w
    else w
  | none => w

/-- R407: the results of the last completed phase, as a release leaves them for a fragment that returns later. -/
def Group.ending (g : Group) : Ending := .group g.elected g.rand g.ror g.rsum

/-- The group whose results an ended wait returns with. -/
def Group.ended (g : Group) : Option Ending → Group
  | some (.group e a o s) => { g with elected := e, rand := a, ror := o, rsum := s }
  | _ => g

/-- R407: a fragment on the stack, saved or without its line is released too. -/
def Fragment.groupEnd (n : Nat) (g : Group) (f : Fragment) : Fragment :=
  if f.wait = Wait.group n g.ph ∧ f.ended = none then f.endWait g.ending else f

/-- R407: the completion releases every member waiting on the group; each return is an acquire at .crw (R410). -/
def State.groupRelease (s : State) (ck n : Nat) (g : Group) : State :=
  let hit (w : Wave) : Bool := w.crew == ck && w.status == .live && [w.fa, w.fb].any fun f => match f with
    | some f => f.wait == Wait.group n g.ph && f.instr?.isSome
    | none => false
  let s1 := { s with waves := s.waves.map fun x => if x.2.crew == ck then
             (x.1, ((if hit x.2 then (x.2.groupReturn false n g).groupReturn true n g else x.2)).mapFrags (Fragment.groupEnd n g)) else x }
  (s.waves.filter fun x => hit x.2).foldl (fun t x => x.2.frags.foldl (fun t f =>
    if f.wait = Wait.group n g.ph then t.acquire x.2.core f.id x.2.crew .crw else t) t) s1

/-- R408: a wave leaves its groups. -/
def State.leaveGroups (s : State) (ck wid : Nat) : State :=
  (s.crew ck).groups.foldl (fun s x =>
    let g := x.2.leave wid
    let s1 := s.setCrew ck fun c => { c with groups := c.groups.put x.1 g }
    if g.ph = x.2.ph then s1 else s1.groupRelease ck x.1 g) s

/-- R410, R411: the three group forms; `i` is the form itself. -/
def onGroup (i : Instr) (n : BitVec 8) (vote : Option (BitVec 6)) (s : State) : Host.Outcome State Fault Refusal :=
  onWave Guard.none { sr := vote.toList.map (·.toNat) } s fun h =>
    match (s.crew h.w.crew).groups.get? n.toNat with
    | none => .error (.trap (h.report cPROT) s)
    | some g =>
      if !g.members.getLsbD h.w.wid then .error (.trap (h.report cPROT) s)
      else
        match h.f.wait with
        | .group _ ph =>
          if g.ph == ph || h.f.ended.isSome then h.ok (h.acquire s .crw) ((g.ended h.f.ended).write i h.side) else .ok s
        | _ => do
          let g1 := (g.arrive h.w.wid (vote.map h.s)).tryComplete
          let s0 ← if g.arr.getLsbD h.w.wid then .ok s else h.release s .crw
          let s1 := s0.setCrew h.w.crew fun c => { c with groups := c.groups.put n.toNat g1 }
          if g1.ph == g.ph then .ok (h.await s1 (.group n.toNat (!g.ph)))
          else .ok ((h.done (h.acquire s1 .crw) (g1.write i h.side)).groupRelease h.w.crew n.toNat g1)

/-- GRPA (R410). -/
def execGrpa (g : BitVec 8) (s : State) : Host.Outcome State Fault Refusal := onGroup (.grpa g) g none s
/-- GRPE (R410): s_D receives the elected %wid. -/
def execGrpe (d : BitVec 6) (g : BitVec 8) (s : State) : Host.Outcome State Fault Refusal := onGroup (.grpe d g) g none s
/-- GRPV_AND (R410). -/
def execGrpvAnd (d a : BitVec 6) (g : BitVec 8) (s : State) : Host.Outcome State Fault Refusal :=
  onGroup (.grpvAnd d a g) g (some a) s
/-- GRPV_OR (R410). -/
def execGrpvOr (d a : BitVec 6) (g : BitVec 8) (s : State) : Host.Outcome State Fault Refusal :=
  onGroup (.grpvOr d a g) g (some a) s
/-- GRPV_ADD (R410). -/
def execGrpvAdd (d a : BitVec 6) (g : BitVec 8) (s : State) : Host.Outcome State Fault Refusal :=
  onGroup (.grpvAdd d a g) g (some a) s

/-- R340: record slots of a context. -/
def Ctx.ns (c : Ctx) : Nat := min 4096 (c.parkLen / 4096)

def alignUp (x a : Nat) : Nat := (x + a - 1) / a * a

/-- R340: room for `len` bytes in the rest of the parking area; the lowest place (DEDUCED, log 10). -/
def Ctx.room (c : Ctx) (len al : Nat) : Option Nat :=
  let lo := c.park + 1024 * c.ns
  ((alignUp lo al :: c.allocs.map fun a => alignUp (a.1 + a.2) al).filter fun a =>
    decide (lo ≤ a) && decide (a + len ≤ c.park + c.parkLen) && !c.allocs.any fun b => meets a len b.1 b.2).min?

/-- An area of the parking area taken. -/
def State.allocPark (s : State) (ctx len al : Nat) : Option (State × Nat) :=
  match (s.ctx ctx).room len al with
  | some a => some (s.setCtx ctx fun c => { c with allocs := (a, len) :: c.allocs }, a)
  | none => none

/-- An area given back. -/
def State.freePark (s : State) (ctx a : Nat) : State :=
  s.setCtx ctx fun c => { c with allocs := c.allocs.filter fun x => x.1 != a }

/-- The key of a wave of a crew. -/
def State.waveOf (s : State) (ck wid : Nat) : Option (Nat × Wave) := s.waves.find? fun x => x.2.crew == ck && x.2.wid == wid

/-- R402: a wave loses its top granules. -/
def Wave.shrink (w : Wave) (k : Nat) : Wave :=
  { w with gran := w.gran - k, v := w.v.clear (96 * (w.n - 16 * k)) (96 * (16 * k)),
           opbuf := w.opbuf.filter (· < w.n - 16 * k),
           bad := w.bad.filter fun c => !(3 * (w.n - 16 * k) ≤ c && c < 3 * w.n) }

/-- R402: the status of a qxfer that moves nothing, 0 if it moves. (DEDUCED, log 29.) -/
def Here.qxferStatus (h : Here) (s : State) (v : W64) (k : Nat) : Nat :=
  if bits v 6 58 != 0 then 3
  else
    match s.waveOf h.w.crew (bits v 0 6) with
    | none => 3
    | some (tk, t) =>
      if tk = h.key then 3
      else if t.status ≠ WStatus.live ∨ t.core ≠ h.w.core then 1
      else if 16 < t.gran + k then 2
      else if h.w.gran ≤ k then 4
      else if t.stack ≠ [] ∨ h.w.stack ≠ [] then 5
      else if ((s.freePark (s.ctxOf t) t.save).ctx (s.ctxOf t)).room (saveSize (t.gran + k)) 512 = none then 5
      else 0

/-- R402: the target's larger allocation and save area. -/
def State.grow (s : State) (tk k : Nat) : State :=
  match s.waves.get? tk with
  | some t =>
    match (s.freePark (s.ctxOf t) t.save).allocPark (s.ctxOf t) (saveSize (t.gran + k)) 512 with
    | some (s1, a) => s1.putWave tk { t with gran := t.gran + k, save := a }
    | none => s
  | none => s

/-- QXFER (R402). A geometric predicate on its way to a surrendered register keeps it back. -/
def execQxfer (d a : BitVec 6) (k : BitVec 4) (s : State) : Host.Outcome State Fault Refusal :=
  onWave Guard.none { sr := [a.toNat] } s fun h =>
    let st := h.qxferStatus s (h.s a) k.toNat
    if st = 0 then
      if s.stores.preds.any fun x => x.2.wave == h.key && h.w.n - 16 * k.toNat ≤ x.2.d then .error (h.hazard s)
      else
        match s.waveOf h.w.crew (bits (h.s a) 0 6) with
        | some (tk, _) => h.ok (s.grow tk k.toNat) fun w => (w.shrink k.toNat).writeS h.side d.toNat 0
        | none => .ok s
    else h.ok s fun w => w.writeS h.side d.toNat (BitVec.ofNat 64 st)

/-- WPRIO (R403). -/
def execWprio (d : BitVec 6) (e : BitVec 2) (s : State) : Host.Outcome State Fault Refusal :=
  onWave Guard.none {} s fun h =>
    h.ok s fun w => { w.writeS h.side d.toNat (h.w.level.setWidth 64) with level := e }

end Sys2Proof.Machine
end

