-- ==== Sys2Proof/Machine/Work.lean ====
section
/-!
DEFINITION. What all work of a launch shares: the kept packet (R361), the journal (R474), finish scopes (R378 to R380), records as
objects (R427, R428), and the ends of waves, instances, crews and launches (R372, R373, R382, R384).
-/
namespace Sys2Proof.Machine

/-- R377: a watched retry passes the faulting instruction on the core that faulted: the fault was transient. -/
def State.passes (s : State) (core : Nat) (watch : Option (W64 × Pc × Nat)) : State :=
  match watch with
  | some (_, _, k) => if k = core then s.count 4 else s
  | none => s

/-- R361: a field of the kept packet. -/
def Launch.pk (l : Launch) (off len : Nat) : Nat := bits l.packet (8 * off) (8 * len)

def Launch.entry (l : Launch) : Nat := l.pk 0x08 8
def Launch.seqPc (l : Launch) : Nat := l.pk 0x10 8
def Launch.crewsN (l : Launch) : Nat := l.pk 0x18 4
def Launch.wavesN (l : Launch) : Nat := l.pk 0x1C 1
def Launch.granN (l : Launch) : Nat := l.pk 0x1D 1
def Launch.astore (l : Launch) : Nat := l.pk 0x20 4
def Launch.fs (l : Launch) : Nat := l.pk 0x24 1
def Launch.compAddr (l : Launch) : Nat := if l.marker then l.pk 0x08 8 else l.pk 0x68 8
def Launch.compVal (l : Launch) : W64 := BitVec.ofNat 64 (if l.marker then l.pk 0x10 8 else l.pk 0x70 8)

/-- R398: context-0 work counts as priority 8. -/
def Launch.rank (l : Launch) : Nat := if l.ctx = 0 then 8 else l.prio

/-- R366: the launch protects its write set. -/
def Launch.protects (l : Launch) : Bool := l.st == .running || l.st == .draining || l.st == .replaying

/-- R474: an identifier in journal entries. -/
def lidOf (ctx q : Nat) (i : W64) : W64 := BitVec.ofNat 64 (ctx * 2 ^ 58 + q * 2 ^ 52 + i.toNat % 2 ^ 52)

/-- R474: the bytes of a journal entry. -/
def journalEntry (seq lid : W64) (ty flags die : Nat) (clk : W64) : List Byte :=
  leBytes 8 seq.toNat ++ leBytes 8 lid.toNat ++ leBytes 1 ty ++ leBytes 1 flags ++ leBytes 1 die ++ leBytes 5 0 ++
    leBytes 8 clk.toNat

/-- R470, R474: an entry is written while JBASE is set. -/
def State.journal (s : State) (lid : W64) (ty flags die : Nat) : State :=
  if s.health.jbase = 0 then s
  else
    let q := s.health.jhead
    let s1 := s.putBytes (s.health.jbase.toNat + 32 * (q.toNat % 2048)) (journalEntry q lid ty flags die s.clk)
    { s1 with health := { s1.health with jhead := q + 1 } }

/-- R436, R474: an entry for a launch or marker; fault tasks write none. -/
def State.journalOf (s : State) (l : Launch) (ty : Nat) (killed : Bool := false) : State :=
  if l.task.isSome then s
  else s.journal l.lid ty ((if l.marker then 1 else 0) + (if killed then 2 else 0) + (if l.nonReplay then 4 else 0) +
    (if l.auditMark then 8 else 0)) l.die

/-- R378: COUNT, STATE (0 closed, 1 open, 2 closing) and PARENT of a scope. -/
def State.scope (s : State) (ctx n : Nat) : Nat × Nat × Nat :=
  let a := (s.ctx ctx).fstab + 16 * n
  (s.getNat a 4, s.getNat (a + 4) 1, s.getNat (a + 5) 1)

def State.putScope (s : State) (ctx n count st parent : Nat) : State :=
  s.putBytes ((s.ctx ctx).fstab + 16 * n) (leBytes 4 count ++ leBytes 1 st ++ leBytes 1 parent)

/-- R379: a hold added. -/
def State.hold (s : State) (ctx n : Nat) : State :=
  if n = 0 then s
  else
    let (c, st, p) := s.scope ctx n
    s.putScope ctx n (c + 1) st p

/-- R381: a fragment that waits on a scope, on its core or saved. -/
def Wave.onScope (w : Wave) (n : Nat) : Bool := w.frags.any fun f => f.wait == Wait.scope n

/-- R380: the wait of a fragment on a scope ends; one without its line, or saved, returns when it issues. -/
def Fragment.offScope (live : Bool) (n : Nat) (f : Fragment) : Fragment :=
  if f.wait = Wait.scope n then (if live && f.fetched then f.advance else f.endWait .plain) else f

/-- R380: what a scope that becomes closed releases, in one step: awaiting launches, and every fswait, whose return is an
acquire at .sys. -/
def State.releaseScope (s : State) (ctx n : Nat) : State :=
  let hit (w : Wave) : Bool := w.onScope n && s.ctxOf w == ctx
  let back := s.waves.flatMap fun x => if hit x.2 ∧ x.2.status = .live then
    (x.2.frags.filter fun f => f.wait == Wait.scope n && f.fetched).map fun f => (x.2.core, f.id, x.2.crew) else []
  let s1 := { s with
    launches := s.launches.map fun x =>
      if x.2.ctx == ctx && x.2.st == .waiting && x.2.awaits.contains n then
        let aw := x.2.awaits.filter (· != n)
        (x.1, { x.2 with awaits := aw, st := if aw = [] && !x.2.parked then .ready else .waiting })
      else x
    waves := s.waves.map fun x => if hit x.2 then
        (x.1, x.2.mapFrags (Fragment.offScope (x.2.status == .live) n)) else x }
  back.foldl (fun s x => s.acquire x.1 x.2.1 x.2.2 .sys) s1

/-- R379: a hold removed; a closing scope without holds becomes closed and gives up its hold on its parent. -/
def State.unholdFrom (ctx : Nat) : Nat → State → Nat → State
  | 0, s, _ => s
  | k + 1, s, n =>
    if n = 0 then s
    else
      let (c, st, p) := s.scope ctx n
      let c' := (c + 2 ^ 32 - 1) % 2 ^ 32
      if st = 2 ∧ c' = 0 then State.unholdFrom ctx k ((s.putScope ctx n 0 0 p).releaseScope ctx n) p
      else s.putScope ctx n c' st p

def State.unhold (s : State) (ctx n : Nat) : State := State.unholdFrom ctx 256 s n

/-- R367: the launch of the executing wave becomes non-replayable. -/
def Here.marked (h : Here) (s : State) : State := s.setLaunch (s.crew h.w.crew).launch fun l => { l with nonReplay := true }

/-- Key of a record: its context and its slot. -/
def recKey (owner slot : Nat) : Nat := 4096 * owner + slot

/-- R340: address of a record. -/
def State.recPa (s : State) (key : Nat) : Nat := (s.ctx (key / 4096)).park + 1024 * (key % 4096)

/-- R427: generation of a slot. -/
def State.recGen (s : State) (key : Nat) : W32 := (s.ctx (key / 4096)).gens.read (key % 4096)

/-- R429: STATE in the header of a record. -/
def State.setRecState (s : State) (key : Nat) (st : Nat) : State :=
  let pa := s.recPa key
  s.putBytes (pa + 1) [BitVec.ofNat 8 (s.getNat (pa + 1) 1 / 4 * 4 + st)]

/-- R428: a fault task that has not dispatched is withdrawn. -/
def State.withdraw (s : State) (t : Option Nat) : State :=
  match t with
  | some k => s.setLaunch k fun l =>
      if l.st = LState.ready ∨ l.st = LState.dispatching then { l with st := .killed, done := true } else l
  | none => s

/-- R428: a record is disposed: its slot is free, its hold is gone. -/
def State.closeRecord (s : State) (key : Nat) : State :=
  match s.records.get? key with
  | some r =>
    let s1 := { s.setRecState key 2 with records := s.records.erase key }
    (s1.unhold r.ctx r.fs).withdraw r.task
  | none => s

/-- A copy is over: nothing waits for it any more. -/
def State.eraseCopy (s : State) (k : Nat) : State :=
  { s with copies := s.copies.erase k,
           stores := { s.stores with flips := s.stores.flips.map fun x => (x.1, x.2.1, x.2.2.1, x.2.2.2.filter (· != k)) } }

/-- R382: a wave is freed: slot, granules and save area, its place in its groups and what it has pending. -/
def State.freeWave (s : State) (k : Nat) : State :=
  match s.waves.get? k with
  | some w =>
    let s1 := (s.leaveGroups w.crew w.wid).freePark (s.ctxOf w) w.save
    { s1 with
      waves := s1.waves.erase k
      spoilt := s1.spoilt.filter (· != k)
      copies := s1.copies.map fun x => (x.1, if x.2.wave = some k then { x.2 with wave := none } else x.2)
      stores := { s1.stores with preds := s1.stores.preds.filter fun x => x.2.wave != k,
                                 flips := s1.stores.flips.filter fun x => x.2.1 != k } }
  | none => s

/-- R283: an instance is finished. -/
def State.freeInst (s : State) (k : Nat) : State :=
  match s.seqs.get? k with
  | some i =>
    let s1 := s.freePark (s.launch (s.crew i.crew).launch).ctx i.save
    { s1 with
      seqs := s1.seqs.erase k
      copies := s1.copies.map fun x => (x.1, if x.2.track = .seq k then { x.2 with track := .act } else x.2)
      link := { s1.link with
        qps := s1.link.qps.map fun x => (x.1, { x.2 with sends := x.2.sends.map fun o => if o.inst = some k then { o with inst := none } else o })
        held := s1.link.held.map fun x => (x.1, x.2.1, if x.2.2.inst = some k then { x.2.2 with inst := none } else x.2.2) } }
  | none => s

/-- A link operation that places into, or counts in, the crew's run. -/
def LinkOpn.uses (o : LinkOpn) (ck : Nat) : Bool := o.launch.isSome && o.crew == ck && (o.sp || o.bar.isSome)

/-- R218, R384: work that keeps a crew's run: its waves and instances, and what they left under way. (DEDUCED, log 40.) -/
def State.crewBusy (s : State) (ck : Nat) : Bool :=
  (s.waves.any fun x => x.2.crew == ck) || (s.seqs.any fun x => x.2.crew == ck) ||
    (s.copies.any fun x => x.2.crew == ck) ||
    s.link.qps.any fun x => (x.2.sends ++ x.2.recvs).any fun o => o.uses ck

/-- A crew is gone: its run is free (R260), and cores that its context has left are cleared (R257). -/
def State.dropCrew (s : State) (ck : Nat) : State :=
  match s.crews.get? ck with
  | some c =>
    let ctx := (s.launch c.launch).ctx
    let s1 := match c.space with
      | some a => s.freePark ctx a
      | none => s
    { s1 with crews := s1.crews.erase ck }.tidyCluster c.clus
  | none => s

/-- R368: a running launch whose every crew has ended drains. -/
def State.drains (s : State) (key : Nat) (l : Launch) : Bool :=
  l.st == .running && l.placed == l.crewsN && !s.crews.any fun x => x.2.launch == key

/-- Crews without work end, and their launches drain. -/
def State.sweep (s : State) : State :=
  let s1 := ((s.crews.filter fun x => !s.crewBusy x.1).map (·.1)).foldl (fun s k => s.dropCrew k) s
  { s1 with launches := s1.launches.map fun x => if s1.drains x.1 x.2 then (x.1, { x.2 with st := .draining }) else x }

/-- The launch of some work. -/
def State.workLaunch (s : State) : Work → Option Nat
  | .wave w => (s.waves.get? w).map fun x => (s.crew x.crew).launch
  | .inst i => (s.seqs.get? i).map fun x => (s.crew x.crew).launch
  | .seg c _ => (s.copies.get? c).map (·.launch)
  | .link qp send n => match s.link.qps.get? qp with
    | some q => ((if send then q.sends else q.recvs).find? fun o => o.n == n).bind (·.launch)
    | none => none
  | .held k => (s.link.held.get? k).bind (·.2.launch)
  | .launch l => some l
  | _ => none

/-- The launch of detached work. -/
def State.detLaunch (s : State) (d : Detached) : Option Nat := (s.workLaunch d.work).orElse fun _ => d.owner

/-- R453: operations of a queue pair that end with a status. -/
def Qp.finishOps (q : Qp) (p : LinkOpn → Bool) (st : Nat) : Qp :=
  { q with
    sends := q.sends.filter fun o => !p o
    recvs := q.recvs.filter fun o => !p o
    finished := ((q.sends.filter p).map fun (o : LinkOpn) => (true, o.n, st, 0#32)) ++
      ((q.recvs.filter p).map fun (o : LinkOpn) => (false, o.n, st, 0#32)) ++ q.finished }

/-- R372, steps 1 and 2: every wave, instance, copy and link operation of a launch is killed, its records disposed, its runs freed; what
it has written is performed. -/
def State.stopLaunch (s0 : State) (l : Nat) : State :=
  let s := s0.settle fun p => p.who == some l
  let gone := s.detached.filter fun d => s.detLaunch d != some l || d.work == .launch l
  let recs : List Nat := (s.records.filter fun x => x.2.launch == some l).map (·.1)
  let s1 := recs.foldl (fun s k => s.closeRecord k) { s with detached := gone }
  let mine (ck : Nat) : Bool := (s1.crew ck).launch == l && (s1.crews.get? ck).isSome
  let s2 := ((s1.waves.filter fun x => mine x.2.crew).map (·.1)).foldl (fun s k => s.freeWave k) s1
  let s3 := ((s2.seqs.filter fun x => mine x.2.crew).map (·.1)).foldl (fun s k => s.freeInst k) s2
  let s4 := ((s3.copies.filter fun x => x.2.launch == l).map (·.1)).foldl (fun s k => s.eraseCopy k) s3
  let s5 := { s4 with link := { s4.link with
      qps := s4.link.qps.map fun x => (x.1, x.2.finishOps (fun o => o.launch == some l) 2)
      held := s4.link.held.filter fun x => x.2.2.launch != some l } }
  let cks : List Nat := (s5.crews.filter fun x => x.2.launch == l).map (·.1)
  let s6 : State := cks.foldl (fun s k => s.dropCrew k) s5
  { s6 with samples := s6.samples.filter fun x => x.2.launch != l }

/-- R373: nothing of a launch is under way any more. -/
def State.launchIdle (s : State) (l : Nat) : Bool :=
  !(s.copies.any fun x => x.2.launch == l) && !(s.records.any fun x => x.2.launch == some l) &&
    !(s.crews.any fun x => x.2.launch == l) && !(s.detached.any fun d => s.detLaunch d == some l) &&
    !(s.samples.any fun x => x.2.launch == l) && !(s.mem.posts.any fun p => p.who == some l) && !(s.link.held.any fun x => x.2.2.launch == some l) &&
    !s.link.qps.any fun x => (x.2.sends ++ x.2.recvs).any fun o => o.launch == some l

end Sys2Proof.Machine
end

