-- ==== Sys2Proof/Machine/Copy.lean ====
section
/-!
DEFINITION. Class 0x9: copies, their segments, batches and range locks (R214 to R225).
-/
namespace Sys2Proof.Machine

/-- Where one side of a copy lies. -/
inductive Side where
  | glob | loc | wst | tab
  deriving DecidableEq, Repr

/-- R290: the copy that a scpy acts as. -/
def Copy.as (c : Copy) : CKind :=
  match c.kind with
  | .scpy => match c.scpy with
    | .toA => .cpy
    | .fromA => .cpys
    | .toW => .cpyw
    | .toWSparse => .cpywSparse
  | k => k

def Copy.srcSide (c : Copy) : Side := if c.as = CKind.cpys then .loc else .glob

def Copy.dstSide (c : Copy) : Side :=
  match c.as with
  | .cpy => .loc
  | .cpys | .cpyg => .glob
  | .cpact => .tab
  | _ => .wst

def Copy.sparse (c : Copy) : Bool := c.as == .cpywSparse

/-- R220: bytes of a source group of 32 elements. -/
def Copy.groupLen (c : Copy) : Nat := 4 * c.ty.width

/-- R215, R220: bytes of the destination range; for a sparse copy the largest possible output. -/
def Copy.dstLen (c : Copy) : Nat :=
  if c.sparse then (c.len + c.groupLen - 1) / c.groupLen * (4 + c.groupLen) else c.len

/-- R216: the segments, as offset and length. The output of a sparse copy has no place of its own yet: its source alone cuts. -/
def cutSegs (src dst : Nat) (sparse : Bool) (len : Nat) : Nat → Nat → List (Nat × Nat)
  | 0, _ => []
  | k + 1, off =>
    if len ≤ off then []
    else
      let n := min (len - off) (min (1024 - (src + off) % 1024) (if sparse then 1024 else 1024 - (dst + off) % 1024))
      (off, n) :: cutSegs src dst sparse len k (off + n)

/-- DEDUCED, log 30. -/
def Copy.segs (c : Copy) : List (Nat × Nat) := cutSegs c.src c.dst c.sparse c.len (2 * (c.len / 1024) + 4) 0

/-- Offset and length of a segment. -/
def Copy.seg (c : Copy) (i : Nat) : Nat × Nat := c.segs.getD i (0, 0)

/-- R220, R434: source and destination of a segment as the copy has them; a sparse copy writes on from where its output stands. -/
def Copy.place (c : Copy) (i : Nat) : Nat × Nat := (c.src + (c.seg i).1, c.dst + (if c.sparse then c.outp else (c.seg i).1))

/-- R434: source and destination of a segment, patched or not. -/
def Copy.segAt (c : Copy) (i : Nat) : Nat × Nat := (c.patched.get? i).getD (c.place i)

/-- R217: the segments run one at a time, and whether they descend. -/
def Copy.serial (c : Copy) : Option Bool :=
  if c.sparse then some false
  else if c.kind = CKind.cpyg ∧ meets c.src c.len c.dst c.len then some (decide (c.src < c.dst))
  else none

/-- R217: a segment may run now. Where segments run one at a time, those after a parked one wait for its disposition. (DESIGN CHOICE, log 52.) -/
def Copy.turnOf (c : Copy) (i : Nat) : Bool :=
  match c.serial with
  | none => true
  | some false => (List.range i).all fun j => c.done.contains j
  | some true => (List.range (c.segs.length - i - 1)).all fun j => c.done.contains (i + 1 + j)

/-- R215: what is wrong with a range: cause and address. -/
def sideBad (crew : Crew) (l : Launch) (sd : Side) (a n : Nat) : Option (W64 × Nat) :=
  match sd with
  | .glob => if 2 ^ 56 < a + n ∨ 2 ^ 56 ≤ a then some (cPAGE, a) else none
  | .loc => if !crew.holds a n || (n != 0 && crew.inOpenWin l a n) then some (cPROT, a) else none
  | .wst => if 2 ^ 18 < a + n then some (cPROT, a) else none
  | .tab => if 8192 < a + n then some (cPROT, a) else none

/-- R215: the whole check at issue. -/
def Copy.issueBad (c : Copy) (crew : Crew) (l : Launch) : Option (W64 × Nat) :=
  let src := sideBad crew l c.srcSide c.src c.len
  let dst := if c.kind = CKind.cpact then none else sideBad crew l c.dstSide c.dst c.dstLen
  let page (x : Option (W64 × Nat)) : Option (W64 × Nat) := x.filter fun y => y.1 == cPAGE
  ((page src).orElse fun _ => (page dst).orElse fun _ => src.orElse fun _ => dst).orElse fun _ =>
    match c.track with
    | .bar off => if off % 16 ≠ 0 then some (cMISAL, off) else if !crew.holds off 16 then some (cPROT, off) else none
    | _ => none

/-- R221: the ranges that a copy locks. -/
def Copy.locks (c : Copy) : Nat := ([c.globSrc, c.globDst, c.locSrc, c.locDst].filter Option.isSome).length

/-- R215: the copy queue of a core is full, or the range-lock table of its cluster has no room for the copy. (DESIGN CHOICE, log 19.) -/
def State.copyFull (s : State) (core : Nat) (c : Copy) : Bool :=
  let used := ((s.copies.filter fun x => x.2.core / 8 == core / 8).map fun x => x.2.locks).sum
  decide (Config.copyQueue ≤ (s.copies.filter fun x => x.2.core == core).length) ||
    (used != 0 && decide (Config.rangeLocks < used + c.locks))

/-- R217, R228: a copy joins the copy engine; it sees every store that the named fragment must see. -/
def State.addCopy (s : State) (c : Copy) (by_ : Option Nat := none) : State :=
  { s with
    copies := s.copies.put s.copies.nextKey { c with id := s.draw }
    draw := s.draw + 1
    mem := { s.mem with posts := match by_ with
      | some f => s.mem.posts.map fun p => if p.seenBy f then { p with obs := p.obs ++ [s.draw] } else p
      | none => s.mem.posts } }

/-- R214, R215: a copy of a wave. -/
def Here.copy (h : Here) (s : State) (c0 : Copy) : Except Abort State :=
  let crew := s.crew h.w.crew
  let l := s.launchOf h.w
  let c := { c0 with core := h.w.core, ctx := l.ctx, launch := crew.launch, crew := h.w.crew, wave := some h.key,
                     slot := h.w.slot, wid := h.w.wid, pc := h.f.pc }
  match c.issueBad crew l with
  | some (x, a) =>
    if x = cMISAL then .error (.trap (h.lanesReport x h.f.mask fun _ => BitVec.ofNat 64 a) s)
    else .error (.trap { h.report x with faddr := BitVec.ofNat 64 a } s)
  | none =>
    if c.len = 0 then h.ok s id
    else if s.copyFull h.w.core c then .error (h.hazard s)
    else if c.inCore then
      match s.own h.w.core l.ctx with
      | some s1 =>
        let b := 1 - s1.bankOf h.w.core
        h.ok (s1.addCopy (if c.kind = CKind.cpact then { c with bank := b, dst := 4096 * b } else c) (some h.f.id)) id
      | none => .error (.hold (h.await s .hidden))
    else h.ok (s.addCopy c (some h.f.id)) id

/-- The registers that a copy form reads, and the copy it asks for. -/
def copyForm (o : Cpy) (kind : CKind) (ty : Ty) (s : State) : Host.Outcome State Fault Refusal :=
  onWave Guard.none { sr := [o.d.toNat, o.a.toNat, o.b.toNat] ++ o.bar.toList.map (·.toNat) } s fun h =>
    if h.f.mask = 0 then h.ok s id
    else h.copy s { kind, ty, src := (h.s o.a).toNat, dst := (h.s o.d).toNat, len := bits (h.s o.b) 0 32,
                    track := match o.bar with
                      | some c => .bar (h.s c).toNat
                      | none => .batch h.w.openB }

/-- CPY (R214). -/
def execCpy (o : Cpy) (s : State) : Host.Outcome State Fault Refusal := copyForm o .cpy .none s
/-- CPYS (R214). -/
def execCpys (o : Cpy) (s : State) : Host.Outcome State Fault Refusal := copyForm o .cpys .none s
/-- CPYG (R214). -/
def execCpyg (o : Cpy) (s : State) : Host.Outcome State Fault Refusal := copyForm o .cpyg .none s
/-- CPYW (R214, R220). -/
def execCpyw (o : Cpy) (sparse : Option Ty) (s : State) : Host.Outcome State Fault Refusal :=
  match sparse with
  | some t => copyForm o .cpywSparse t s
  | none => copyForm o .cpyw .none s

/-- CPACT (R225). -/
def execCpact (a : BitVec 6) (s : State) : Host.Outcome State Fault Refusal :=
  onWave Guard.none { sr := [a.toNat] } s fun h =>
    if h.f.mask = 0 then h.ok s id
    else h.copy s { kind := .cpact, src := (h.s a).toNat, len := 4096, track := .batch h.w.openB }

/-- CPCOMMIT (R222). (DEDUCED, log 27.) -/
def execCpcommit (d : BitVec 6) (s : State) : Host.Outcome State Fault Refusal :=
  onWave Guard.none {} s fun h =>
    if h.f.mask = 0 then h.ok s id
    else h.ok s fun w =>
      { w.writeS h.side d.toNat (h.w.openB.setWidth 64) with lastB := h.w.openB, openB := h.w.openB + 1 }

/-- R222: batch m is at or before n. -/
def batchBefore (m n : W32) : Bool := (n - m).toNat < 2 ^ 31

/-- R222: every batch of a wave at or before n is complete. -/
def State.batchDone (s : State) (wave : Nat) (n : W32) : Bool :=
  !s.copies.any fun x => x.2.wave == some wave && match x.2.track with
    | .batch m => batchBefore m n
    | _ => false

/-- CPWAIT (R222, R223): its return is an acquire at .crw. -/
def execCpwait (a : BitVec 6) (s : State) : Host.Outcome State Fault Refusal :=
  onWave Guard.none { sr := [a.toNat] } s fun h =>
    match h.f.wait with
    | .batch n => if s.batchDone h.key n then h.ok (h.acquire s .crw) id else .ok s
    | _ =>
      if h.f.mask = 0 then h.ok s id
      else
        let n0 : W32 := (h.s a).setWidth 32
        let n := if batchBefore n0 h.w.lastB then n0 else h.w.lastB
        if s.batchDone h.key n then h.ok (h.acquire s .crw) id else .ok (h.await s (.batch n))

/-- What a side of a segment meets (R218). -/
inductive SegCheck where
  | ok (a : Nat)
  | bad (c : W64) (a : Nat)
  | wait
  | absent
  deriving DecidableEq, Repr

/-- R218: one side of a segment, checked before any byte moves; a patched range is checked under R215 again (R434). -/
def State.segSide (s : State) (c : Copy) (sd : Side) (write : Bool) (a n : Nat) (patched : Bool) : State × SegCheck :=
  match if patched then sideBad (s.crew c.crew) (s.launch c.launch) sd a n else none with
  | some (x, f) => (s, .bad x f)
  | none =>
    match sd with
    | .glob =>
      match s.translate c.core c.ctx a (if write then .write else .read) with
      | (s1, .error .absent) => (s1, .absent)
      | (s1, .error .snapshot) => (s1, .wait)
      | (s1, .error .page) => (s1, .bad cPAGE a)
      | (s1, .error .prot) => (s1, .bad cPROT a)
      | (s1, .error .memecc) => (s1.countWalks c.ctx [a], .bad cMEMECC a)
      | (s1, .ok pa) =>
        if write then
          if s1.inWset (s1.launch c.launch) c.core a then (s1, .ok pa) else (s1, .bad cWSET a)
        else
          match (linesOf pa n).find? fun l => s1.poisoned l with
          | some l =>
            let s2 := s1.consume (max pa (128 * l)) (some (c.core, c.ctx, a))
            (s2, if s1.walksAgain c.core c.ctx [⟨a, pa, n⟩] then .wait else .bad cMEMECC (a + (max pa (128 * l) - pa)))
          | none => (s1, .ok pa)
    | .loc =>
      match if write then none else (wordsOf a n).find? (s.badWord (c.core / 8)) with
      | some w => (s, .bad cMEMECC (4 * w))
      | none => (s, .ok a)
    | _ => (s, .ok a)

/-- R220: one group in its compressed form. -/
def packGroup (w : Nat) (l : List Byte) : List Byte :=
  let elem (i : Nat) : Nat := leNat l / 2 ^ (w * i) % 2 ^ w
  let present := (List.range 32).filter fun i => elem i != 0
  let mask := present.foldl (fun m i => m + 2 ^ i) 0
  let packed := (present.zipIdx).foldl (fun n x => n + elem x.1 * 2 ^ (w * x.2)) 0
  leBytes 4 mask ++ leBytes (alignUp (w * present.length) 32 / 8) packed

/-- R220: the whole groups of a stream of bytes, packed, and the bytes left over; a short last group is filled with zeros. -/
def packStream (w : Nat) (last : Bool) : Nat → List Byte → List Byte × List Byte
  | 0, l => ([], l)
  | k + 1, l =>
    if l.length < 4 * w then (if last ∧ l ≠ [] then (packGroup w l, []) else ([], l))
    else
      let r := packStream w last k (l.drop (4 * w))
      (packGroup w (l.take (4 * w)) ++ r.1, r.2)

/-- Bytes written to the W-store of a core; words written whole become correct (R258). -/
def State.putW (s : State) (core a : Nat) (l : List Byte) : State :=
  { s with stores := { s.stores with
      wstore := s.stores.wstore.update (2 ^ 18 * core + a) l.length fun k => l.getD (k - (2 ^ 18 * core + a)) 0
      bad := s.stores.bad.filter fun b => !(b.1 == 1 && b.2 / 2 ^ 15 == core &&
        a ≤ 8 * (b.2 % 2 ^ 15) && 8 * (b.2 % 2 ^ 15) + 8 ≤ a + l.length) } }

/-- Bytes written to the activation banks of a core. -/
def State.putAct (s : State) (core a : Nat) (l : List Byte) : State :=
  { s with stores := { s.stores with
      act := s.stores.act.update (2 ^ 13 * core + a) l.length fun k => l.getD (k - (2 ^ 13 * core + a)) 0
      bad := s.stores.bad.filter fun b => !(b.1 == 2 && b.2 / 2 ^ 10 == core &&
        a ≤ 8 * (b.2 % 2 ^ 10) && 8 * (b.2 % 2 ^ 10) + 8 ≤ a + l.length) } }

/-- R219, R232: bytes of a segment reach its destination, after the stores that come before the copy. -/
def State.segPut (s : State) (c : Copy) (a : Nat) (l : List Byte) : State :=
  match c.dstSide with
  | .glob => ((s.settleOver c.id [⟨a, a, l.length⟩]).putBytes a l).noteWrite (some c.launch) a l.length
  | .loc => (s.putA (c.core / 8) a l.length (bytesFn a l)).wake
  | .tab => s.putAct c.core a l
  | .wst => s.putW c.core a l

/-- R219, R220: the bytes of a segment that are not written yet reach its destination. -/
def State.segWrite (s : State) (key : Nat) (c : Copy) (i : Nat) (m : Moving) : State :=
  if c.sparse then
    let (out, rest) := packStream c.ty.width (i + 1 == c.segs.length) (m.data.length + 1) (c.rest ++ m.data)
    let s1 := s.segPut c m.dst out
    { s1 with copies := s1.copies.put key { c with outp := c.outp + out.length, rest := rest } }
  else if m.mask = 0 then s.segPut c m.dst m.data
  else m.data.zipIdx.foldl (fun s x => if m.mask.testBit x.2 then s else s.segPut c (m.dst + x.2) [x.1]) s

/-- R221, R222, R224: a segment is over; the last one ends the copy, before the subtraction becomes visible. (DEDUCED, log 30.) -/
def State.finishSeg (s : State) (key i : Nat) : State :=
  match s.copies.get? key with
  | none => s
  | some c0 =>
    let c := { c0 with done := i :: c0.done, parked := c0.parked.filter (· != i), moved := c0.moved.erase i }
    let last := c.done.length == c.segs.length
    let s1 := if last then s.eraseCopy key else { s with copies := s.copies.put key c }
    let s2 := match c.track with
      | .bar off => s1.barSub (c.core / 8) off (c.seg i).2
      | _ => s1
    if last then (s2.tidyCore c.core).sweep else s2

/-- R434: the copy-segment part of a record. -/
def Copy.body (c : Copy) (i : Nat) : List Byte :=
  let (src, dst) := c.segAt i
  leBytes 8 src ++ leBytes 8 dst ++ leBytes 4 (c.seg i).2 ++ leBytes 2 i ++
    leBytes 1 (match c.kind with
      | .cpy => 0 | .cpys => 1 | .cpyg => 2 | .cpyw => 3 | .cpywSparse => 4 | .cpact => 5 | .scpy => 6) ++
    leBytes 1 (match c.track with | .bar _ => 1 | .batch _ => 2 | _ => 0) ++
    leBytes 8 (match c.track with | .bar off => off | .batch n => n.toNat | _ => 0) ++
    leBytes 8 c.src ++ leBytes 8 c.dst ++ leBytes 4 c.len

/-- R218: a segment adjourns alone. -/
def State.parkSeg (s : State) (key i : Nat) (c : Copy) (x : W64) (a : Nat) : State :=
  { s with
    copies := s.copies.put key { c with parked := i :: c.parked }
    detached := s.detached ++ [{ work := .seg key i, ctx := c.ctx, die := c.core / 512, report := {
      causes := x, pc := c.pc.setWidth 64, faddr := BitVec.ofNat 64 a, body := c.body i } }] }

/-- R258: the barrier object of a copy cannot be read. (DEDUCED, log 30.) -/
def State.badBar (s : State) (c : Copy) : Option Nat :=
  match c.track with
  | .bar off => ((wordsOf off 16).find? (s.badWord (c.core / 8))).map (4 * ·)
  | _ => none

/-- R217, R229, R231: a segment reads its source, with the stores that its copy must see and those that it happens to meet. -/
def State.segRead (s : State) (c : Copy) (va p n : Nat) : State × List Byte :=
  if c.srcSide = Side.loc then (s, s.getA (c.core / 8) p n)
  else
    let ps : List Piece := [⟨va, p, n⟩]
    let s1 := s.settleOver c.id ps
    let gs := s1.glimpses c.core c.id ps []
    let l := seenPieces gs ps (s1.getBytes p n)
    let s2 := (s1.sawPosts c.id ps gs).settle fun (x : Post) => gs.any fun g => g.mask.isNone && g.post.tok == x.tok
    (s2, l)

/-- R257: a segment that writes a store of its core. -/
def State.segOwn (s : State) (c : Copy) : Option State := if c.inCore then s.own c.core c.ctx else some s

/-- R218: a segment before it writes: both sides are checked and its source is read, once. -/
def State.segStart (s : State) (key i : Nat) (c : Copy) : Except (Host.Outcome State Fault Refusal) (State × Moving) :=
  match c.moved.get? i with
  | some m => .ok (s, m)
  | none =>
    let (sa, da) := c.segAt i
    let n := (c.seg i).2
    let out := if c.sparse then (c.rest.length + n) / c.groupLen * (4 + c.groupLen) + (4 + c.groupLen) else n
    let patched := (c.patched.get? i).isSome
    match s.segOwn c with
    | none => .error (.next s)
    | some s0 =>
      let (s1, r) := s0.segSide c c.srcSide false sa n patched
      let (s2, w) := s1.segSide c c.dstSide true da (if c.sparse then min out c.dstLen else n) patched
      match r, w, s2.badBar c with
      | .absent, _, _ | _, .absent, _ => .error (.fault .noMemory)
      | .bad x a, _, _ => .error (.next (s2.parkSeg key i c x a))
      | _, .bad x a, _ => .error (.next (s2.parkSeg key i c x a))
      | _, _, some off => .error (.next (s2.parkSeg key i c cMEMECC off))
      | .wait, _, _ | _, .wait, _ => .error (.next s2)
      | .ok p, .ok q, none =>
        let (s3, l) := s2.segRead c sa p n
        .ok (s3, { dst := q, data := l })

/-- R218: one segment is over. -/
def State.runSeg (s : State) (key i : Nat) (c : Copy) : Host.Outcome State Fault Refusal :=
  match s.segStart key i c with
  | .error r => r
  | .ok (s1, m) => .next ((s1.segWrite key c i m).finishSeg key i)

/-- A segment of a copy may run now. -/
def State.segDue (s : State) (c : Copy) (seg : Nat) : Bool :=
  decide (seg < c.segs.length) && !c.done.contains seg && !c.parked.contains seg && c.turnOf seg && (s.crew c.crew).space.isNone

/-- COPY_SEGMENT (R216 to R224). -/
def execCopySegment (copy seg : Nat) (s : State) : Host.Outcome State Fault Refusal :=
  match s.copies.get? copy with
  | none => .next s
  | some c => if s.segDue c seg then s.runSeg copy seg c else .next s

/-- R229, R250: some bytes of a segment, those that a mask names, are written before the others. (DESIGN CHOICE, log 3.) -/
def State.copyBytes (s : State) (copy seg mask : Nat) : Host.Outcome State Fault Refusal :=
  match s.copies.get? copy with
  | none => .next s
  | some c =>
    if !s.segDue c seg || c.serial.isSome then .next s
    else
      match s.segStart copy seg c with
      | .error r => r
      | .ok (s1, m) =>
        let full := 2 ^ m.data.length - 1
        let s2 := s1.segWrite copy c seg { m with mask := m.mask ||| (full ^^^ (mask &&& full)) }
        .next { s2 with copies := s2.copies.put copy { c with moved := c.moved.put seg { m with mask := m.mask ||| (mask &&& full) } } }

/-- R330: pending stores that `p` names, and the segments that have begun to write of copies that `q` names, are performed. -/
def State.finish (s : State) (p : Post → Bool) (q : Copy → Bool) : State :=
  let s1 := s.settle p
  (s1.copies.filter fun x => q x.2).foldl (fun s x => x.2.moved.foldl (fun s y => (s.segWrite x.1 x.2 y.1 y.2).finishSeg x.1 y.1) s) s1

/-- Everything that has begun is performed. -/
def State.finishAll (s : State) : State := s.finish (fun _ => true) fun _ => true

end Sys2Proof.Machine
end

