-- ==== Sys2Proof/Machine/Keccak.lean ====
section
/-!
DEFINITION. SHAKE256 (FIPS 202), with which the firmware measures its images (R480), for outputs of one block.
-/
namespace Sys2Proof.Machine

/-- Round constants of Keccak-f[1600]. -/
def keccakRC : List W64 :=
  [0x0000000000000001, 0x0000000000008082, 0x800000000000808A, 0x8000000080008000, 0x000000000000808B, 0x0000000080000001,
   0x8000000080008081, 0x8000000000008009, 0x000000000000008A, 0x0000000000000088, 0x0000000080008009, 0x000000008000000A] ++
  [0x000000008000808B, 0x800000000000008B, 0x8000000000008089, 0x8000000000008003, 0x8000000000008002, 0x8000000000000080,
   0x000000000000800A, 0x800000008000000A, 0x8000000080008081, 0x8000000000008080, 0x0000000080000001, 0x8000000080008008]

/-- Rotation offsets of lane x + 5·y. -/
def keccakRot : List Nat :=
  [0, 1, 62, 28, 27, 36, 44, 6, 55, 20, 3, 10, 43] ++ [25, 39, 41, 45, 15, 21, 8, 18, 2, 61, 56, 14]

/-- One round on 25 lanes, lane (x, y) at x + 5·y. -/
def keccakRound (a : List W64) (rc : W64) : List W64 :=
  let g (l : List W64) (i : Nat) : W64 := l.getD i 0
  let c := (List.range 5).map fun x => (List.range 5).foldl (fun v y => v ^^^ g a (x + 5 * y)) 0
  let t := (List.range 25).map fun i => g a i ^^^ g c ((i + 4) % 5) ^^^ (g c ((i + 1) % 5)).rotateLeft 1
  let b := (List.range 25).map fun i =>
    let src := (i % 5 + 3 * (i / 5)) % 5 + 5 * (i % 5)
    (g t src).rotateLeft (keccakRot.getD src 0)
  (List.range 25).map fun i =>
    let at_ (k : Nat) : W64 := g b ((i + k) % 5 + 5 * (i / 5))
    (g b i ^^^ (~~~(at_ 1) &&& at_ 2)) ^^^ (if i = 0 then rc else 0)

def keccakF (a : List W64) : List W64 := keccakRC.foldl keccakRound a

/-- The padded message in blocks of 136 bytes. -/
def shakePad (m : List Byte) : List Byte :=
  let n := 136 - m.length % 136
  m ++ (if n = 1 then [0x9F] else [0x1F] ++ List.replicate (n - 2) 0 ++ [0x80])

/-- SHAKE256 of a message, `n` ≤ 136 bytes of output. -/
def shake256 (m : List Byte) (n : Nat) : List Byte :=
  let p := shakePad m
  let absorb (a : List W64) (k : Nat) : List W64 :=
    let block := (p.drop (136 * k)).take 136
    keccakF ((List.range 25).map fun i =>
      if i < 17 then a.getD i 0 ^^^ BitVec.ofNat 64 (leNat ((block.drop (8 * i)).take 8)) else a.getD i 0)
  (((List.range (p.length / 136)).foldl absorb (List.replicate 25 0)).flatMap fun x => leBytes 8 x.toNat).take n

end Sys2Proof.Machine
end

