-- ==== Sys2Proof/Machine/Page.lean ====
section
/-!
DEFINITION. The map instructions and shootdowns (R330 to R334), and the system marks of frames (R342).
-/
namespace Sys2Proof.Machine

/-- Level of the page size (R322, R331). -/
def pgLevel : PgSize → Nat
  | .k64 => 0
  | .m2 => 1
  | .g1 => 2

def pgBytes (sz : PgSize) : Nat := 2 ^ levelShift (pgLevel sz)

/-- R342: the 64 KiB frames of `[pa, pa+n)` are marked. -/
def MemSys.mark (m : MemSys) (pa n cause : Nat) : MemSys :=
  if n = 0 then m else { m with sys := (pa / 65536 * 65536, alignUp (pa + n) 65536 - pa / 65536 * 65536, cause) :: m.sys }

/-- R342: every mark of a cause inside `[pa, pa+n)` is cleared. -/
def MemSys.unmark (m : MemSys) (pa n cause : Nat) : MemSys :=
  { m with sys := m.sys.filter fun x => !(x.2.2 == cause && meets pa n x.1 x.2.1) }

/-- R342: context 0 unmaps a leaf with S: its own mark goes, and those of page tables in its frames. -/
def MemSys.unmapS (m : MemSys) (leaf : W64) (n : Nat) : MemSys :=
  let m1 := { m with sys := m.sys.erase (entAddr leaf, n, 65) }
  m1.unmark (entAddr leaf) n 64

/-- R331: what a check of a map form says: it passes, or a cause. -/
def mapFail (h : Here) (s : State) (c : W64) (a : W64) : Abort := .trap { h.report c with faddr := a } s

/-- R331, check 1. -/
def State.mapRight (s : State) (mine ctx : Nat) : Bool :=
  (mine == 0 || (s.ctx mine).rights % 2 == 1) && (ctx == mine || mine == 0) &&
    (s.ctx ctx).st != .free && (s.ctx ctx).st != .destroying

/-- R331: a frame of memory that a context may be given. -/
def State.frameFor (s : State) (ctx frame n : Nat) (refuse : Nat → Bool) : Bool :=
  frame % n == 0 && memExists frame && (ctx == 0 || s.partOf frame == some (s.ctx ctx).part) &&
    (ctx == 0 || !s.sysMark frame n refuse) && !anyFrame s.mem.retired frame n

/-- R331, check 3: a new leaf. -/
def State.leafFits (s : State) (ctx : Nat) (sz : PgSize) (v : W64) : Bool :=
  v &&& ~~~(if ctx = 0 then 0x000FFFFFFFFF008C#64 else 0x000FFFFFFFFF000C#64) == 0 &&
    s.frameFor ctx (bits v 16 36 * 65536) (pgBytes sz) fun _ => true

/-- R331, check 4: a spare frame and an offset in it. -/
def State.spareFits (s : State) (ctx : Nat) (v : W64) : Bool :=
  v == 0 || (bits v 0 8 == 0 && bits v 52 12 == 0 && s.frameFor ctx (bits v 16 36 * 65536) 65536 fun c => c != 64)

/-- R332: the walk to the level of a size: the level it reached and the entry there; it stops early at an entry that is not
present. -/
def State.descend (s : State) (ctx va tgt : Nat) : Nat → Nat → Except TErr (Nat × Nat)
  | level, base =>
    let pa := base + 8 * levelIndex level va
    if !memExists pa then .error .absent
    else if s.poisoned (pa / 128) then .error .memecc
    else
      let e := s.get64 pa
      if level = tgt ∨ !entV e then .ok (level, pa)
      else if entLF e ∨ !entOk e level ctx then .error .page
      else
        match level with
        | 0 => .error .page
        | l + 1 => State.descend s ctx va tgt l (entAddr e)

/-- R332: places for the missing tables of levels `lo + n - 1` down to `lo`, from offset `o`; with the offset after them. -/
def planTables (frame lo : Nat) : Nat → Nat → Option (List (Nat × Nat) × Nat)
  | 0, o => some ([], o)
  | n + 1, o =>
    let size := tableSize (lo + n)
    let o1 := alignUp o size
    if 65536 < o1 + size then none
    else (planTables frame lo n (o1 + size)).map fun r => ((lo + n, frame + o1) :: r.1, r.2)

/-- R332: the tables are placed, zero-filled, each named by the entry above it; the address of the target entry. -/
def State.placeTables (va : Nat) : State → Nat → List (Nat × Nat) → State × Nat
  | s, entry, [] => (s, entry)
  | s, entry, (level, a) :: rest =>
    let s1 := (s.putBytes a (List.replicate (tableSize level) 0)).put64 entry (BitVec.ofNat 64 (a + 1))
    State.placeTables va s1 (a + 8 * levelIndex level va) rest

/-- The cause of a walk that fails. -/
def TErr.toAbort (h : Here) (s : State) (ctx : Nat) (a : W64) : TErr → Abort
  | .absent => .stop .noMemory
  | .memecc => mapFail h (s.countWalks ctx [a.toNat]) cMEMECC a
  | .prot => mapFail h s cPROT a
  | _ => mapFail h s cPAGE a

/-- R330, R331: the effect is made and the shootdown begins; the destination is written when it ends. -/
def Here.shoot (h : Here) (s : State) (ctx lo len : Nat) (d : Nat) (v : W64) : State :=
  let id := s.mem.shoots.nextKey
  h.await ((h.marked s).setMem { s.mem with shoots := s.mem.shoots.put id ⟨ctx, lo, len, h.key, d, v⟩ }) (.shootdown id)

/-- The frame of the three forms: a form at its shootdown stays there. -/
def onMap (sr : List Nat) (s : State) (k : Here → Except Abort State) : Host.Outcome State Fault Refusal :=
  onWave Guard.none { sr } s fun h =>
    match h.f.wait with
    | .shootdown _ => .ok s
    | _ => k h

/-- R332: the entry that the target holds, 0 if no leaf is present, or why it may not be replaced. -/
def State.oldLeaf (s : State) (level pa : Nat) : Except W64 W64 :=
  let e := s.get64 pa
  if !entV e then .ok 0
  else if !entLF e ∧ level ≠ 0 then .error cPAGE
  else if entST e = 1 ∨ entST e = 2 then .error cPROT
  else .ok e

/-- R332: pgmap after its checks. (DEDUCED, log 35.) -/
def Here.mapLeaf (h : Here) (s : State) (d : Nat) (a b c : W64) (ctx : Nat) (sz : PgSize) : Except Abort State :=
  match s.descend ctx a.toNat (pgLevel sz) 3 (s.ctx ctx).root with
  | .error e => .error (e.toAbort h s ctx a)
  | .ok (level, pa) =>
    let old? : Except W64 W64 := if level = pgLevel sz then s.oldLeaf level pa else .ok 0
    match old? with
    | .error x => .error (mapFail h s x a)
    | .ok old =>
      let missing := level - pgLevel sz
      if c = 0 ∧ missing ≠ 0 then .error (mapFail h s cPAGE a)
      else
        match planTables (bits c 16 36 * 65536) (pgLevel sz) missing (bits c 0 16) with
        | none => .error (mapFail h s cPAGE a)
        | some (ts, o) => do
          let s1 ← h.release s .pkg
          let (s2, entry) := s1.placeTables a.toNat pa ts
          let m1 := if missing = 0 then s2.mem else s2.mem.mark (bits c 16 36 * 65536) 65536 64
          let m2 := if ctx = 0 ∧ entV old ∧ entS old then { m1 with sys := m1.sys.erase (entAddr old, (pgBytes sz), 65) } else m1
          let m3 := if entS b then { m2 with sys := (bits b 16 36 * 65536, (pgBytes sz), 65) :: m2.sys } else m2
          let used := if missing = 0 then 0 else (o - bits c 0 16) / 256
          .ok (h.shoot ((s2.setMem m3).put64 entry (b ||| 3)) ctx a.toNat (pgBytes sz) d
            ((old &&& 0x000FFFFFFFFFFFFF#64) ||| BitVec.ofNat 64 (used * 2 ^ 52)))

/-- PGMAP (R331, R332). -/
def execPgmap (d a b c : BitVec 6) (ctx : BitVec 6) (sz : PgSize) (s : State) : Host.Outcome State Fault Refusal :=
  onMap [a.toNat, b.toNat, c.toNat] s fun h =>
    let va := h.s a
    if !s.mapRight (s.ctxOf h.w) ctx.toNat then .error (mapFail h s cPROT va)
    else if bits va 56 8 ≠ 0 ∨ va.toNat % (pgBytes sz) ≠ 0 then .error (mapFail h s cPAGE va)
    else if !s.leafFits ctx.toNat sz (h.s b) ∨ !s.spareFits ctx.toNat (h.s c) then .error (mapFail h s cPROT va)
    else h.mapLeaf s d.toNat va (h.s b) (h.s c) ctx.toNat sz

/-- R333: the leaf that covers an address, well formed or not: the level and the address of its entry. -/
def State.leafEntry (s : State) (ctx va : Nat) : Nat → Nat → Except TErr (Option (Nat × Nat))
  | level, base =>
    let pa := base + 8 * levelIndex level va
    if !memExists pa then .error .absent
    else if s.poisoned (pa / 128) then .error .memecc
    else
      let e := s.get64 pa
      if !entV e then .ok none
      else if entLF e then .ok (some (level, pa))
      else if !entOk e level ctx then .ok none
      else
        match level with
        | 0 => .ok none
        | l + 1 => State.leafEntry s ctx va l (entAddr e)

/-- R333: pgunmap after its checks. (DEDUCED, log 35.) -/
def Here.unmapLeaf (h : Here) (s : State) (d : Nat) (a : W64) (ctx : Nat) (sz : PgSize) : Except Abort State :=
  match s.leafEntry ctx a.toNat 3 (s.ctx ctx).root with
  | .error e => .error (e.toAbort h s ctx a)
  | .ok none => h.ok (h.marked s) fun w => w.writeS h.side d 0
  | .ok (some (level, pa)) =>
    let leaf := s.get64 pa
    if level ≠ pgLevel sz then .error (mapFail h s cPAGE a)
    else if entST leaf = 1 ∨ entST leaf = 2 then .error (mapFail h s cPROT a)
    else do
      let s1 ← h.release s .pkg
      let s2 := s1.setMem (if ctx = 0 ∧ entS leaf then s1.mem.unmapS leaf (pgBytes sz) else s1.mem)
      .ok (h.shoot (s2.put64 pa 0) ctx a.toNat (pgBytes sz) d leaf)

/-- PGUNMAP (R331, R333). -/
def execPgunmap (d a : BitVec 6) (ctx : BitVec 6) (sz : PgSize) (s : State) : Host.Outcome State Fault Refusal :=
  onMap [a.toNat] s fun h =>
    let va := h.s a
    if !s.mapRight (s.ctxOf h.w) ctx.toNat then .error (mapFail h s cPROT va)
    else if bits va 56 8 ≠ 0 ∨ va.toNat % (pgBytes sz) ≠ 0 then .error (mapFail h s cPAGE va)
    else h.unmapLeaf s d.toNat va ctx.toNat sz

/-- PGINV (R331, R334). -/
def execPginv (a b : BitVec 6) (ctx : BitVec 6) (s : State) : Host.Outcome State Fault Refusal :=
  onMap [a.toNat, b.toNat] s fun h =>
    let va := h.s a
    if !s.mapRight (s.ctxOf h.w) ctx.toNat then .error (mapFail h s cPROT va)
    else if bits va 56 8 ≠ 0 ∨ va.toNat % 65536 ≠ 0 ∨ (h.s b).toNat % 65536 ≠ 0 then .error (mapFail h s cPAGE va)
    else do
      let s1 ← h.release s .pkg
      .ok (h.shoot s1 ctx.toNat va.toNat (h.s b).toNat 63 0)

/-- R330, step 2: the translations that a shootdown names; a length of 0 names all of the context. -/
def Shoot.hits (x : Shoot) (t : Tlb) : Bool := t.ctx == x.ctx && (x.len == 0 || meets t.va t.size x.lo x.len)

/-- R330, step 3: a store that went through a translation that the shootdown names. -/
def Shoot.hitsPost (s : State) (x : Shoot) (p : Post) : Bool :=
  (p.who.map fun k => (s.launch k).ctx) == some x.ctx && (x.len == 0 || p.parts.any fun q => meets q.va q.len x.lo x.len)

/-- SHOOTDOWN (R330, R331): it completes, and its form with it. (DEDUCED, log 35.) -/
def execShootdown (id : Nat) (s : State) : Host.Outcome State Fault Refusal :=
  match s.mem.shoots.get? id with
  | none => .next s
  | some x =>
    let s1 := (s.setMem { s.mem with shoots := s.mem.shoots.erase id }).dropTlb x.hits
    .next ((s1.finish (x.hitsPost s1) fun c => c.ctx == x.ctx).returnFrom x.wave (.shootdown id) x.d x.val)

end Sys2Proof.Machine
end

