-- ==== Sys2Proof/Machine/Snapshot.lean ====
section
/-!
DEFINITION. Leaves of protected pages, shadows and the copies that are made of frames (R325 to R327, R367, R371, R372).
-/
namespace Sys2Proof.Machine

/-- R325: the leaf of a page takes a state, and its cached translations go. -/
def State.setLeaf (s : State) (ctx va st : Nat) : State :=
  match (s.walk ctx va).2 with
  | .ok x => (s.put64 x.entry (leafWithST x.word st)).dropTlb fun t => t.entry == x.entry
  | .error _ => s

/-- A frame copied by its home die, poison and all (R326, R372); each poisoned line that it reads counts (R325, R327). (DEDUCED, log 31.) -/
def State.copyFrame (s : State) (src dst n : Nat) : State :=
  let bad := (linesOf src n).filter fun l => s.poisoned l
  let s1 := s.homeWrite dst n fun a => s.readAt (src + (a - dst))
  bad.foldl (fun s l => s.countFrame (128 * l))
    (s1.setMem { s1.mem with poison := s1.mem.poison ++ bad.map fun l => l - src / 128 + dst / 128 })

/-- R326: the copy of a snapshot-protected page. -/
def State.snapshot (s : State) (key : Nat) (h : Shadow) : State :=
  let l := s.launch key
  let s1 := (s.copyFrame h.frame h.shadow h.size).setLaunch key fun l => { l with
    shadows := l.shadows.map fun x => if x.va = h.va then { x with copied := true } else x }
  let s2 := s1.setLeaf l.ctx h.va 2
  s2.setMem { s2.mem with snaps := s2.mem.snaps.filter fun x => x != (l.ctx, h.va) }

/-- The launch and shadow of a protected page. -/
def State.shadowOf (s : State) (p : Launch → Shadow → Bool) : Option (Nat × Shadow) :=
  s.launches.findSome? fun x => (x.2.shadows.find? fun h => p x.2 h && !h.copied).map fun h => (x.1, h)

/-- R367: a write that is not on behalf of a launch to a page under protection: the home die copies first, the launch is
marked. -/
def State.foreignWrite (s : State) (pa n : Nat) : State :=
  let hits := s.launches.flatMap fun x =>
    (x.2.shadows.filter fun h => meets pa n h.frame h.size && !h.copied).map fun h => (x.1, h)
  (hits.foldl (fun s x => s.snapshot x.1 x.2) s).noteWrite none pa n

end Sys2Proof.Machine
end

