-- ==== Sys2Proof/Machine/Queue.lean ====
section
/-!
DEFINITION. Queues (R345 to R359), the acceptance of packets (R346, R347, R352, R368) and finish scopes (R378 to R381).
-/
namespace Sys2Proof.Machine

def queueKey (ctx q : Nat) : Nat := 64 * ctx + q

def State.queue (s : State) (ctx q : Nat) : Queue := (s.queues.get? (queueKey ctx q)).getD {}

def State.setQueue (s : State) (ctx q : Nat) (f : Queue → Queue) : State :=
  { s with queues := s.queues.put (queueKey ctx q) (f (s.queue ctx q)) }

/-- R345: fields of the descriptor that the dispatcher keeps. -/
def Queue.field (q : Queue) (off len : Nat) : Nat := bits q.desc (8 * off) (8 * len)
def Queue.ring (q : Queue) : Nat := q.field 0x00 8
def Queue.widx (q : Queue) : Nat := q.field 0x08 8
def Queue.headm (q : Queue) : Nat := q.field 0x10 8
def Queue.logs (q : Queue) : Nat := q.field 0x18 1
def Queue.die (q : Queue) : Nat := q.field 0x19 1

/-- R345: the ring size. -/
def Queue.size (q : Queue) : Nat := 2 ^ q.logs

/-- R345: a descriptor meets its rule. -/
def Queue.descOk (q : Queue) : Bool :=
  q.ring % 128 == 0 && q.ring < 2 ^ 56 && q.widx % 8 == 0 && q.headm % 8 == 0 && q.widx / 128 != q.headm / 128 &&
    3 ≤ q.logs && q.logs ≤ 16 && q.die < 8 && q.field 0x1A 6 == 0 && q.field 0x28 24 == 0

/-- R345: address of the slot of an index. -/
def Queue.slotAt (q : Queue) (i : W64) : Nat := q.ring + 128 * (i.toNat % q.size)

/-- R345: lap of an index. -/
def Queue.lap (q : Queue) (i : W64) : Nat := i.toNat / q.size % 2 ^ 32

/-- R353: a tail write that arrives; either way the slot at head is to be read again. -/
def Queue.tailWrite (q : Queue) (t : W64) : Queue :=
  if q.tail < t then { q with tail := t, due := true }
  else { q with stale := if q.stale = 0xFFFFFFFF then q.stale else q.stale + 1, due := true }

/-- R349, R353: a tail write to a queue that is not disabled. -/
def State.tailWrite (s : State) (ctx q : Nat) (t : W64) : State :=
  if (s.queue ctx q).st = QState.disabled then s else s.setQueue ctx q fun x => x.tailWrite t

/-- R470: a refused write or access, at its BAR0 offset. -/
def State.refuse (s : State) (off : Nat) : State :=
  let n := bits s.health.errst 0 32
  { s with health := { s.health with errst := BitVec.ofNat 64 (off * 2 ^ 32 + min (n + 1) (2 ^ 32 - 1)) } }

/-- R473: BAR0 offset of a register of a queue. -/
def queueReg (ctx q r : Nat) : Nat := 0x400000 + 4096 * ctx + 64 * q + r

/-- The bytes of a kept packet. -/
def packetBytes (p : BitVec 1024) : List Byte := (List.range 128).map fun i => byteOf p i

/-- R435: the body of a record of kind launch. -/
def launchBody (image : List Byte) (step off : Nat) : List Byte :=
  image ++ List.replicate (128 - image.length) 0 ++ leBytes 8 (step + 256 * off)

/-- R374: a launch or a marker adjourns at a step. -/
def State.parkLaunch (s : State) (key : Nat) (x : W64) (step off : Nat) (faddr : Nat := 0) : State :=
  let l := s.launch key
  { s.setLaunch key fun l => { l with parked := true, step } with
    detached := s.detached ++ [{ work := .launch key, ctx := l.ctx, die := l.die, report := {
      causes := x, faddr := BitVec.ofNat 64 faddr, body := launchBody (packetBytes l.packet) step off } }] }

/-- R368, R379, R380: a launch enters waiting, or adjourns because its scope is closed. -/
def State.takeIn (s : State) (key : Nat) : State :=
  let l := s.launch key
  if l.fs ≠ 0 ∧ (s.scope l.ctx l.fs).2.1 = 0 then s.parkLaunch key cLAUNCH 0 0x24
  else
    let s1 := s.hold l.ctx l.fs
    let aw := ([l.pk 0x25 1, l.pk 0x26 1].filter fun n => n != 0 && (s1.scope l.ctx n).2.1 != 0).dedup
    s1.setLaunch key fun l => { l with held := l.fs != 0, awaits := aw, parked := false,
                                       st := if aw = [] then .ready else .waiting }

/-- R347: a marker is admitted, or adjourns for its address. -/
def State.admitMarker (s : State) (key : Nat) : State :=
  let l := s.launch key
  if l.compAddr % 8 ≠ 0 then s.parkLaunch key cLAUNCH 0 0x08
  else s.setLaunch key fun l => { l with st := .waiting, parked := false }

/-- R352: Accept. (DEDUCED, log 31.) -/
def State.accept (s : State) (ctx q : Nat) (i : W64) (p : BitVec 1024) : State :=
  let Q := s.queue ctx q
  let kind := bits p 0 8
  let lid := lidOf ctx q i
  if bits p 8 24 ≠ 0 ∨ kind ≠ 1 ∧ kind ≠ 2 then
    let s1 := s.journal lid 4 16 Q.die
    { s1 with detached := s1.detached ++ [{ work := .packet ctx q, ctx, die := Q.die, report := {
        causes := cLAUNCH, detail := lid, body := launchBody (packetBytes p) 0xC 0 } }] }
  else
    let key := s.launches.nextKey
    let l : Launch := { ctx, q, idx := i, die := Q.die, lid, packet := p, marker := kind == 2, age := key,
                        prio := if kind = 1 then bits p (8 * 0x1E) 8 else 0,
                        deadline := if kind = 1 then BitVec.ofNat 64 (bits p (8 * 0x50) 64) else 0 }
    let s1 := ({ s with launches := s.launches.put key l }).journalOf l 1
    if kind = 2 then s1.admitMarker key else s1.takeIn key

/-- R358: a queue leaves ready: every wait on its head ends. -/
def State.leaveReady (s : State) (ctx q : Nat) (f : Queue → Queue) : State :=
  let ends (g : Fragment) : Fragment := match g.wait with
    | .qhead q' _ => if q' = q ∧ g.ended = none then g.endWait .plain else g
    | _ => g
  let s1 := s.setQueue ctx q f
  { s1 with waves := s1.waves.map fun x => if s.ctxOf x.2 = ctx then (x.1, x.2.mapFrags ends) else x }

/-- R349: a step of a queue fails: the queue is in error and a record names it. -/
def State.queueFails (s : State) (ctx q : Nat) (x : W64) (a : Nat) (redo : Bool) : State :=
  let s1 := s.leaveReady ctx q fun Q => { Q with st := .error, redo }
  { s1 with detached := s1.detached ++ [{ work := .queue ctx q, ctx, die := (s.queue ctx q).die, report := {
      causes := x, faddr := BitVec.ofNat 64 a, detail := lidOf ctx q (s.queue ctx q).head,
      body := launchBody [] 0xD a } }] }

/-- An access of a dispatcher for a context: the physical address, a cause, or neither yet. -/
inductive DispAcc where
  | ok (pa : Nat)
  | bad (c : W64)
  | wait
  | absent
  deriving DecidableEq, Repr

/-- R195, R325: the access as a load or store would meet it. -/
def State.dispAccess (s : State) (die ctx va : Nat) (k : Access) : State × DispAcc :=
  match s.translate (dieUnit die) ctx va k with
  | (s1, .error .absent) => (s1, .absent)
  | (s1, .error .page) => (s1, .bad cPAGE)
  | (s1, .error .prot) => (s1, .bad cPROT)
  | (s1, .error .memecc) => (s1.countWalks ctx [va], .bad cMEMECC)
  | (s1, .error .snapshot) => (s1, .wait)
  | (s1, .ok pa) =>
    if k == .read && s1.poisoned (pa / 128) then
      (s1.consume pa (some (dieUnit die, ctx, va)), if s1.walksAgain (dieUnit die) ctx [⟨va, pa, 1⟩] then .wait else .bad cMEMECC)
    else (s1, .ok pa)

/-- R326, R367: a write of 8 bytes of a dispatcher for a context; a page under protection has its copy made first. -/
def State.dispWrite (s : State) (die ctx va : Nat) (v : W64) (who : Option Nat) : State × DispAcc :=
  let go (r : State × DispAcc) : State × DispAcc :=
    match r with
    | (s1, .ok pa) => ((s1.put64 pa v).noteWrite who pa 8, .ok pa)
    | r => r
  match s.dispAccess die ctx va .write with
  | (s1, .wait) =>
    match s1.shadowOf fun l h => l.ctx == ctx && h.va ≤ va && va < h.va + h.size with
    | some (k, h) => go ((s1.snapshot k h).dispAccess die ctx va .write)
    | none => (s1, .wait)
  | r => go r

/-- R354, R367: HEADM receives head, with a release at .sys. -/
def State.writeHeadm (s : State) (ctx q : Nat) : Host.Outcome State Fault Refusal :=
  let Q := s.queue ctx q
  match s.dispWrite Q.die ctx Q.headm Q.head none with
  | (_, .absent) => .fault .noMemory
  | (s1, .wait) => .next (s1.setQueue ctx q fun Q => { Q with redo := true })
  | (s1, .bad x) => .next (s1.queueFails ctx q x Q.headm true)
  | (s1, .ok _) => .next (s1.setQueue ctx q fun Q => { Q with redo := false })

/-- R338, R349: the dispatcher serves the queue. -/
def State.served (s : State) (ctx q : Nat) : Bool :=
  (s.queue ctx q).st == .ready && ((s.ctx ctx).st == .active || (s.ctx ctx).st == .faulted)

/-- R352: one round of Serve: the slot at head is read, and consumed if its header is ready; if it is not, the dispatcher waits to read
it again. -/
def State.serve (s : State) (ctx q : Nat) : Host.Outcome State Fault Refusal :=
  let Q := s.queue ctx q
  if !s.served ctx q then .next s
  else if Q.redo then s.writeHeadm ctx q
  else if Q.tail ≤ Q.head then .next s
  else
    let a := Q.slotAt Q.head
    match s.dispAccess Q.die ctx a .read with
    | (_, .absent) => .fault .noMemory
    | (s1, .wait) => .next s1
    | (s1, .bad x) => .next (s1.queueFails ctx q x a false)
    | (s1, .ok pa) =>
      let p : BitVec 1024 := BitVec.ofNat 1024 (s1.getNat pa 128)
      if bits p 0 8 = 0 ∨ bits p 32 32 ≠ Q.lap Q.head then .next (s1.setQueue ctx q fun Q => { Q with due := false })
      else ((s1.accept ctx q Q.head p).setQueue ctx q fun Q => { Q with head := Q.head + 1, due := true }).writeHeadm ctx q

/-- R352: the slot at head is to be read: since a tail write, since the packet before it was consumed, or after 4,096 ns. -/
def State.rereads (late : Bool) : List (Nat × Queue) → State → Host.Outcome State Fault Refusal
  | [], s => .next s
  | (k, Q) :: rest, s =>
    if Q.due || late then
      match s.serve (k / 64) (k % 64) with
      | .next s1 => State.rereads late rest s1
      | x => x
    else State.rereads late rest s

/-- PACKET_CONSUME (R352). -/
def execPacketConsume (ctx q : Nat) (s : State) : Host.Outcome State Fault Refusal := s.serve ctx q
/-- SLOT_REREAD (R352): the slot at head is read again. -/
def execSlotReread (ctx q : Nat) (s : State) : Host.Outcome State Fault Refusal := s.serve ctx q

/-- TAIL_WRITE (R353): a tail write arrives at its dispatcher. -/
def execTailWrite (ctx q : Nat) (t : W64) (s : State) : Host.Outcome State Fault Refusal := .next (s.tailWrite ctx q t)

/-- DOORBELL (R349, R473): a tail write of the host; to a disabled queue it is dropped and counted. -/
def execDoorbell (ctx q : Nat) (t : W64) (s : State) : Host.Outcome State Fault Refusal :=
  if (s.queue ctx q).st = QState.disabled then .next (s.refuse (queueReg ctx q 0)) else .next (s.tailWrite ctx q t)

/-- R347: every packet consumed before a marker from its queue has ended. -/
def State.markerDue (s : State) (key : Nat) (l : Launch) : Bool :=
  l.marker && !l.parked && !l.done &&
    !s.launches.any fun x => x.1 < key && x.2.ctx == l.ctx && x.2.q == l.q && x.2.task.isNone && !x.2.done

/-- R347: a marker ends, with or without its write. -/
def State.endMarker (s : State) (key : Nat) (killed : Bool) : State :=
  let l := s.launch key
  (s.setLaunch key fun l => { l with st := if killed then .killed else .complete, done := true, parked := false }).journalOf l
    (if killed then 4 else 3) killed

/-- MARKER_COMPLETE (R347). -/
def execMarkerComplete (k : Nat) (s : State) : Host.Outcome State Fault Refusal :=
  match s.launches.get? k with
  | none => .next s
  | some l =>
    if !s.markerDue k l then .next s
    else if l.compAddr = 0 then .next (s.endMarker k false)
    else
      match s.dispWrite l.die l.ctx l.compAddr l.compVal none with
      | (_, .absent) => .fault .noMemory
      | (s1, .wait) => .next s1
      | (s1, .bad x) => .next (s1.parkLaunch k x 0xB l.compAddr l.compAddr)
      | (s1, .ok _) => .next (s1.endMarker k false)

/-- QUEUE_ENABLE (R349). -/
def execQueueEnable (ctx q : Nat) (s : State) : Host.Outcome State Fault Refusal :=
  let c := s.ctx ctx
  let Q : Queue := { desc := BitVec.ofNat 512 (s.getNat (c.qtab + 64 * q) 64) }
  if (s.queue ctx q).st ≠ QState.disabled then .next s
  else if c.st = CState.free ∨ c.st = CState.destroying ∨ c.desc = 0 ∨ !Q.descOk then .next (s.refuse (queueReg ctx q 0x20))
  else
    let start : W64 := BitVec.ofNat 64 (Q.field 0x20 8)
    (s.setQueue ctx q fun _ => { Q with st := .ready, head := start, tail := start, due := true }).writeHeadm ctx q

/-- QUEUE_STOP (R349). -/
def execQueueStop (ctx q : Nat) (s : State) : Host.Outcome State Fault Refusal :=
  if (s.queue ctx q).st = QState.ready then .next (s.leaveReady ctx q fun Q => { Q with st := .stopped }) else .next s

/-- QUEUE_START (R349). -/
def execQueueStart (ctx q : Nat) (s : State) : Host.Outcome State Fault Refusal :=
  if (s.queue ctx q).st = QState.stopped then .next (s.setQueue ctx q fun Q => { Q with st := .ready, due := true }) else .next s

/-- QUEUE_DISABLE (R349): packets not consumed stay in memory. -/
def execQueueDisable (ctx q : Nat) (s : State) : Host.Outcome State Fault Refusal :=
  if (s.queue ctx q).st = QState.disabled then .next s
  else .next (s.leaveReady ctx q fun Q => { Q with st := .disabled, redo := false })

/-- QPOST (R357). -/
def execQpost (a : BitVec 6) (q : BitVec 6) (s : State) : Host.Outcome State Fault Refusal :=
  onWave Guard.none { sr := [a.toNat] } s fun h =>
    if h.f.mask = 0 then h.ok s id
    else if (s.queue (s.ctxOf h.w) q.toNat).st = QState.disabled then .error (.trap (h.report cPROT) s)
    else do
      let s1 ← h.release s .sys
      h.ok ((h.marked s1).tailWrite (s.ctxOf h.w) q.toNat (h.s a)) id

/-- R358: the queue-head wait is over. -/
def Queue.reached (Q : Queue) (n : W64) : Bool := Q.st != .ready || n ≤ Q.head

/-- QWAIT (R358): its return is an acquire at .sys. -/
def execQwait (d a : BitVec 6) (q : BitVec 6) (s : State) : Host.Outcome State Fault Refusal :=
  onWave Guard.none { sr := [a.toNat] } s fun h =>
    let Q := s.queue (s.ctxOf h.w) q.toNat
    let go := h.ok (h.acquire s .sys) fun w => w.writeS h.side d.toNat Q.head
    match h.f.wait with
    | .qhead _ n => if Q.reached n || h.f.ended.isSome then go else .ok s
    | _ =>
      if h.f.mask = 0 then h.ok s id
      else if Q.reached (h.s a) then go
      else .ok (h.await s (.qhead q.toNat (h.s a)))

/-- R195: the checks on a range of global memory that a fragment reads or writes. -/
def Here.checkRange (h : Here) (s : State) (k : Access) (a n : Nat) (fail : W64 → State → Abort) : Except Abort (State × List Piece) :=
  match s.checkGlobal h.w.core (s.launchOf h.w) k a n with
  | (_, .absent) => .error (.stop .noMemory)
  | (s1, .wait) => .error (.hold (h.await s1 .hidden))
  | (s1, .bad c) => .error (fail c (if c = cMEMECC then s1.countWalks (s1.ctxOf h.w) [a] else s1))
  | (s1, .ok ps) => .ok (s1, ps)

/-- The bytes of a checked range as the fragment reads them now: from the L2, since only loads use the L1 (R268), and no later load of
its core returns an older value (R232). -/
def Here.readRange (h : Here) (s0 : State) (ps : List Piece) (fail : W64 → State → Abort) : Except Abort (State × List Byte) :=
  let s := s0.setMem (ps.foldl (fun m p => m.evictL1 (p.pa / 128) [h.w.core]) s0.mem)
  let bad := ps.filter (s.spoiled h.w.core)
  if bad != [] then
    let s1 := s.consumeAll h.w.core (s.ctxOf h.w) bad
    .error (if s.walksAgain h.w.core (s.ctxOf h.w) bad then h.hazard s1 else fail cMEMECC s1)
  else
    let r := s.loadPieces h.w.core false ps
    .ok (h.loadDone s r.1 [(0, ps)], seenPieces (h.glimpses s [(0, ps)]) ps r.2)

/-- R359: bits [7:0] of a packet that may be published, its bits [31:8] being 0. -/
def packetKind (p : List Byte) : Option Nat :=
  let h := leNat (p.take 4)
  if h = 1 ∨ h = 2 then some h else none

/-- R359: the enq after its reservation of index i: it waits for space, or publishes, or adjourns and keeps the reservation. The header
is performed before the tail write that announces it (R351). -/
def Here.publish (h : Here) (s : State) (a : BitVec 6) (q : Nat) (i : W64) : Except Abort State :=
  let Q := s.queue (s.ctxOf h.w) q
  if Q.size ≤ (i - Q.head).toNat then .ok (h.await s (.qspace q i))
  else do
    let slot := Q.slotAt i
    let src := (h.s a).toNat
    let at_ (x : Nat) (c : W64) (s : State) : Abort :=
      .trap { h.report c with faddr := BitVec.ofNat 64 x } (h.await s .none)
    let (s1, ps) ← h.checkRange s .write slot 128 (at_ slot)
    let (s2, qs) ← h.checkRange s1 .read src 128 (at_ src)
    let (s3, p) ← h.readRange s2 qs (at_ src)
    match packetKind p with
    | none => .error (at_ src cPROT s3)
    | some k =>
      let pa := (ps.head?.map (·.pa)).getD 0
      let s4 := h.post s3 ((List.range 15).map fun i =>
        { parts := [⟨slot + 8 + 8 * i, pa + 8 + 8 * i, 8⟩], data := (p.drop (8 + 8 * i)).take 8 })
      let s5 ← h.release s4 .sys
      let s6 := h.post s5 [{ parts := [⟨slot, pa, 8⟩], data := leBytes 8 (k + 2 ^ 32 * Q.lap i) }]
      h.ok ((s6.settle (·.seenBy h.f.id)).tailWrite (s.ctxOf h.w) q (i + 1)) id

/-- ENQ (R359). -/
def execEnq (d a : BitVec 6) (q : BitVec 6) (s : State) : Host.Outcome State Fault Refusal :=
  onWave Guard.none { sr := [a.toNat] } s fun h =>
    match h.f.wait with
    | .qspace _ i => h.publish s a q.toNat i
    | _ =>
      if h.f.mask = 0 then h.ok s id
      else if h.f.enq then h.publish s a q.toNat (h.s d)
      else do
        let src := (h.s a).toNat
        let ctx := s.ctxOf h.w
        let on (x : Nat) (c : W64) (s : State) : Abort := .trap (h.lanesReport c h.f.mask fun _ => BitVec.ofNat 64 x) s
        if src % 128 != 0 then .error (on src cMISAL s)
        else
          let (s1, qs) ← h.checkRange s .read src 128 (on src)
          let Q := s1.queue ctx q.toNat
          if Q.st = QState.disabled then .error (.trap (h.report cPROT) s1)
          else
            let (s1w, ps) ← h.checkRange s1 .write Q.widx 8 (on Q.widx)
            let pa := (ps.head?.map (·.pa)).getD 0
            let (s2, p) ← h.readRange s1w qs (on src)
            if packetKind p = none then .error (on src cPROT s2)
            else if s2.poisoned (pa / 128) then .error (h.consumes s2 ps (h.lanesReport cMEMECC h.f.mask fun _ => BitVec.ofNat 64 Q.widx))
            else
              let s3 ← h.release s2 .sys
              let r := (h.marked s3).atomicLane h.w.core (some (s.crew h.w.crew).launch) pa 8
                fun old => some ((old + 1) % 2 ^ 64)
              let i : W64 := BitVec.ofNat 64 r.2
              let w1 := h.w.writeS h.side d.toNat i
              let f1 := { (w1.frag h.side).getD h.f with enq := true, wait := .none }
              let w2 := w1.setFrag h.side (some f1)
              ({ h with w := w2, f := f1 }).publish (r.1.putWave h.key w2) a q.toNat i

/-- ENQ_PUBLISH (R359, R388): the queue-space wait of a fragment is tested, and its packet published. -/
def execEnqPublish (w : Nat) (b : Bool) (s : State) : Host.Outcome State Fault Refusal :=
  match s.fragment w b with
  | none => .next s
  | some h =>
    match h.f.wait, h.f.instr? with
    | .qspace q i, some (.enq _ a _) => h.finish (h.settle s (h.publish s a q i))
    | _, _ => .next s

/-- FSOPEN (R381). -/
def execFsopen (d a : BitVec 6) (s : State) : Host.Outcome State Fault Refusal :=
  onWave Guard.none { sr := [a.toNat] } s fun h =>
    if h.f.mask = 0 then h.ok s id
    else do
      let s1 ← h.release s .sys
      let ctx := s.ctxOf h.w
      let p := bits (h.s a) 0 8
      let free := (List.range 256).find? fun n => n != 0 && (s1.scope ctx n).2.1 == 0
      let s2 := h.marked s1
      match if p = 0 ∨ (s1.scope ctx p).2.1 = 1 then free else none with
      | some n => h.ok ((s2.putScope ctx n 0 1 p).hold ctx p) fun w => w.writeS h.side d.toNat (BitVec.ofNat 64 n)
      | none => h.ok s2 fun w => w.writeS h.side d.toNat 0

/-- FSCLOSE (R379, R381). -/
def execFsclose (a : BitVec 6) (s : State) : Host.Outcome State Fault Refusal :=
  onWave Guard.none { sr := [a.toNat] } s fun h =>
    if h.f.mask = 0 then h.ok s id
    else do
      let s1 ← h.release s .sys
      let ctx := s.ctxOf h.w
      let n := bits (h.s a) 0 8
      let (c, st, p) := s1.scope ctx n
      let s2 := h.done (h.marked s1) id
      if n = 0 ∨ st ≠ 1 then .ok s2
      else if c = 0 then .ok (((s2.putScope ctx n 0 0 p).releaseScope ctx n).unhold ctx p)
      else .ok (s2.putScope ctx n c 2 p)

/-- FSWAIT (R380, R381): its return is an acquire at .sys. -/
def execFswait (a : BitVec 6) (s : State) : Host.Outcome State Fault Refusal :=
  onWave Guard.none { sr := [a.toNat] } s fun h =>
    let open_ (n : Nat) : Bool := n != 0 && (s.scope (s.ctxOf h.w) n).2.1 != 0
    match h.f.wait with
    | .scope n => if open_ n && h.f.ended.isNone then .ok s else h.ok (h.acquire s .sys) id
    | _ =>
      if h.f.mask = 0 then h.ok s id
      else
        let n := bits (h.s a) 0 8
        if open_ n then .ok (h.await s (.scope n)) else h.ok (h.acquire s .sys) id

end Sys2Proof.Machine
end

