-- ==== Sys2Proof/Machine/Health.lean ====
section
/-!
DEFINITION. The registers of BAR0 that instructions reach, health counters, ageing, power, quarantine, measurements and reset
(R468 to R482), and the partitions (R471).
-/
namespace Sys2Proof.Machine

/-- R20: island of a core. -/
def State.islandOf (s : State) (core : Nat) : Nat := s.physOf (core / 8) / 8

def State.island (s : State) (k : Nat) : Island := (s.health.islands.get? k).getD {}

/-- R475, R479: the present frequency. -/
def Island.present (i : Island) : Nat := min i.freq i.cap

/-- R475: the island register. -/
def Island.word (i : Island) : W64 :=
  BitVec.ofNat 64 (i.present + i.voff * 2 ^ 16 + i.slack * 2 ^ 24 + (if i.spent then 2 ^ 33 else 0) +
    if i.cap < i.freq then 2 ^ 34 else 0)

/-- R477: the replace request. -/
def State.replWord (s : State) : W64 := if s.health.repl = 0 then 0 else s.health.repl ||| 1

/-- R469: capability registers. -/
def State.capReg (s : State) (e : Nat) : Option W64 :=
  if e = 0 then some (BitVec.ofNat 64 (Config.devId + Config.stepping.toNat * 2 ^ 16))
  else if e = 8 then some (BitVec.ofNat 64 (leNat ((List.range 8).map fun d => BitVec.ofNat 8 (s.nclus d))))
  else if e = 0x10 then some (Config.dgen.setWidth 64)
  else if e = 0x18 then some 2048
  else if 0x20 ≤ e ∧ e < 0xA0 then some ((Config.portMac ((e - 0x20) / 8)).setWidth 64)
  else if 0x100 ≤ e ∧ e < 0x300 then
    let c := e - 0x100
    some (BitVec.ofNat 64 (leNat ((List.range 8).map fun j =>
      BitVec.ofNat 8 (((List.range 8).filter fun k => s.health.quarantined.contains (8 * (c + j) + k)).foldl (fun n k => n + 2 ^ k) 0))))
  else none

/-- R475, R477, R479: health registers, by their offset from 0x2000. -/
def State.healthReg (s : State) (e : Nat) : Option W64 :=
  if e < 0x200 then some (s.island (e / 8)).word
  else if e = 0x800 then some s.replWord
  else if e = 0x808 then some (BitVec.ofNat 64 s.health.power)
  else none

/-- R470: control registers, by their offset from 0x3000. -/
def State.controlReg (s : State) (e : Nat) : Option W64 :=
  match e with
  | 0x00 => some s.health.errst
  | 0x08 => some s.health.jbase
  | 0x10 => some s.health.jhead
  | 0x18 => some s.health.qptab
  | 0x20 => some s.health.plim
  | 0x28 => some s.health.rpthr
  | 0x30 => some s.health.c0desc
  | _ => none

/-- R468, R481: a register of the areas that mdrd reaches, none at an unassigned offset. -/
def State.bar0 (s : State) (e : Nat) : Option W64 :=
  if e < 0x1000 then s.capReg e else if e < 0x3000 then s.healthReg (e - 0x2000) else s.controlReg (e - 0x3000)

/-- MDRD (R481): an unassigned offset reads 0 and counts (R468). (DEDUCED, log 37.) -/
def execMdrd (d : BitVec 6) (e : BitVec 16) (s : State) : Host.Outcome State Fault Refusal :=
  onWave Guard.none {} s fun h =>
    match s.bar0 e.toNat with
    | some v => h.ok s fun w => w.writeS h.side d.toNat v
    | none => h.ok (s.refuse e.toNat) fun w => w.writeS h.side d.toNat 0

def State.setHealth (s : State) (f : Health → Health) : State := { s with health := f s.health }

/-- R470: JBASE. (DEDUCED, log 37.) -/
def State.writeJbase (s : State) (v : W64) : State :=
  let old := s.health.jbase.toNat
  if v = 0 then
    (s.setMem (if old = 0 then s.mem else s.mem.unmark old 65536 66)).setHealth fun h => { h with jbase := 0 }
  else if v.toNat % 65536 ≠ 0 ∨ !memExists v.toNat ∨ old ≠ 0 then s.refuse 0x3008
  else (s.setMem (s.mem.mark v.toNat 65536 66)).setHealth fun h => { h with jbase := v, jhead := 0 }

/-- R470: QPTAB. -/
def State.writeQptab (s : State) (v : W64) : State :=
  let old := s.health.qptab.toNat
  if v.toNat % 0x40000 ≠ 0 ∨ !memExists v.toNat then s.refuse 0x3018
  else
    let m := if old = 0 then s.mem else s.mem.unmark old 0x40000 67
    (s.setMem (if v = 0 then m else m.mark v.toNat 0x40000 67)).setHealth fun h => { h with qptab := v }

/-- R470: ERRST. (DEDUCED, log 37.) -/
def State.writeErrst (s : State) (v : W64) : State :=
  if v = 0 then s.setHealth fun h => { h with errst := 0 } else s.refuse 0x3000

/-- R470: the most that PLIM takes. -/
def plimMax : Nat := if Config.isModule then 2800 else 2650

/-- R470: a write of a control register, at its offset from 0x3000; C0DESC has its own event. -/
def State.writeControl (s : State) (e : Nat) (v : W64) : State :=
  match e with
  | 0x00 => s.writeErrst v
  | 0x08 => s.writeJbase v
  | 0x18 => s.writeQptab v
  | 0x20 => if 1200 ≤ v.toNat ∧ v.toNat ≤ plimMax then s.setHealth fun h => { h with plim := v } else s.refuse 0x3020
  | 0x28 =>
    if 1 ≤ v.toNat ∧ v.toNat ≤ 256 then (s.setHealth fun h => { h with rpthr := v }).raise else s.refuse 0x3028
  | _ => s.refuse (0x3000 + e)

/-- MDWR (R481). -/
def execMdwr (a : BitVec 6) (e : BitVec 16) (s : State) : Host.Outcome State Fault Refusal :=
  onWave Guard.none { sr := [a.toNat] } s fun h =>
    if s.ctxOf h.w ≠ 0 then .error (.trap (h.report cPROT) s)
    else h.ok ((h.marked s).writeControl e.toNat (h.s a)) id

/-- FLRD (R481). -/
def execFlrd (d : BitVec 6) (e : BitVec 8) (s : State) : Host.Outcome State Fault Refusal :=
  onWave Guard.none {} s fun h => h.ok s fun w => w.writeS h.side d.toNat (s.health.counters.read e.toNat)

/-- FLCLR (R481). -/
def execFlclr (d : BitVec 6) (e : BitVec 8) (s : State) : Host.Outcome State Fault Refusal :=
  onWave Guard.none {} s fun h =>
    if s.ctxOf h.w ≠ 0 then .error (.trap (h.report cPROT) s)
    else h.ok ((h.marked s).setHealth fun x => { x with counters := x.counters.write e.toNat 0 }) fun w =>
      w.writeS h.side d.toNat (s.health.counters.read e.toNat)

/-- CLKRD (R481). -/
def execClkrd (d : BitVec 6) (s : State) : Host.Outcome State Fault Refusal :=
  onWave Guard.none {} s fun h =>
    let k := s.islandOf h.w.core
    h.ok s fun w => w.writeS h.side d.toNat (BitVec.ofNat 64 ((s.island k).present + k * 2 ^ 16))

/-- JBASE_WRITE (R470). -/
def execJbaseWrite (v : W64) (s : State) : Host.Outcome State Fault Refusal := .next (s.writeJbase v)
/-- QPTAB_WRITE (R470). -/
def execQptabWrite (v : W64) (s : State) : Host.Outcome State Fault Refusal := .next (s.writeQptab v)
/-- ERRST_WRITE (R470). -/
def execErrstWrite (v : W64) (s : State) : Host.Outcome State Fault Refusal := .next (s.writeErrst v)

/-- R471: two lists of ranges meet. -/
def rangesMeet (x y : List (Nat × Nat)) : Bool := x.any fun a => y.any fun b => meets a.1 a.2 b.1 b.2

/-- R471: the clusters that a partition owns. -/
def State.masks (s : State) (p : Nat) : List W64 := (List.range 8).map fun d => s.partReg p d

/-- R471: the partitions keep the rules after a write to one of them. -/
def State.partitionsOk (s : State) (p : Nat) : Bool :=
  let others := (List.range 8).filter (· != p)
  (others.all fun q => ((s.masks p).zip (s.masks q)).all (fun x => x.1 &&& x.2 == 0) && !rangesMeet (s.ranges p) (s.ranges q)) &&
    ((List.range 8).map fun q => (s.partReg q 8).toNat).sum ≤ Config.snoopWays &&
    (s.partReg p 8 != 0 || ((s.masks p).all (· == 0) && s.ranges p == []))

/-- PARTITION_WRITE (R337, R471): register `off` of entry `p`. -/
def execPartitionWrite (p off : Nat) (v : W64) (s : State) : Host.Outcome State Fault Refusal :=
  let no := s.refuse (0x4000 + 512 * p + off)
  let used := s.ctxs.any fun x => x.1 != 0 && x.2.st != .free && x.2.part == p
  let s1 := s.setHealth fun h => { h with parts := h.parts.write (64 * p + off / 8) v }
  if 8 ≤ p ∨ off % 8 ≠ 0 ∨ 0x148 ≤ off ∨ used then .next no
  else if 0x48 ≤ off ∧ v.toNat % 2 ^ 30 ≠ 0 then .next no
  else if !s1.partitionsOk p then .next no
  else .next s1

/-- R478, R480: one attestation: the eight registers, the nonce and a signature; the state index advances first. (DESIGN CHOICE, log 15.) -/
def State.attest (s : State) : State :=
  if 2 ^ 20 ≤ s.health.sigs then s
  else
    let body := s.health.measure.flatten ++ leBytes 32 s.health.nonce.toNat
    s.setHealth fun h => { h with
      sigs := h.sigs + 1
      signed := body ++ (List.range 2820).map fun i => Config.signatureByte (leBytes 4 h.sigs ++ body) i }

/-- ATTESTATION_REQUEST (R480): the nonce is written, and 1 asks for the report. -/
def execAttestationRequest (nonce : BitVec 256) (v : W64) (s : State) : Host.Outcome State Fault Refusal :=
  let s1 := s.setHealth fun h => { h with nonce }
  .next (if v = 1 then s1.attest else s1)

/-- R475: one check of an island at its least slack. -/
def Island.check (i : Island) (least : Nat) : Island :=
  let j := { i with slack := min least 255 }
  if 20 ≤ least then j
  else if i.voff < 12 then { j with voff := i.voff + 1 }
  else if 600 < i.freq then { j with freq := i.freq - 50, spent := true }
  else j

/-- R476: a physical cluster is marked for deconfiguration. -/
def Health.mark (h : Health) (c : Nat) : Health := { h with marks := if h.marks.contains c then h.marks else h.marks ++ [c] }

/-- AGEING_CHECK (R475, R476): `slack` is the least slack of each of the island's clusters. (DEDUCED, log 38.) -/
def execAgeingCheck (island : Nat) (slack : List (BitVec 8)) (s : State) : Host.Outcome State Fault Refusal :=
  if 64 ≤ island ∨ slack.length ≠ 8 then .next s
  else
    let i := s.island island
    let least := (slack.map (·.toNat)).foldl min 255
    let past := (List.range 8).filter fun k => i.freq ≤ 600 && (slack.getD k 0).toNat < 20
    let s1 := s.setHealth fun h => { h with
      islands := h.islands.put island (i.check least)
      slack := h.slack.update (8 * island) 8 fun k => slack.getD (k - 8 * island) 0 }
    .next (s1.setHealth fun h => past.foldl (fun h k => h.mark (8 * island + k)) h).raise

/-- POWER_UPDATE (R479): the average is updated; islands are capped while it is above PLIM, and lifted while it is not. (DEDUCED, log 38.) -/
def execPowerUpdate (watts : BitVec 16) (cap lift : List Nat) (s : State) : Host.Outcome State Fault Refusal :=
  let hot := s.health.plim.toNat < watts.toNat
  let down (i : Island) : Island := { i with cap := max 50 (i.present - 50) }
  let up (i : Island) : Island := { i with cap := min 800 (i.cap + 50) }
  let go (f : Island → Island) (l : List Nat) (s : State) : State := (l.filter (· < 64)).foldl (fun s k =>
    s.setHealth fun h => { h with islands := h.islands.put k (f (s.island k)) }) s
  let s1 := s.setHealth fun h => { h with power := watts.toNat }
  .next (if hot then go down cap s1 else go up lift s1)

/-- R377, R476: no wave and no instance resides on the core. -/
def State.coreIdle (s : State) (core : Nat) : Bool :=
  !(s.waves.any fun x => x.2.core == core && x.2.holds) &&
    !s.seqs.any fun x => x.2.core == core && x.2.status == .live

/-- CORE_QUARANTINE (R476): a core that is to be quarantined leaves service at its next idle. -/
def execCoreQuarantine (core : Nat) (s : State) : Host.Outcome State Fault Refusal :=
  if s.health.pendingQ.contains core ∧ s.coreIdle core then
    .next (s.setHealth fun h => { h with pendingQ := h.pendingQ.filter (· != core), quarantined := h.quarantined ++ [core] })
  else .next s

/-- R476: the physical clusters that a die exposes after a reset, and whether it exposes marked ones. (DEDUCED, log 38.) -/
def Health.expose (h : Health) (d : Nat) : List Nat × Bool :=
  let good := (List.range 64).filter fun n => !h.marks.contains (64 * d + n)
  let bad := (List.range 64).filter fun n => h.marks.contains (64 * d + n)
  let best := bad.mergeSort fun a b => decide ((h.slack.read (64 * d + a)).toNat ≥ (h.slack.read (64 * d + b)).toNat)
  if 40 ≤ good.length then (good.take (if good.length = 64 then 64 else good.length / 8 * 8), false)
  else
    let keep := good ++ best.take (40 - good.length)
    ((List.range 64).filter (keep.contains ·), true)

/-- R480: the measurement registers after the images of a reset. -/
def measured (images : List (List Byte)) : List (List Byte) :=
  (List.range 8).map fun m => match images[m]? with
    | some i => shake256 (List.replicate 64 0 ++ shake256 i 64) 64
    | none => List.replicate 64 0

/-- R475 to R478: health after a reset: the health store is restored, everything else is as at reset. (DESIGN CHOICE, log 13.) -/
def Health.afterReset (h : Health) (images : List (List Byte)) : Health :=
  let ex := (List.range 8).map h.expose
  { islands := h.islands.map fun (x : Nat × Island) =>
      (x.1, ({ freq := x.2.freq, voff := x.2.voff, spent := x.2.spent } : Island))
    marks := h.marks
    slack := h.slack
    sigs := h.sigs
    repl := h.repl
    exposed := ex.map (·.1)
    measure := measured images }

/-- R477: DFLOOR after a reset. -/
def Health.floorBits (h : Health) : W64 :=
  BitVec.ofNat 64 (((List.range 8).filter fun d => (h.expose d).2).foldl (fun n d => n + 2 ^ (d + 4)) 0)

/-- R478: the package after a reset; with an image that fails it stays there. Memory keeps its home copies (DESIGN CHOICE, log 13). -/
def State.afterReset (s : State) (verified : Bool) (images : List (List Byte)) : State :=
  let h := s.health.afterReset images
  { State.reset with
    agenda := s.agenda
    draw := s.draw
    mem := { ram := s.mem.ram }
    ctxs := if verified then State.reset.ctxs else []
    health := if verified then h else { h with inReset := true, errst := 0xFFFFFFFF } }

/-- RESET (R110, R476, R478, R480). -/
def execReset (verified : Bool) (images : List (List Byte)) (s : State) : Host.Outcome State Fault Refusal :=
  .next ((s.afterReset verified images).raise s.health.floorBits)

end Sys2Proof.Machine
end

