-- ==== Sys2Proof/Machine/Launch.lean ====
section
/-!
DEFINITION. The life of a launch: checks at dispatch (R369), write-set protection and shadows (R325, R326, R371), completion,
replay, failure and kill (R372, R373, R375).
-/
namespace Sys2Proof.Machine

/-- Why a check of R369 does not pass. -/
inductive CheckFail where
  /-- The cause, the offset that names the field, table or address, and the faulting address. -/
  | bad (c : W64) (off : Nat) (faddr : Nat)
  | wait
  | absent
  deriving DecidableEq, Repr

/-- R369: the bytes of a table, read by the dispatcher line by line. -/
def State.dispRead (die ctx : Nat) : Nat → State → Nat → Nat → State × Except CheckFail (List Byte)
  | 0, s, _, _ => (s, .ok [])
  | k + 1, s, va, n =>
    if n = 0 then (s, .ok [])
    else
      let m := min n (128 - va % 128)
      match s.dispAccess die ctx va .read with
      | (s1, .absent) => (s1, .error .absent)
      | (s1, .wait) => (s1, .error .wait)
      | (s1, .bad c) => (s1, .error (.bad c va va))
      | (s1, .ok pa) =>
        match State.dispRead die ctx k s1 (va + m) (n - m) with
        | (s2, .ok l) => (s2, .ok (s1.getBytes pa m ++ l))
        | r => r

/-- A failure of kind LAUNCH at an offset. -/
def failAt (off : Nat) : CheckFail := .bad cLAUNCH off 0

/-- R369, check 1. -/
def Launch.check1 (l : Launch) : Option Nat :=
  ([(0x1F, l.pk 0x1F 1 == 0), (0x27, l.pk 0x27 1 == 0), (0x78, l.pk 0x78 8 == 0), (0x18, 1 ≤ l.crewsN),
    (0x1C, 1 ≤ l.wavesN && l.wavesN ≤ 64), (0x1D, 1 ≤ l.granN && l.granN ≤ 16), (0x1E, l.pk 0x1E 1 ≤ 7),
    (0x20, l.astore ≤ 0x400000), (0x58, l.seqPc != 0 || l.pk 0x58 8 == 0), (0x60, l.pk 0x60 8 % 4 == 0),
    (0x68, l.pk 0x68 8 % 8 == 0)].find? fun x => !x.2).map (·.1)

/-- R85, R86: an entry line for the context: its budget field. -/
def State.entryOf (s : State) (die ctx pc : Nat) : State × Option Nat :=
  if !pcForm (BitVec.ofNat 64 pc) then (s, none)
  else
    match s.landing (512 * die) ctx (BitVec.ofNat 56 pc) with
    | .ok (s1, x) => match x.dest with
      | some d => (s1, if lineKind d.2 = 1 then some (lineEbud d.2) else none)
      | none => (s1, none)
    | .error _ => (s, none)

/-- R277: a sequencer mode word: R68, but KSG may be 1. -/
def seqModeOk (v : W64) : Bool := 1 ≤ bits v 0 3 && bits v 0 3 ≤ 6 && bits v 11 21 == 0

/-- R259: the run of a crew in bytes. -/
def Launch.runLen (l : Launch) : Nat := alignUp l.astore 65536

/-- R262: an entry of the window table. -/
def windowOf (b : List Byte) (k : Nat) : Window :=
  let f (o n : Nat) : Nat := leNat ((b.drop (32 * k + o)).take n)
  ⟨BitVec.ofNat 64 (f 0 8), BitVec.ofNat 64 (f 8 8), f 16 4, f 20 4⟩

/-- R262: a declared entry keeps the rules, beside the declared entries before it. -/
def windowOk (l : Launch) (w : Window) (rest : Nat) (before : List Window) : Bool :=
  let ends (c : Nat) : Int := w.gbase.toNat + (c : Int) * w.cstr.toInt
  rest == 0 && w.gbase.toNat % 256 == 0 && w.gbase.toNat < 2 ^ 56 && w.cstr.toNat % 256 == 0 && w.aoff % 256 == 0 &&
    w.len % 256 == 0 && w.len ≤ 0x100000 && w.aoff + w.len ≤ l.runLen &&
    ([0, l.crewsN - 1].all fun c => decide (0 ≤ ends c) && decide (ends c + w.len ≤ 2 ^ 56)) &&
    !before.any fun x => x.len != 0 && meets x.aoff x.len w.aoff w.len

/-- R369, check 6, first half: the windows, or the entry that breaks R262. -/
def checkWindows (l : Launch) (b : List Byte) : Except Nat (List Window) :=
  let ws := (List.range 8).map (windowOf b)
  match (List.range 8).find? fun k => match ws[k]? with
      | some w => w.len != 0 && !windowOk l w (leNat ((b.drop (32 * k + 24)).take 8)) (ws.take k)
      | none => false with
  | some k => .error (32 * k)
  | none => .ok ws

/-- R406: the group table. -/
def groupsOk (l : Launch) (gs : List (BitVec 64)) : Bool :=
  (gs.all fun g => g.toNat < 2 ^ l.wavesN) &&
    (List.range l.wavesN).all fun w => (gs.filter fun g => g.getLsbD w).length ≤ 4

/-- A check that reads a table of `n` bytes at a field of the packet, 0 meaning none. -/
def State.readField (s : State) (l : Launch) (va n : Nat) : State × Except CheckFail (List Byte) :=
  if va = 0 then (s, .ok (List.replicate n 0)) else State.dispRead l.die l.ctx (n / 128 + 2) s va n

/-- R369, check 6, R406: the group table, read once and kept. -/
def State.groupTable (s : State) (l : Launch) : State × Except CheckFail (List (BitVec 64)) :=
  if l.groups ≠ [] then (s, .ok l.groups)
  else
    match s.readField l (l.pk 0x30 8) 2048 with
    | (s1, .error x) => (s1, .error x)
    | (s1, .ok b) => (s1, .ok ((List.range 256).map fun g => BitVec.ofNat 64 (leNat ((b.drop (8 * g)).take 8))))

/-- R369, check 7: the pages of one range from `va` to `hi`. -/
def State.wsetPages (l : Launch) : Nat → State → Nat → Nat → State × Except CheckFail (List (Nat × Nat × Nat))
  | 0, s, _, _ => (s, .ok [])
  | k + 1, s, va, hi =>
    if hi ≤ va then (s, .ok [])
    else if 2 ^ 56 ≤ va then (s, .error (failAt va))
    else
      match s.walk l.ctx va with
      | (s1, .error .absent) => (s1, .error .absent)
      | (s1, .error _) => (s1, .error (failAt va))
      | (s1, .ok x) =>
        if x.size = 2 ^ 30 ∨ !entW x.word ∨ 2 < entST x.word then (s1, .error (failAt va))
        else
          match State.wsetPages l k s1 (x.va + x.size) hi with
          | (s2, .ok r) => (s2, .ok ((x.va, x.size, entAddr x.word) :: r))
          | r => r

/-- R364, R369, check 7: ranges and pages of the write set. -/
def State.checkWset (s : State) (l : Launch) : State × Except CheckFail (List (Nat × Nat) × List (Nat × Nat × Nat)) :=
  let va := l.pk 0x40 8
  if va = 0 then (s, .ok ([], []))
  else
    match State.dispRead l.die l.ctx 3 s va 16 with
    | (s1, .error e) => (s1, .error e)
    | (s1, .ok hd) =>
      let nr := leNat (hd.take 4)
      if 64 < nr ∨ leNat (hd.drop 4) ≠ 0 then (s1, .error (failAt va))
      else
        match State.dispRead l.die l.ctx 10 s1 (va + 16) (16 * nr) with
        | (s2, .error e) => (s2, .error e)
        | (s2, .ok b) =>
          let rs := (List.range nr).map fun r => (leNat ((b.drop (16 * r)).take 8), leNat ((b.drop (16 * r + 8)).take 8))
          match (List.range nr).find? fun r => match rs[r]? with
              | some x => x.1 % 65536 != 0 || x.2 == 0 || x.2 % 65536 != 0
              | none => false with
          | some r => (s2, .error (failAt (va + 16 + 16 * r)))
          | none =>
            let go (acc : State × Except CheckFail (List (Nat × Nat × Nat))) (x : Nat × Nat) :
                State × Except CheckFail (List (Nat × Nat × Nat)) :=
              match acc with
              | (s, .ok ps) =>
                match State.wsetPages l (x.2 / 65536 + 1) s x.1 (x.1 + x.2) with
                | (s', .ok qs) => (s', .ok (ps ++ qs.filter fun q => !ps.contains q))
                | (s', .error e) => (s', .error e)
              | e => e
            match rs.foldl go (s2, .ok []) with
            | (s3, .ok ps) => (s3, .ok (rs, ps))
            | (s3, .error e) => (s3, .error e)

/-- What the checks of R369 find. -/
structure Checked where
  wins : List Window
  groups : List (BitVec 64)
  wset : List (Nat × Nat)
  pages : List (Nat × Nat × Nat)
  deriving DecidableEq, Repr

/-- R337, R369, check 9: a cluster for the launch. -/
def State.hasCluster (s : State) (ctx die : Nat) : Bool :=
  if ctx = 0 then 0 < s.nclus die else s.exposes (s.ctx ctx).part die

/-- R27, R337, R437, R476: a cluster where a launch may be placed: of its partition, in service, and for a fault task on its die. -/
def State.usable (s : State) (l : Launch) (clus : Nat) : Bool :=
  let die := clus / 64
  (if l.ctx = 0 then clus % 64 < s.nclus die else s.partHas (s.ctx l.ctx).part die (clus % 64)) &&
    !s.health.marks.contains (s.physOf clus) && (l.task.isNone || die == l.die || !s.hasCluster l.ctx l.die)

/-- R476: the core is in service. -/
def State.coreUp (s : State) (core : Nat) : Bool := !s.health.quarantined.contains core

/-- R369: the nine checks in order: the first that fails, with its number. -/
def State.dispatchChecks (s : State) (key : Nat) : State × Except (Nat × CheckFail) Checked :=
  let l := s.launch key
  match l.check1 with
  | some o => (s, .error (1, failAt o))
  | none =>
    let (s2, e) := s.entryOf l.die l.ctx l.entry
    if !(match e with | some b => b + 1 ≤ l.granN | none => false) then (s2, .error (2, failAt 0x08))
    else
      let (s3, q) := if l.seqPc = 0 then (s2, some 0) else s2.entryOf l.die l.ctx l.seqPc
      if q ≠ some 0 then (s3, .error (3, failAt 0x10))
      else if l.seqPc ≠ 0 ∧ !seqModeOk (BitVec.ofNat 64 (l.pk 0x58 8)) then (s3, .error (3, failAt 0x58))
      else if 8 * min 24 (96 / l.granN) < l.wavesN then (s3, .error (4, failAt 0x1C))
      else if 0x400000 < l.runLen then (s3, .error (5, failAt 0x20))
      else
        match s3.readField l (l.pk 0x28 8) 256 with
        | (s4, .error x) => (s4, .error (6, x))
        | (s4, .ok wb) =>
          match checkWindows l wb with
          | .error o => (s4, .error (6, failAt (l.pk 0x28 8 + o)))
          | .ok wins =>
            if l.pk 0x30 8 % 8 ≠ 0 then (s4, .error (6, failAt 0x30))
            else
              match s4.groupTable l with
              | (s5, .error x) => (s5, .error (6, x))
              | (s5, .ok gs) =>
                if !groupsOk l gs then (s5, .error (6, failAt (l.pk 0x30 8)))
                else
                  match (s5.setLaunch key fun l => { l with groups := gs }).checkWset l with
                  | (s6, .error x) => (s6, .error (7, x))
                  | (s6, .ok (wset, pages)) =>
                    if (s6.ctx l.ctx).shlen < (pages.map fun p => p.2.1).sum then (s6, .error (8, failAt (l.pk 0x40 8)))
                    else if !(List.range 8).any (fun d => s6.hasCluster l.ctx d) then (s6, .error (9, failAt 0))
                    else (s6, .ok { wins, groups := gs, wset, pages })

/-- R366: another launch protects one of the pages. -/
def State.pagesTaken (s : State) (key : Nat) (l : Launch) (ps : List (Nat × Nat × Nat)) : Bool :=
  s.launches.any fun x => x.1 != key && x.2.ctx == l.ctx && x.2.shadows.any fun h =>
    ps.any fun p => meets h.va h.size p.1 p.2.1

/-- R371: one shadow, in the lowest room of the pool beside those in use. -/
def shadowRoom (base len : Nat) (used : List (Nat × Nat)) (n : Nat) : Option Nat :=
  ((alignUp base 65536 :: used.map fun u => alignUp (u.1 + u.2) 65536).filter fun a =>
    decide (base ≤ a) && decide (a + n ≤ base + len) && !used.any fun u => meets a n u.1 u.2).min?

/-- R371: shadows for every page, or none. (DEDUCED, log 10.) -/
def shadowsFor (base len : Nat) : List (Nat × Nat) → List (Nat × Nat × Nat) → Option (List Shadow)
  | _, [] => some []
  | used, (va, size, frame) :: ps =>
    match shadowRoom base len used size with
    | none => none
    | some a => (shadowsFor base len ((a, size) :: used) ps).map fun r => ⟨va, size, frame, a, false⟩ :: r

/-- R371: a shadow of a page. -/
def Shadow.isFor (h : Shadow) (p : Nat × Nat × Nat) : Bool := h.va == p.1 && h.size == p.2.1 && h.frame == p.2.2

/-- R371: the shadows that a replay keeps: all but those of addresses that other pages have now. (DEDUCED, log 10.) -/
def Launch.keptShadows (l : Launch) (pages : List (Nat × Nat × Nat)) : List Shadow :=
  l.shadows.filter fun h => pages.any h.isFor || !pages.any fun p => meets h.va h.size p.1 p.2.1

/-- R325, R368: the write set is protected, once every write that was translated before has been performed, and the launch runs. -/
def State.startLaunch (s : State) (key : Nat) (c : Checked) (sh : List Shadow) : State :=
  let s1 := sh.foldl (fun s h => s.setLeaf (s.launch key).ctx h.va 1) (if sh = [] then s else s.finishAll)
  let s2 := s1.setLaunch key fun l => { l with st := .running, shadows := sh, wset := c.wset, wins := c.wins,
                                               groups := c.groups, placed := 0, parked := false }
  s2.journalOf (s2.launch key) 2

/-- R368, R369, R371: one try of a launch that was chosen. -/
def State.tryDispatch (s0 : State) (key : Nat) : Host.Outcome State Fault Refusal :=
  let s := s0.setLaunch key fun l => { l with st := .dispatching }
  let l := s.launch key
  if l.task.isSome then
    .next (s.startLaunch key { wins := [], groups := [], wset := [], pages := [] } [])
  else
    match s.dispatchChecks key with
    | (_, .error (_, .absent)) => .fault .noMemory
    | (s1, .error (_, .wait)) => .next s1
    | (s1, .error (n, .bad c off fa)) => .next (s1.parkLaunch key c n off fa)
    | (s1, .ok c) =>
      if s1.pagesTaken key l c.pages then .next s1
      else
        let x := s1.ctx l.ctx
        let kept := l.keptShadows c.pages
        let used := ((s1.launches.filter fun y => y.1 != key && y.2.ctx == l.ctx).flatMap fun y => y.2.shadows) ++ kept
        match shadowsFor x.shpool x.shlen (used.map fun h => (h.shadow, h.size)) (c.pages.filter fun p => !kept.any fun h => h.isFor p) with
        | none => .next s1
        | some sh => .next (s1.startLaunch key c (kept ++ sh))

/-- R325: the shadows of a launch are released: its pages are valid again. -/
def State.releaseShadows (s : State) (key : Nat) : State :=
  let l := s.launch key
  let s1 := l.shadows.foldl (fun s h => s.setLeaf l.ctx h.va 0) s
  (s1.setMem { s1.mem with snaps := s1.mem.snaps.filter fun x =>
    !(x.1 == l.ctx && l.shadows.any fun h => h.va == x.2) }).setLaunch key fun l => { l with shadows := [] }

/-- SNAPSHOT_COPY (R326): the copy that a writing access waits for. -/
def execSnapshotCopy (ctx : Nat) (va : W64) (s : State) : Host.Outcome State Fault Refusal :=
  if s.mem.snaps.contains (ctx, va.toNat) then
    match s.shadowOf fun l h => l.ctx == ctx && h.va == va.toNat with
    | some (k, h) => .next (s.snapshot k h)
    | none => .next (s.setMem { s.mem with snaps := s.mem.snaps.filter fun x => x != (ctx, va.toNat) })
  else .next s

/-- R372: the launch is rolled back: its work is killed; it will be replayed, or it has failed. -/
def State.rollBack (s : State) (key : Nat) (audit : Bool) : State :=
  let l := s.launch key
  if l.st = LState.running ∨ l.st = LState.draining then
    let s1 := s.stopLaunch key
    s1.setLaunch key fun l => { l with auditMark := audit, parked := false, placed := 0,
                                       st := if l.nonReplay || l.replayed then .failed else .replaying }
  else s

/-- LAUNCH_REPLAY (R372, steps 3 and 4): shadowed pages are copied back whole, and the launch dispatches again; one that another agent's
write has marked since (R367) fails. -/
def execLaunchReplay (key : Nat) (s : State) : Host.Outcome State Fault Refusal :=
  match s.launches.get? key with
  | none => .next s
  | some l =>
    if l.st ≠ LState.replaying then .next s
    else if l.nonReplay then .next (s.setLaunch key fun l => { l with st := .failed })
    else
      let s1 := (l.shadows.filter (·.copied)).foldl (fun s h =>
        (s.copyFrame h.shadow h.frame h.size).setLeaf l.ctx h.va 1) s
      let s2 := s1.setLaunch key fun l => { l with st := .dispatching, replayed := true,
                                                   shadows := l.shadows.map fun h => { h with copied := false } }
      .next ((s2.journalOf (s2.launch key) 5).setLaunch key fun l => { l with auditMark := false })

/-- R375: a launch is killed; one that is complete, failed or killed already is not (R368). -/
def State.killLaunch (s : State) (key : Nat) : State :=
  match s.launches.get? key with
  | none => s
  | some l =>
    if l.done ∨ l.st = LState.killed ∨ l.st = LState.complete ∨ l.st = LState.failed then s
    else if l.marker then
      (s.endMarker key true)
    else
      let s1 := { s.stopLaunch key with detached := s.detached.filter fun d => s.detLaunch d != some key }
      s1.setLaunch key fun l => { l with st := .killed, awaits := [], noWord := l.wordBad, parked := false }

/-- R373, R374: pkkill of the record of a launch. That of the completion write of one that has failed or was killed writes no
completion word and journals the killed flag. -/
def State.killParked (s : State) (key : Nat) : State :=
  let l := s.launch key
  if l.parked ∧ !l.done ∧ (l.st = LState.killed ∨ l.st = LState.failed) then
    s.setLaunch key fun l => { l with st := .killed, noWord := true, parked := false }
  else s.killLaunch key

/-- LAUNCH_KILL (R368, R375): by the host or context 0. -/
def execLaunchKill (key : Nat) (s : State) : Host.Outcome State Fault Refusal := .next (s.killLaunch key)

/-- R395: a launch that passes its deadline counts one miss. -/
def State.missDeadline (s : State) (key : Nat) : State :=
  let l := s.launch key
  if l.deadline ≠ 0 ∧ l.deadline < s.clk ∧ !l.missed ∧ !l.done ∧ !l.marker then
    (s.setLaunch key fun l => { l with missed := true }).count 9
  else s

/-- R395: the misses when time has passed. -/
def State.missDeadlines (s : State) : State := s.launches.foldl (fun s x => s.missDeadline x.1) s

/-- DEADLINE_MISS (R395, R482). -/
def execDeadlineMiss (key : Nat) (s : State) : Host.Outcome State Fault Refusal :=
  match s.launches.get? key with
  | some _ => .next (s.missDeadline key)
  | none => .next s

/-- R373, steps 3 and 4. -/
def State.endLaunch (s : State) (key : Nat) : State :=
  let l := s.launch key
  let ok := l.st == .draining
  let s1 := (s.setLaunch key fun l => { l with st := if ok then .complete else l.st, done := true, parked := false }).journalOf l
    (if ok then 3 else 4) (l.st == .killed)
  if l.held then s1.unhold l.ctx l.fs else s1

/-- R373: the ordered end of a launch whose work is gone. -/
def State.completeLaunch (s0 : State) (key : Nat) : Host.Outcome State Fault Refusal :=
  let s := s0.releaseShadows key
  let l := s.launch key
  if l.compAddr = 0 ∨ l.noWord ∨ l.task.isSome then .next (s.endLaunch key)
  else
    let v := if l.st = LState.draining then l.compVal else l.compVal ^^^ 0x8000000000000000
    match s.dispWrite l.die l.ctx l.compAddr v (some key) with
    | (_, .absent) => .fault .noMemory
    | (s1, .wait) => .next s1
    | (s1, .bad x) => .next ((s1.parkLaunch key x 0xA l.compAddr l.compAddr).setLaunch key fun l => { l with wordBad := true })
    | (s1, .ok _) => .next (s1.endLaunch key)

/-- LAUNCH_COMPLETE (R373). -/
def execLaunchComplete (key : Nat) (s : State) : Host.Outcome State Fault Refusal :=
  match s.launches.get? key with
  | none => .next s
  | some l =>
    if (l.st = LState.draining ∨ l.st = LState.failed ∨ l.st = LState.killed) ∧ !l.done ∧ !l.parked ∧ !l.marker ∧ s.launchIdle key
    then s.completeLaunch key
    else .next s

end Sys2Proof.Machine
end

