-- ==== Sys2Proof/Machine/Link.lean ====
section
/-!
DEFINITION. The link: queue pairs, messages, packets and their delivery (R449 to R466).
-/
namespace Sys2Proof.Machine

/-- R451: fields of a queue-pair descriptor. -/
def qpField (d : BitVec 512) (off len : Nat) : Nat := bits d (8 * off) (8 * len)

def Qp.ctx (q : Qp) : Nat := qpField q.desc 0x00 1
def Qp.die (q : Qp) : Nat := qpField q.desc 0x01 1
def Qp.packet (q : Qp) : Nat := 1024 * 2 ^ qpField q.desc 0x03 1
def Qp.peer (q : Qp) : Nat := qpField q.desc 0x04 2

/-- R451: the descriptor breaks no field. -/
def qpDescOk (d : BitVec 512) : Bool :=
  let ports := qpField d 0x02 1
  qpField d 0x00 1 < 64 && qpField d 0x01 1 < 8 && 1 ≤ ports && ports ≤ 3 && qpField d 0x03 1 ≤ 2 &&
    qpField d 0x04 2 < 4096 && qpField d 0x0E 50 == 0

def State.qp (s : State) (k : Nat) : Qp := (s.link.qps.get? k).getD {}

def State.setQp (s : State) (k : Nat) (f : Qp → Qp) : State :=
  { s with link := { s.link with qps := s.link.qps.put k (f (s.qp k)) } }

/-- R451: the descriptor as the table holds it; without a table there is none. -/
def State.qpDesc (s : State) (k : Nat) : BitVec 512 :=
  if s.health.qptab = 0 then 0 else BitVec.ofNat 512 (s.getNat (s.health.qptab.toNat + 64 * k) 64)

/-- R464: the owning context: of the descriptor in use, else of the table. -/
def State.qpOwner (s : State) (k : Nat) : Nat :=
  if (s.qp k).st = QpState.reset then qpField (s.qpDesc k) 0x00 1 else (s.qp k).ctx

/-- R466: the state as lqp codes it. -/
def QpState.code : QpState → Nat
  | .reset => 0
  | .init => 1
  | .ready => 2
  | .error => 3

/-- R429: ORIGIN. -/
def originOf (core slot wid crew : Nat) : W64 :=
  BitVec.ofNat 64 (core / 512 + 8 * (core / 8 % 64) + 512 * (core % 8) + 2 ^ 12 * slot + 2 ^ 17 * wid + 2 ^ 23 * crew)

/-- The index of a crew in its launch. -/
def State.crewIdx (s : State) (ck : Nat) : Nat := (s.crew ck).idx

/-- R435: the body of a link-operation record. -/
def State.linkBody (s : State) (qk : Nat) (o : LinkOpn) (op off : Nat) : List Byte :=
  leBytes 2 qk ++ leBytes 1 op ++ leBytes 1 o.kind ++
    leBytes 1 ((if o.sp then 1 else 0) + if o.bar.isSome then 2 else 0) ++ leBytes 1 (if op = 2 then 0 else o.att) ++ leBytes 2 0 ++
    leBytes 8 o.addr ++ leBytes 8 o.len ++ leBytes 4 o.n.toNat ++ leBytes 4 (if op = 2 then off else 0) ++
    leBytes 8 (match o.bar with | some b => b - (s.crew o.crew).base | none => 0) ++ leBytes 1 (s.qp qk).st.code

/-- R435: the operation's code. -/
def LinkOpn.code (o : LinkOpn) (send : Bool) : Nat := if o.drainx then 3 else if send then 1 else 2

/-- The context whose records an operation takes. -/
def State.linkCtx (s : State) (o : LinkOpn) (qk : Nat) : Nat :=
  match o.launch with
  | some l => (s.launch l).ctx
  | none => (s.qp qk).ctx

/-- R459: a link operation is detached. -/
def State.detachLink (s : State) (w : Work) (qk : Nat) (o : LinkOpn) (send : Bool) (x : W64) (faddr off : Nat) : State :=
  { s with detached := s.detached ++ [{ work := w, ctx := s.linkCtx o qk, die := (s.qp qk).die, owner := o.launch, report := {
      causes := x, faddr := BitVec.ofNat 64 faddr, body := s.linkBody qk o (o.code send) off
      origin := some (originOf o.core o.slot o.wid (s.crewIdx o.crew)) } }] }

/-- An operation of a queue pair changes. -/
def Qp.setOp (q : Qp) (send : Bool) (n : W32) (f : LinkOpn → LinkOpn) : Qp :=
  let g (o : LinkOpn) : LinkOpn := if o.n = n then f o else o
  if send then { q with sends := q.sends.map g } else { q with recvs := q.recvs.map g }

def Qp.op (q : Qp) (send : Bool) (n : W32) : Option LinkOpn := (if send then q.sends else q.recvs).find? fun o => o.n == n

/-- R459: it parks. -/
def State.parkLink (s : State) (qk : Nat) (send : Bool) (o : LinkOpn) (x : W64) (faddr off : Nat) : State :=
  (s.setQp qk fun q => q.setOp send o.n fun o => { o with parked := true }).detachLink (.link qk send o.n) qk o send x faddr off

/-- R258: the offset of a word of its barrier object that cannot be read. -/
def State.linkBadBar (s : State) (o : LinkOpn) : Option Nat :=
  match o.bar with
  | some b => ((wordsOf b 16).find? (s.badWord (s.crew o.crew).clus)).map (4 * ·)
  | none => none

/-- R462: the subtraction of a barrier-tracked operation. -/
def State.linkSub (s : State) (o : LinkOpn) (n : Nat) : State :=
  match o.bar with
  | some b => s.barSub (s.crew o.crew).clus b n
  | none => s

/-- R458, R462: an operation completes; one whose barrier cannot be read parks. -/
def State.linkEnd (s : State) (qk : Nat) (send : Bool) (o : LinkOpn) (st : Nat) (tlen : W32) (n : Nat) : State :=
  match s.linkBadBar o with
  | some a => s.parkLink qk send o cMEMECC a 0
  | none =>
    let s1 := s.setQp qk fun q =>
      { q with sends := if send then q.sends.filter fun x => x.n != o.n else q.sends
               recvs := if send then q.recvs else q.recvs.filter fun x => x.n != o.n
               finished := (send, o.n, st, if send then 0 else tlen) :: q.finished }
    (s1.linkSub o n).sweep

/-- R258, R453: a flushed operation counts in its barrier; where that cannot be read, a record says so. -/
def State.flushOp (qk : Nat) (send : Bool) (s : State) (o : LinkOpn) : State :=
  match s.linkBadBar o with
  | some a => s.detachLink (.link qk send o.n) qk o send cMEMECC a 0
  | none => s.linkSub o o.len

/-- R453: work of a queue pair: its operations, and every mdrainx held for it. -/
def State.workOf (s : State) (qk : Nat) (w : Work) : Bool :=
  match w with
  | .link k _ _ => k == qk
  | .held j => (s.link.held.get? j).map (·.1) == some qk
  | _ => false

/-- R453: the flush: outstanding operations end with status 2, their barriers count, the queue pair's records are disposed as kill. -/
def State.flush (s : State) (qk : Nat) (st : QpState) : State :=
  let q := s.qp qk
  let s1 := ((s.records.filter fun x => s.workOf qk x.2.work).map (·.1)).foldl (fun s k => s.closeRecord k)
    { s with detached := s.detached.filter fun d => !s.workOf qk d.work
             link := { s.link with held := s.link.held.filter fun x => x.2.1 != qk } }
  let s2 := s1.setQp qk fun q => { q.finishOps (fun _ => true) 2 with st }
  (q.recvs.foldl (State.flushOp qk false) (q.sends.foldl (State.flushOp qk true) s2)).sweep

/-- Why an access of the link engine fails. -/
inductive LinkFail where
  | bad (c : W64) (a : Nat)
  | absent
  deriving DecidableEq, Repr

/-- R459: one local address of an operation; a write to a protected page has its copy made first (R367). -/
def State.linkXlate (s : State) (die ctx va : Nat) (k : Access) : State × Except LinkFail Nat :=
  let out (r : State × Except TErr Nat) : State × Except LinkFail Nat :=
    (if failed .memecc r.2 then r.1.countWalks ctx [va] else r.1, match r.2 with
      | .ok pa => .ok pa
      | .error .absent => .error .absent
      | .error .prot => .error (.bad cPROT va)
      | .error .memecc => .error (.bad cMEMECC va)
      | .error _ => .error (.bad cPAGE va))
  match s.translate (dieUnit die) ctx va k with
  | (s1, .error .snapshot) =>
    match s1.shadowOf fun l h => l.ctx == ctx && h.va ≤ va && va < h.va + h.size with
    | some (key, h) => out ((s1.snapshot key h).translate (dieUnit die) ctx va k)
    | none => out (s1, .error .page)
  | r => out r

/-- Cuts of a range at its aligned KiB: address and length. -/
def kibs : Nat → Nat → Nat → List (Nat × Nat)
  | 0, _, _ => []
  | k + 1, a, n =>
    if n = 0 then [] else (a, min n (1024 - a % 1024)) :: kibs k (a + min n (1024 - a % 1024)) (n - min n (1024 - a % 1024))

/-- The aligned KiB that a range touches. -/
def kibsOf (a n : Nat) : List (Nat × Nat) := kibs (n / 1024 + 2) a n

/-- R456, R459: bytes of a source, read as the packet leaves. -/
def State.linkRead (s : State) (o : LinkOpn) (die ctx : Nat) : List (Nat × Nat) → State × Except LinkFail (List Byte)
  | [] => (s, .ok [])
  | (a, n) :: rest =>
    match s.linkXlate die ctx a .read with
    | (s1, .error e) => (s1, .error e)
    | (s1, .ok pa) =>
      match (linesOf pa n).find? fun l => s1.poisoned l with
      | some l => (s1.consume (max pa (128 * l)) (some (dieUnit die, ctx, a)), .error (.bad cMEMECC (a + (max pa (128 * l) - pa))))
      | none =>
        match s1.linkRead o die ctx rest with
        | (s2, .ok l) => (s2, .ok (s1.getBytes pa n ++ l))
        | r => r

/-- R215, R459: a patched local range of the cluster space lies in the crew's run and in no open window. -/
def State.linkLocal (s : State) (o : LinkOpn) (a n : Nat) : Bool :=
  let c := s.crew o.crew
  !o.patched || (c.holds a n && !(n != 0 && c.inOpenWin (s.launch c.launch) a n))

/-- The bytes of one packet. -/
def State.packetData (s : State) (o : LinkOpn) (die ctx off n : Nat) : State × Except LinkFail (List Byte) :=
  match o.data with
  | some d => (s, .ok ((d.drop off).take n))
  | none =>
    if o.sp && !s.linkLocal o (o.addr + off) n then (s, .error (.bad cPROT (o.addr + off)))
    else if o.sp then
      let clus := (s.crew o.crew).clus
      match (wordsOf (o.addr + off) n).find? (s.badWord clus) with
      | some w => (s, .error (.bad cMEMECC (max (4 * w) (o.addr + off))))
      | none => (s, .ok (s.getA clus (o.addr + off) n))
    else s.linkRead o die ctx (kibsOf (o.addr + off) n)

/-- R456: a permitted port (DESIGN CHOICE, log 2). (DEDUCED, log 33.) -/
def State.sendFrame (s : State) (q : Qp) (f : Frame) : State :=
  let ports := (List.range 2).filter fun i => (qpField q.desc 0x02 1).testBit i
  let p := 2 * q.die + ports.getD (Config.choice s.draw % ports.length) 0
  { s.drawn with link := { s.link with tx := s.link.tx ++
      [⟨p, BitVec.ofNat 48 (qpField q.desc 0x08 6), BitVec.ofNat 16 (qpField q.desc 0x06 2), f⟩] } }

/-- R450, R456: a data packet. -/
def dataFrame (q : Qp) (qk : Nat) (o : LinkOpn) (off : Nat) (l : List Byte) : Frame :=
  { fcsOk := true, ver := 1, typ := 1, dqp := BitVec.ofNat 16 q.peer, sqp := BitVec.ofNat 16 qk, msn := o.n,
    tlen := BitVec.ofNat 32 o.len, off := BitVec.ofNat 32 off, kind := BitVec.ofNat 8 o.kind, att := BitVec.ofNat 8 o.att,
    sts := 0, rsv := 0, payload := l }

/-- R456: the packets of an attempt, from a list of offsets. -/
def State.sendPackets (qk : Nat) (o : LinkOpn) : State → List Nat → State × Option LinkFail
  | s, [] => (s, none)
  | s, off :: rest =>
    let q := s.qp qk
    match s.packetData o q.die q.ctx off (min q.packet (o.len - off)) with
    | (s1, .error e) => (s1, some e)
    | (s1, .ok l) => State.sendPackets qk o (s1.sendFrame q (dataFrame q qk o off l)) rest

/-- R456, R459: one attempt of a send. -/
def State.sendMessage (s : State) (qk : Nat) (n : W32) : Host.Outcome State Fault Refusal :=
  let q := s.qp qk
  match q.op true n with
  | none => .next s
  | some o =>
    let offs := if o.len = 0 then [0] else (List.range ((o.len + q.packet - 1) / q.packet)).map (q.packet * ·)
    match State.sendPackets qk o s offs with
    | (_, some .absent) => .fault .noMemory
    | (s1, some (.bad c a)) => .next (s1.parkLink qk true o c a 0)
    | (s1, none) => .next (s1.setQp qk fun q => q.setOp true n fun o => { o with sentAt := s.clk, spared := false })

/-- R457, R458: an acknowledgement (type 2) or a hold (type 3). (DEDUCED, log 33.) -/
def State.answer (s : State) (qk : Nat) (typ : Nat) (m : W32) (sts : Nat) : State :=
  let q := s.qp qk
  let x := Config.ackFill s.draw
  s.drawn.sendFrame q
    { fcsOk := true, ver := 1, typ := BitVec.ofNat 8 typ, dqp := BitVec.ofNat 16 q.peer, sqp := BitVec.ofNat 16 qk, msn := m,
      tlen := (x.extractLsb' 0 30).setWidth 32, off := x.extractLsb' 30 32, kind := (x.extractLsb' 62 2).setWidth 8,
      att := (x.extractLsb' 64 3).setWidth 8, sts := BitVec.ofNat 8 sts, rsv := 0, payload := [] }

/-- R450: the header breaks no rule of the table. -/
def frameOk (f : Frame) (q : Qp) : Bool :=
  f.fcsOk && f.ver == 1 && f.dqp.toNat < 4096 && f.sqp.toNat < 4096 && f.tlen.toNat ≤ 2 ^ 30 && f.kind.toNat ≤ 3 &&
    f.att.toNat ≤ 7 && f.rsv == 0 &&
    match f.typ.toNat with
    | 1 => f.payload.length ≤ q.packet && f.sts == 0 && f.off.toNat + f.payload.length ≤ f.tlen.toNat &&
        (match f.kind.toNat with
         | 1 => f.off.toNat % 4 == 0 && f.payload.length % 4 == 0
         | 2 => f.off.toNat % 2 == 0 && f.payload.length % 2 == 0
         | _ => true)
    | 2 => f.payload == [] && (f.sts == 1 || f.sts == 3)
    | 3 => f.payload == [] && f.sts == 0
    | _ => false

/-- R450: a frame that is taken: its queue pair is ready; else it is dropped and counted. -/
def State.frameIn (s : State) (f : Frame) (k : Nat → Qp → Host.Outcome State Fault Refusal) :
    Host.Outcome State Fault Refusal :=
  let q := s.qp f.dqp.toNat
  if frameOk f q && q.st == .ready then k f.dqp.toNat q else .next (s.count 6)

/-- R455, R459: where the pieces of a placement go, all checked before any is written. -/
def State.placePlan (s : State) (q : Qp) (o : LinkOpn) (rd : Bool) : List (Nat × Nat) → State × Except LinkFail (List (Nat × Nat))
  | [] => (s, .ok [])
  | (a, n) :: rest =>
    match s.linkXlate q.die q.ctx a .write with
    | (s1, .error e) => (s1, .error e)
    | (s1, .ok pa) =>
      let allowed := match o.launch with
        | some l => s1.inWset (s1.launch l) (dieUnit q.die) a
        | none => true
      if !allowed then (s1, .error (.bad cWSET a))
      else
        match if rd then (linesOf pa n).find? fun l => s1.poisoned l else none with
        | some l => (s1.consume (max pa (128 * l)) (some (dieUnit q.die, q.ctx, a)), .error (.bad cMEMECC (a + (max pa (128 * l) - pa))))
        | none =>
          match s1.placePlan q o rd rest with
          | (s2, .ok r) => (s2, .ok ((pa, n) :: r))
          | r => r

/-- R455: bytes of an accumulate buffer after the addition. -/
def accumulate (t : Ty) (old new : List Byte) : List Byte :=
  let w := t.width / 8
  (List.range (new.length / w)).flatMap fun i =>
    leBytes w (atomNew .add t (leNat ((old.drop (w * i)).take w)) (leNat ((new.drop (w * i)).take w)))

/-- What a packet leaves in place of the old bytes. -/
def placed (kind : Nat) (old new : List Byte) : List Byte :=
  match kind with
  | 1 => accumulate .f32 old new
  | 2 => accumulate .bf16 old new
  | _ => new

/-- The planned pieces written. -/
def State.placeGlobal (kind : Nat) (who : Option Nat) : State → List (Nat × Nat) → List Byte → State
  | s, [], _ => s
  | s, (pa, n) :: rest, l =>
    State.placeGlobal kind who ((s.putBytes pa (placed kind (s.getBytes pa n) (l.take n))).noteWrite who pa n) rest (l.drop n)

/-- R455, R459: one packet placed, or why not. -/
def State.place (s : State) (q : Qp) (o : LinkOpn) (off : Nat) (l : List Byte) : State × Option LinkFail :=
  let a := o.addr + off
  let rd := o.kind == 1 || o.kind == 2
  if o.sp && !s.linkLocal o a l.length then (s, some (.bad cPROT a))
  else if o.sp then
    let clus := (s.crew o.crew).clus
    match if rd then (wordsOf a l.length).find? (s.badWord clus) else none with
    | some w => (s, some (.bad cMEMECC (max (4 * w) a)))
    | none => ((s.putA clus a l.length (bytesFn a (placed o.kind (s.getA clus a l.length) l))).wake, none)
  else
    match s.placePlan q o rd (kibsOf a l.length) with
    | (s1, .error e) => (s1, some e)
    | (s1, .ok ps) => (State.placeGlobal o.kind o.launch s1 ps l, none)

/-- R457: the lowest receive number not complete. -/
def Qp.low (q : Qp) : W32 := (q.recvs.head?.map (·.n)).getD q.nrecv

/-- R457: the status with which a message is complete. -/
def Qp.doneStatus (q : Qp) (m : W32) : Option Nat :=
  if 2 ^ 31 ≤ (q.nrecv - m - 1).toNat ∨ (q.op false m).isSome then none
  else (q.finished.find? fun x => !x.1 && x.2.1 == m).map (·.2.2.1)

/-- Bytes placed so far. -/
def LinkOpn.bytes (o : LinkOpn) : Nat := (o.got.map (·.2)).sum

/-- R455, R457: the receive has all of its message: it completes and is acknowledged. (DEDUCED, log 33.) -/
def State.recvDone (s : State) (qk : Nat) (o : LinkOpn) (st : Nat) (tlen : W32) : State :=
  let s1 := s.linkEnd qk false o st tlen tlen.toNat
  if (s1.qp qk).op false o.n = none then
    let s2 := s1.answer qk 2 o.n st
    if o.kind = 3 ∧ st = 1 then s2.setQp qk fun q => { q with inbox := q.inbox ++ [(o.n, s.linkCtx o qk, o.addr)] } else s2
  else s1

/-- R455, R457: a data packet for a posted receive. -/
def State.recvPacket (s : State) (qk : Nat) (q : Qp) (o : LinkOpn) (f : Frame) : Host.Outcome State Fault Refusal :=
  if o.tlen = none ∧ (f.kind.toNat ≠ o.kind ∨ o.len < f.tlen.toNat) then .next (s.recvDone qk o 3 f.tlen)
  else if o.tlen ≠ none ∧ o.tlen ≠ some f.tlen then .next (s.count 6)
  else
    let o1 := { o with tlen := some f.tlen }
    match s.place q o1 f.off.toNat f.payload with
    | (_, some .absent) => .fault .noMemory
    | (s1, some (.bad c a)) => .next ((s1.setQp qk fun q => q.setOp false o.n fun _ => o1).parkLink qk false o1 c a f.off.toNat)
    | (s1, none) =>
      let o2 := { o1 with got := o1.got ++ [(f.off.toNat, f.payload.length)] }
      let s2 := s1.setQp qk fun q => q.setOp false o.n fun _ => o2
      .next (if o2.bytes = f.tlen.toNat then s2.recvDone qk o2 1 f.tlen else s2)

/-- DATA_PACKET_RECEIVE (R457). -/
def execDataPacketReceive (f : Frame) (s : State) : Host.Outcome State Fault Refusal :=
  if f.typ = 2 ∨ f.typ = 3 then .next s
  else s.frameIn f fun qk q =>
    if 2048 ≤ (f.msn - q.low + 1024).toNat then .next (s.count 6)
    else
      match q.doneStatus f.msn with
      | some st => .next (s.answer qk 2 f.msn st)
      | none =>
        match q.op false f.msn with
        | none => .next s
        | some o =>
          if o.parked then .next (s.answer qk 3 f.msn 0)
          else if o.got.any fun g => g.1 == f.off.toNat then .next s
          else s.recvPacket qk q o f

/-- ACKNOWLEDGEMENT_RECEIVE (R458): the send completes, be it parked: a record of it then names no work any more. -/
def execAcknowledgementReceive (f : Frame) (s : State) : Host.Outcome State Fault Refusal :=
  if f.typ ≠ 2 then .next s
  else s.frameIn f fun qk q =>
    match q.op true f.msn with
    | some o => .next (s.linkEnd qk true o f.sts.toNat 0 o.len)
    | none => .next s

/-- HOLD_RECEIVE (R458): the timer restarts, and the attempt does not count. -/
def execHoldReceive (f : Frame) (s : State) : Host.Outcome State Fault Refusal :=
  if f.typ ≠ 3 then .next s
  else s.frameIn f fun qk _ => .next (s.setQp qk fun q => q.setOp true f.msn fun o => { o with sentAt := s.clk, spared := true })

/-- R456: a message takes the next MSN and its first attempt leaves. -/
def State.startSend (s : State) (qk : Nat) (o : LinkOpn) : Host.Outcome State Fault Refusal :=
  let n := (s.qp qk).nsend
  (s.setQp qk fun q => { q with nsend := q.nsend + 1, sends := q.sends ++ [{ o with n }] }).sendMessage qk n

/-- R460: an mdrainx whose queue pair does not take it is held, and detached with LINK. -/
def State.holdDrainx (s : State) (k qk : Nat) (o : LinkOpn) : State :=
  { s with link := { s.link with held := s.link.held.put k (qk, { o with parked := true }) } }.detachLink
    (.held k) qk o true cLINK 0 0

/-- R298, R460: an mdrainx handed to the link engine; none while the queue pair has 1,024 sends outstanding. -/
def State.startDrainx (s : State) (qk : Nat) (o : LinkOpn) : Option (Host.Outcome State Fault Refusal) :=
  let q := s.qp qk
  let ctx := match o.launch with | some l => (s.launch l).ctx | none => 0
  if q.st ≠ QpState.ready ∨ q.ctx ≠ ctx then some (.next (s.holdDrainx s.link.held.nextKey qk o))
  else if 1024 ≤ q.sends.length then none
  else some (s.startSend qk o)

/-- R464: the checks at issue; `a` is s_A, `b` s_B, `c` the barrier. -/
def Here.linkCheck (h : Here) (s : State) (post : Bool) (o : LinkOp) : State × Option Abort :=
  let a := h.s o.a
  let b := h.s o.b
  let len := bits a 32 32
  let qk := bits a 0 12
  let crew := s.crew h.w.crew
  let l := s.launchOf h.w
  let at_ (x : W64) (f : Nat) (s : State) : Option Abort := some (.trap { h.report x with faddr := BitVec.ofNat 64 f } s)
  if s.qpOwner qk ≠ l.ctx ∧ l.ctx ≠ 0 then (s, some (.trap (h.report cPROT) s))
  else if !o.sp && (2 ^ 56 ≤ b.toNat || 2 ^ 56 < b.toNat + len) then (s, at_ cPAGE b.toNat s)
  else if o.sp && (!crew.holds b.toNat len || (len != 0 && crew.inOpenWin l b.toNat len)) then (s, at_ cPROT b.toNat s)
  else
    match o.bar.map fun r => h.s r with
    | some c =>
      if c.toNat % 16 ≠ 0 then (s, some (.trap (h.lanesReport cMISAL h.f.mask fun _ => c) s))
      else if !crew.holds c.toNat 16 then (s, at_ cPROT c.toNat s)
      else if post && !o.sp then
        match (kibsOf b.toNat len).find? fun x => !s.inWset l h.w.core x.1 with
        | some x => (s, at_ cWSET x.1 s)
        | none => (s, none)
      else (s, none)
    | none =>
      if post && !o.sp then
        match (kibsOf b.toNat len).find? fun x => !s.inWset l h.w.core x.1 with
        | some x => (s, at_ cWSET x.1 s)
        | none => (s, none)
      else (s, none)

/-- R455, R464: an operand is bad. -/
def linkBad (post : Bool) (kind : Nat) (sp : Bool) (a b : W64) : Bool :=
  let len := bits a 32 32
  bits a 12 20 != 0 || 2 ^ 30 < len || (kind == 3 && (!post || sp || len != 1088 || b.toNat % 64 != 0)) ||
    (kind == 1 && (len % 4 != 0 || (post && b.toNat % 4 != 0))) || (kind == 2 && (len % 2 != 0 || (post && b.toNat % 2 != 0))) ||
    (post && kind == 0 && len == 0)

/-- R464: the status of a form. -/
def State.linkStatus (s : State) (post : Bool) (o : LinkOp) (a b : W64) : Nat :=
  let q := s.qp (bits a 0 12)
  if linkBad post o.kind.toNat o.sp a b then 3
  else if (if post then q.st == .init || q.st == .ready else q.st == .ready) then
    if 1024 ≤ (if post then q.recvs else q.sends).length then 2 else 0
  else 1

/-- The operation that a form asks for. -/
def Here.linkOpn (h : Here) (s : State) (o : LinkOp) : LinkOpn :=
  { kind := o.kind.toNat, sp := o.sp, addr := (h.s o.b).toNat, len := bits (h.s o.a) 32 32, bar := o.bar.map fun r => (h.s r).toNat,
    launch := some (s.crew h.w.crew).launch, crew := h.w.crew, core := h.w.core, slot := h.w.slot, wid := h.w.wid }

/-- R462: the result of a form written, and the operation started after every store of the fragment that comes before it. -/
def onLink (post : Bool) (o : LinkOp) (s : State) : Host.Outcome State Fault Refusal :=
  match s.here with
  | none => .refused .noFragment
  | some h =>
    let uses : Uses := { sr := [o.a.toNat, o.b.toNat] ++ o.bar.toList.map (·.toNat) }
    match h.check s h.f.mask uses with
    | .error a => h.finish (h.settle s (.error a))
    | .ok () =>
      if h.f.mask = 0 then .next (h.done s id)
      else
        match h.linkCheck s post o with
        | (_, some a) => h.finish (h.settle s (.error a))
        | (s1, none) =>
          let qk := bits (h.s o.a) 0 12
          let q := s1.qp qk
          let st := s1.linkStatus post o (h.s o.a) (h.s o.b)
          let n := if post then q.nrecv else q.nsend
          let out (s : State) : State := h.done s fun w =>
            w.writeS h.side o.d.toNat (BitVec.ofNat 64 (if st = 0 then n.toNat else st * 2 ^ 32))
          let s2 := (h.marked s1).settle (·.seenBy h.f.id)
          if st ≠ 0 then .next (out s1)
          else if post then
            .next ((out s2).setQp qk fun q => { q with nrecv := q.nrecv + 1, recvs := q.recvs ++ [{ h.linkOpn s1 o with n := q.nrecv }] })
          else (out s2).startSend qk (h.linkOpn s1 o)

/-- LPOST (R455, R464). -/
def execLpost (o : LinkOp) (s : State) : Host.Outcome State Fault Refusal := onLink true o s

/-- LSEND (R456, R464). -/
def execLsend (o : LinkOp) (s : State) : Host.Outcome State Fault Refusal := onLink false o s

/-- R464: the check of lpoll and lqp. -/
def Here.ownsQp (h : Here) (s : State) (a : W64) : Bool := s.ctxOf h.w == 0 || s.qpOwner (bits a 0 12) == s.ctxOf h.w

/-- R465: what lpoll writes. -/
def Qp.poll (q : Qp) (recv : Bool) (n : W32) : W64 :=
  let next := if recv then q.nrecv else q.nsend
  if 1024 ≤ (next - 1 - n).toNat then 4
  else if (q.op (!recv) n).isSome then 0
  else
    match q.finished.find? fun x => x.1 != recv && x.2.1 == n with
    | some x => BitVec.ofNat 64 (x.2.2.1 + if x.2.2.1 = 1 then x.2.2.2.toNat * 2 ^ 32 else 0)
    | none => 4

/-- LPOLL (R465): done of a receive is an acquire at .pkg. -/
def execLpoll (d a : BitVec 6) (recv : Bool) (s : State) : Host.Outcome State Fault Refusal :=
  onWave Guard.none { sr := [a.toNat] } s fun h =>
    if h.f.mask = 0 then h.ok s id
    else if !h.ownsQp s (h.s a) then .error (.trap (h.report cPROT) s)
    else
      let v := (s.qp (bits (h.s a) 0 12)).poll recv (BitVec.ofNat 32 (bits (h.s a) 32 32))
      h.ok (if recv ∧ bits v 0 8 = 1 then h.acquire s .pkg else s) fun w => w.writeS h.side d.toNat v

/-- R452: the moves that lqp asks for; none if refused. -/
def State.moveQp (s : State) (k op : Nat) : Option State :=
  let q := s.qp k
  match op with
  | 0 => some s
  | 1 => if q.st = QpState.reset then none else some (s.flush k .reset)
  | 2 =>
    let d := s.qpDesc k
    if q.st = QpState.reset ∧ s.health.qptab ≠ 0 ∧ qpDescOk d ∧ (s.ctx (qpField d 0 1)).st = CState.active then
      some (s.setQp k fun q => { st := .init, desc := d, inbox := q.inbox })
    else none
  | _ => if q.st = QpState.init then some (s.setQp k fun q => { q with st := .ready }) else none

/-- R466: what lqp writes. -/
def Qp.word (q : Qp) (refused : Bool) : W64 :=
  BitVec.ofNat 64 (q.st.code + (if refused then 256 else 0) + q.sends.length % 2048 * 2 ^ 32 + q.recvs.length % 2048 * 2 ^ 48)

/-- R466: the four operations of lqp. -/
def onQp (op : Nat) (d a : BitVec 6) (s : State) : Host.Outcome State Fault Refusal :=
  onWave Guard.none { sr := [a.toNat] } s fun h =>
    if h.f.mask = 0 then h.ok s id
    else if !h.ownsQp s (h.s a) then .error (.trap (h.report cPROT) s)
    else
      let k := bits (h.s a) 0 12
      match if bits (h.s a) 12 52 = 0 then s.moveQp k op else none with
      | some s1 => .ok ((h.again s1).done s1 fun w => w.writeS h.side d.toNat ((s1.qp k).word false))
      | none => h.ok s fun w => w.writeS h.side d.toNat ((s.qp k).word true)

/-- LQP_QUERY (R466). -/
def execLqpQuery (d a : BitVec 6) (s : State) : Host.Outcome State Fault Refusal := onQp 0 d a s
/-- LQP_RESET (R452, R453). -/
def execLqpReset (d a : BitVec 6) (s : State) : Host.Outcome State Fault Refusal := onQp 1 d a s
/-- LQP_INIT (R452). -/
def execLqpInit (d a : BitVec 6) (s : State) : Host.Outcome State Fault Refusal := onQp 2 d a s
/-- LQP_READY (R452). -/
def execLqpReady (d a : BitVec 6) (s : State) : Host.Outcome State Fault Refusal := onQp 3 d a s

end Sys2Proof.Machine
end

