-- ==== Sys2Proof/Machine/Control.lean ====
section
/-!
DEFINITION. Class 0x0 but for `end`: branches, splits, calls, waits for time, breakpoints (R133 to R152).
-/
namespace Sys2Proof.Machine

/-- The executing work is a sequencer instance. -/
def State.onSeqStream (s : State) : Bool :=
  match s.cur with
  | some (.seq _) => true
  | _ => false

/-- NOP (R147). -/
def execNop (s : State) : Host.Outcome State Fault Refusal :=
  if s.onSeqStream then onSeq s fun h => .ok (h.done s id)
  else onWave Guard.none {} s fun h => h.ok s id

/-- R102: a transfer in a sequencer stream lands under R85. -/
def SeqHere.jump (h : SeqHere) (s : State) (t : W32) : Except Abort State :=
  match target1 h.i.pc t with
  | .error c => .error (.trap (h.report c (if c = cBADTARGET then rawTarget h.i.pc t else 0)) s)
  | .ok p =>
    match s.landing h.i.core (s.launch (s.crew h.i.crew).launch).ctx p with
    | .error x => .error (.stop x)
    | .ok (s1, l) =>
      match l.dest with
      | some d => .ok (s1.putInst h.key { h.i with pc := d.1, fetch := .none, wait := .none })
      | none => .error (.trap (h.report l.causes l.faddr) s1)

/-- BR (R141). -/
def execBr (t : W32) (s : State) : Host.Outcome State Fault Refusal :=
  if s.onSeqStream then onSeq s fun h => h.jump s t
  else
    onWave Guard.none {} s fun h => do
      let (s1, x) ← h.relLanding s (target1 h.f.pc t) (rawTarget h.f.pc t)
      let d ← h.landed s1 x
      .ok (h.goto s1 d.1)

/-- R141: a conditional branch; its target is checked whether or not it is taken. -/
def Here.brc (h : Here) (s : State) (t : W32) (cond : Bool) : Except Abort State := do
  let (s1, x) ← h.relLanding s (target1 h.f.pc t) (rawTarget h.f.pc t)
  let d ← h.landed s1 x
  .ok (if cond then h.goto s1 d.1 else h.done s1 id)

/-- BRC_NE_SCALAR. -/
def execBrcNeS (a : BitVec 6) (t : W32) (s : State) : Host.Outcome State Fault Refusal :=
  onWave Guard.none { sr := [a.toNat] } s fun h => h.brc s t (h.s a != 0)

/-- BRC_EQ_SCALAR. -/
def execBrcEqS (a : BitVec 6) (t : W32) (s : State) : Host.Outcome State Fault Refusal :=
  onWave Guard.none { sr := [a.toNat] } s fun h => h.brc s t (h.s a == 0)

/-- BRC_ANY_PREDICATE: some lane of the active mask. -/
def execBrcAnyP (b : BitVec 4) (t : W32) (s : State) : Host.Outcome State Fault Refusal :=
  onWave Guard.none { pr := [b.toNat] } s fun h => h.brc s t (h.f.mask &&& h.w.readP b.toNat != 0)

/-- BRC_ALL_PREDICATE: every lane of the active mask. -/
def execBrcAllP (b : BitVec 4) (t : W32) (s : State) : Host.Outcome State Fault Refusal :=
  onWave Guard.none { pr := [b.toNat] } s fun h => h.brc s t (h.f.mask &&& ~~~(h.w.readP b.toNat) == 0)

/-- BRC_NONE_PREDICATE: no lane of the active mask. -/
def execBrcNoneP (b : BitVec 4) (t : W32) (s : State) : Host.Outcome State Fault Refusal :=
  onWave Guard.none { pr := [b.toNat] } s fun h => h.brc s t (h.f.mask &&& h.w.readP b.toNat == 0)

/-- R96: the second target as an address. -/
def rawTarget2 (pc : Pc) (j : BitVec 24) : W64 :=
  BitVec.ofInt 64 ((lineAddr pc : Int) + (j.extractLsb' 3 21).toInt * 64 + (bits j 0 3 : Int))

/-- BRV (R142): both targets are checked before anything else; causes of both stand together (R109). (DEDUCED, log 21.) -/
def execBrv (b : BitVec 4) (t : W32) (j : BitVec 24) (s : State) : Host.Outcome State Fault Refusal :=
  onWave Guard.none { pr := [b.toNat] } s fun h => do
    let (s1, x) ← h.relLanding s (target1 h.f.pc t) (rawTarget h.f.pc t)
    let (s2, y) ← h.relLanding s1 (target2 h.f.pc j) (rawTarget2 h.f.pc j)
    match x.dest, y.dest with
    | some d, some e =>
      let K := h.f.mask &&& h.w.readP b.toNat
      if K = 0 then .ok (h.done s2 id)
      else if K = h.f.mask then .ok (h.goto s2 d.1)
      else
        h.split s2 K d.1 e.1 (advancePc h.f.pc h.f.fetch)
    | _, _ =>
      .error (.trap { h.report (x.causes ||| y.causes) with faddr := if x.dest.isSome then y.faddr else x.faddr } s2)

/-- JOIN (R143). -/
def execJoin (s : State) : Host.Outcome State Fault Refusal :=
  onWave Guard.none {} s fun h =>
    match h.f.recon with
    | some r => .ok (h.goto s r)
    | none => h.ok s id

/-- R144, R145: the cause of a call's successor outside the range. -/
def linkCause (pc : Pc) : W64 := if (successor pc).isNone then cPCWRAP else 0

/-- The return PC as a link register holds it (R144). -/
def linkOf (pc : Pc) : W64 := ((successor pc).getD 0).setWidth 64

/-- CALL (R144). -/
def execCall (d : BitVec 6) (t : W32) (s : State) : Host.Outcome State Fault Refusal :=
  onWave Guard.none {} s fun h => do
    let (s1, x) ← h.relLanding s (target1 h.f.pc t) (rawTarget h.f.pc t)
    let bud := match x.dest with
      | some e => if h.w.n < entryBudget e.2 then cBUDGETREG else 0
      | none => 0
    let causes := x.causes ||| linkCause h.f.pc ||| bud
    match x.dest with
    | some e =>
      if causes = 0 then .ok (h.goto s1 e.1 fun w => w.writeS h.side d.toNat (linkOf h.f.pc))
      else if bud = 0 then .error (.trap (h.report causes) s1)
      else .error (.trap (h.lanesReport causes h.f.mask fun _ => e.1.setWidth 64) s1)
    | none => .error (.trap { h.report causes with faddr := x.faddr } s1)

/-- R145: the checks of the targets of the active lanes, in increasing lane order. (DEDUCED, log 21.) -/
def Here.calliChecks (h : Here) (tgt : Nat → W64) : State → List Nat → Except Abort (State × List (Nat × W64))
  | s, [] => .ok (s, [])
  | s, l :: ls =>
    match h.absLanding s (tgt l) with
    | .error a => .error a
    | .ok (s1, x) =>
      let c := match x.dest with
        | some e => if h.w.n < entryBudget e.2 then cBUDGETREG else 0
        | none => x.causes
      match h.calliChecks tgt s1 ls with
      | .error a => .error a
      | .ok (s2, r) => .ok (s2, if c = 0 then r else (l, c) :: r)

/-- CALLI (R145). -/
def execCalli (d : BitVec 6) (a : BitVec 8) (s : State) : Host.Outcome State Fault Refusal :=
  onWave Guard.none { vr := [a.toNat, a.toNat + 1] } s fun h => do
    let tgt (l : Nat) := h.w.readV64 a.toNat l
    let ls := lanesOf h.f.mask
    let (s1, bad) ← h.calliChecks tgt s ls
    let causes := bad.foldl (fun c x => c ||| x.2) (linkCause h.f.pc)
    if causes != 0 then .error (.trap (h.lanesReport causes (lanesMask (bad.map (·.1))) tgt) s1)
    else
      let link (w : Wave) := w.writeS h.side d.toNat (linkOf h.f.pc)
      match ls with
      | [] => .ok (h.done s1 link)
      | l0 :: _ =>
        let K := lanesMask (ls.filter fun l => tgt l == tgt l0)
        let t := (tgt l0).setWidth 56
        if K = h.f.mask then .ok (h.goto s1 t link)
        else
          let w1 := link h.w
          ({ h with w := w1, f := (w1.frag h.side).getD h.f }).split s1 K t ((successor h.f.pc).getD 0) (h.f.pc, h.f.fetch)

/-- R146: a computed transfer. -/
def Here.jumpTo (h : Here) (s : State) (v : W64) : Except Abort State := do
  let (s1, x) ← h.absLanding s v
  let d ← h.landed s1 x
  .ok (h.goto s1 d.1)

/-- RET (R146). -/
def execRet (a : BitVec 6) (s : State) : Host.Outcome State Fault Refusal :=
  onWave Guard.none { sr := [a.toNat] } s fun h => h.jumpTo s (h.s a)

/-- JMP (R146). -/
def execJmp (a : BitVec 6) (e : W32) (s : State) : Host.Outcome State Fault Refusal :=
  onWave Guard.none { sr := [a.toNat] } s fun h => h.jumpTo s (h.s a + sext64 e)

/-- YIELD (R147): no effect on architectural state; at its issue the fragment is noted as the one that yielded (R385). -/
def execYield (s : State) : Host.Outcome State Fault Refusal :=
  onWave Guard.none {} s fun h => h.ok s id

/-- R150: the address that a break reports. -/
def breakAddr (pc : Pc) (e : BitVec 8) : W64 := e ++ pc

/-- BRK (R150): the work adjourns with BREAK, its PC at the successor; a RUNOFF that would be met there is not kept. (DEDUCED, log 24.) -/
def execBrk (e : BitVec 8) (s : State) : Host.Outcome State Fault Refusal :=
  if s.onSeqStream then
    onSeq s fun h => .error (.trap { causes := cBREAK, pc := (advancePc h.i.pc h.i.fetch).1.setWidth 64,
                                     faddr := breakAddr h.i.pc e } (s.putInst h.key { h.i with audit := false }))
  else
    onWave Guard.none {} s fun h =>
      .error (.trap { h.report cBREAK h.f.mask with pc := (advancePc h.f.pc h.f.fetch).1.setWidth 64,
                                                    faddr := breakAddr h.f.pc e } s)

/-- SLEEP (R151): a wait of kind time; `sleep 0` acts as yield. -/
def execSleep (e : W32) (s : State) : Host.Outcome State Fault Refusal :=
  onWave Guard.none {} s fun h =>
    match h.f.wait with
    | .time t => if t ≤ s.clk then h.ok s id else .ok s
    | _ => if e = 0 then h.ok s id else .ok (h.await s (.time (s.clk + e.setWidth 64)))

/-- TIME_WAIT_EXPIRY (R151): a time wait whose deadline has come ends; a fragment without its line returns when it issues. -/
def execTimeWaitExpiry (w : Nat) (b : Bool) (s : State) : Host.Outcome State Fault Refusal :=
  match s.fragment w b with
  | none => .next s
  | some h =>
    match h.f.wait with
    | .time t => if t ≤ s.clk ∧ h.f.fetched then .next (h.done s id) else .next s
    | _ => .next s

/-- R152: the registers that rgn names. -/
def rgnRegs (a : BitVec 8) (m : W32) : List Nat :=
  ((List.range 32).filter fun i => m.getLsbD i).map (a.toNat + ·)

/-- RGN (R57, R152): the operand buffer holds the named registers and no others; v_A exists whatever m is. (DEDUCED, log 27.) -/
def execRgn (a : BitVec 8) (m : W32) (s : State) : Host.Outcome State Fault Refusal :=
  onWave Guard.none {} s fun h =>
    if a.toNat < h.w.n && (rgnRegs a m).all fun r => r < h.w.n then h.ok s fun w => { w with opbuf := rgnRegs a m }
    else .error (.trap (h.report cILL) s)

end Sys2Proof.Machine
end

