-- ==== Sys2Proof/Machine/Matrix.lean ====
section
/-!
DEFINITION. The arithmetic of the matrix unit: operand layouts (R292), matrix sums (R52), rescaling (R296), the affine combine
and scan (R54, R55, R300), and the audit's CRC (R305).
-/
namespace Sys2Proof.Machine

/-- R52: the group size of a format. -/
def matGroup : Ty → Nat
  | .f64 => 1
  | .f32 => 4
  | .f16 | .bf16 => 8
  | .e4m3 | .e5m2 => 16
  | _ => 32

/-- R292: bytes of a DX block record. -/
def dxRecord (t : Ty) : Nat := if t = Ty.dx8 then 36 else 20

def isDx (t : Ty) : Bool := t == .dx8 || t == .dx4

/-- R292: bytes of a row of A. -/
def rowBytes (t : Ty) (k : Nat) : Nat := if isDx t then k / 32 * dxRecord t else k * t.width / 8

/-- R292: distance of the columns of B. -/
def colBytes (t : Ty) (k : Nat) : Nat := if isDx t then k / 32 * dxRecord t else (k * t.width / 8 + 3) / 4 * 4

/-- R292: the extent of B that R279 checks. -/
def extentB (t : Ty) (sp : Bool) (k : Nat) : Nat := if sp then 64 * (k / 32) * (4 + 4 * t.width) else 64 * colBytes t k

/-- A little-endian number of `n` bytes from a store. -/
def leAt (rd : Nat → Byte) (a n : Nat) : Nat := leNat ((List.range n).map fun i => rd (a + i))

/-- R292, R37, R38: element e of a row of A or a dense column of B. -/
def matElem (t : Ty) (rd : Nat → Byte) (a e : Nat) : FVal :=
  if isDx t then
    let r := a + e / 32 * dxRecord t
    let i := e % 32
    let code := if t = Ty.dx8 then (rd (r + 4 + i)).toNat else (rd (r + 4 + i / 2)).toNat / 16 ^ (i % 2) % 16
    decodeDx t (rd r).toNat (rd (r + 1)).toNat code
  else decodeF t false (leAt rd (a + e * t.width / 8) (t.width / 8))

/-- A row of A or a dense column of B. -/
def matRow (t : Ty) (k : Nat) (rd : Nat → Byte) (a : Nat) : List FVal := (List.range k).map fun e => matElem t rd a e

/-- R220, R292: one group of a compressed column: its elements and its length in bytes. -/
def sparseGroup (t : Ty) (rd : Nat → Byte) (a : Nat) : List FVal × Nat :=
  let w := t.width
  let mask := leAt rd a 4
  let n := ((List.range 32).filter fun i => mask.testBit i).length
  let bytes := (w * n + 31) / 32 * 4
  let data := leAt rd (a + 4) bytes
  ((List.range 32).map fun i =>
      if mask.testBit i then
        let j := ((List.range i).filter fun x => mask.testBit x).length
        decodeF t false (data / 2 ^ (w * j) % 2 ^ w)
      else .fin false 0 0,
    4 + bytes)

/-- The groups of a column, and where they end. -/
def sparseColumn (t : Ty) (rd : Nat → Byte) : Nat → Nat → List FVal × Nat
  | 0, a => ([], a)
  | g + 1, a =>
    let x := sparseGroup t rd a
    let y := sparseColumn t rd g (a + x.2)
    (x.1 ++ y.1, y.2)

/-- The columns that follow one another, and where they end. -/
def sparseColumns (t : Ty) (k : Nat) (rd : Nat → Byte) : Nat → Nat → List (List FVal) × Nat
  | 0, a => ([], a)
  | n + 1, a =>
    let x := sparseColumn t rd (k / 32) a
    let y := sparseColumns t k rd n x.2
    (x.1 :: y.1, y.2)

/-- R292: the 64 columns of B, and where they end. -/
def matB (t : Ty) (sp : Bool) (k : Nat) (rd : Nat → Byte) (a : Nat) : List (List FVal) × Nat :=
  if sp then sparseColumns t k rd 64 a
  else ((List.range 64).map fun n => matRow t k rd (a + n * colBytes t k), a + 64 * colBytes t k)

/-- A product that is +∞ or −∞ of the given sign. -/
def infProduct (neg : Bool) (p : FVal × FVal) : Bool :=
  match resMul p.1 p.2 with
  | .value (.inf n) _ => n == neg
  | _ => false

/-- R52: the exact sum of a group: none stands for NaN. -/
def groupSum (mode : Rnd) (ps : List (FVal × FVal)) : Option FVal × Flags :=
  let isNan (p : FVal × FVal) : Bool := p.1.isNaN || p.2.isNaN
  let clash := (ps.any fun p => !isNan p && resMul p.1 p.2 == .invalid) ||
    ((ps.any fun p => !isNan p && infProduct false p) && ps.any fun p => !isNan p && infProduct true p)
  let fl := if clash || ps.any fun p => p.1.isSNaN || p.2.isSNaN then flNV else 0
  if clash || ps.any isNan then (none, fl)
  else if ps.any (infProduct false) then (some (.inf false), fl)
  else if ps.any (infProduct true) then (some (.inf true), fl)
  else
    match ps with
    | [] => (some (.fin false 0 0), fl)
    | p :: rest =>
      let x := rest.foldl (fun x q => sumEx mode x (mulEx q.1.exact q.2.exact)) (mulEx p.1.exact p.2.exact)
      (some (.fin x.neg x.m x.e), fl)

/-- R52: acc + S, rounded once. -/
def addGroup (t : Ty) (mode : Rnd) (acc : FVal) (x : Option FVal × Flags) : FVal × Flags :=
  let fl := x.2 ||| if acc.isSNaN then flNV else 0
  match x.1 with
  | none => (canonNaN, fl)
  | some v =>
    if acc.isNaN then (canonNaN, fl)
    else
      let r := deliver t { mode } false [v, acc] (resAdd mode v acc)
      (r.1, fl ||| r.2)

/-- R52: the groups of a row and a column, in increasing index. -/
def matGroups (t : Ty) (mode : Rnd) (g : Nat) : Nat → FVal × Flags → List (FVal × FVal) → FVal × Flags
  | 0, acc, _ => acc
  | n + 1, acc, ps =>
    if ps.isEmpty then acc
    else
      let r := addGroup t mode acc.1 (groupSum mode (ps.take g))
      matGroups t mode g n (r.1, acc.2 ||| r.2) (ps.drop g)

/-- R52, R293: one element: its bits after the sum, and the flags. -/
def matSum (fmt : Ty) (mode : Rnd) (acc : Nat) (row col : List FVal) : Nat × Flags :=
  let t := if fmt = Ty.f64 then Ty.f64 else Ty.f32
  let r := matGroups t mode (matGroup fmt) row.length (decodeF t false acc, 0) (row.zip col)
  (encodeF t r.1, r.2)

/-- R296: one element rescaled. -/
def rescale (t : Ty) (mode : Rnd) (acc f : Nat) : Nat × Flags :=
  let a := decodeF t false acc
  let b := decodeF t false f
  let r := deliver t { mode } false [a, b] (resMul a b)
  (encodeF t r.1, r.2)

/-- A gain and an offset, as bits. -/
abbrev Affine := Nat × Nat

/-- R55: the exact product of two gains is non-zero and below 2^−126 in magnitude. -/
def gainUnder (a b : FVal) : Bool :=
  match a, b with
  | .fin _ m _, .fin _ n _ => m != 0 && n != 0 && leadExp (m * n) (a.exact.e + b.exact.e) < -126
  | _, _ => false

/-- R54, R55: combine(later, earlier). -/
def combine (mode : Rnd) (ksg : Bool) (later earlier : Affine) : Affine × Flags :=
  let d := decodeF .f32 false
  let g := deliver .f32 { mode } false [d later.1, d earlier.1] (resMul (d later.1) (d earlier.1))
  let b := deliver .f32 { mode } false [d later.1, d earlier.2, d later.2] (resFma mode (d later.1) (d earlier.2) (d later.2))
  let g1 : FVal × Flags :=
    if gainUnder (d later.1) (d earlier.1) then
      if ksg then (g.1, g.2 ||| flGU) else (.fin ((d later.1).neg != (d earlier.1).neg) 0 0, flGU)
    else g
  ((encodeF .f32 g1.1, encodeF .f32 b.1), g1.2 ||| b.2)

/-- R300: one level of the network. -/
def scanLevel (mode : Rnd) (ksg : Bool) (d : Nat) (x : List Affine × Flags) : List Affine × Flags :=
  let r := (List.range x.1.length).map fun i =>
    if i < d then (x.1.getD i (0, 0), 0) else combine mode ksg (x.1.getD i (0, 0)) (x.1.getD (i - d) (0, 0))
  (r.map (·.1), r.foldl (fun f y => f ||| y.2) x.2)

/-- R300: one column: its rows after the scan, its carry, and the flags. -/
def scanColumn (mode : Rnd) (ksg : Bool) (rows : List Affine) (carry : Affine) : List Affine × Affine × Flags :=
  let e := (List.range 6).foldl (fun x s => scanLevel mode ksg (2 ^ s) x) (rows, (0 : Flags))
  let r := e.1.map fun x => combine mode ksg x carry
  (r.map (·.1), ((r.getLast?).map (·.1)).getD (0, 0), r.foldl (fun f y => f ||| y.2) e.2)

/-- R305: one bit of the CRC. -/
def crcBit (c : W64) : W64 := if c.getLsbD 63 then (c <<< 1) ^^^ 0x42F0E1EBA9EA3693 else c <<< 1

/-- R305: one byte. -/
def crcByte (c : W64) (b : Byte) : W64 :=
  (List.range 8).foldl (fun c _ => crcBit c) (c ^^^ (b.setWidth 64 <<< 56))

/-- R305: some bytes. -/
def crc64 (c : W64) (l : List Byte) : W64 := l.foldl crcByte c

end Sys2Proof.Machine
end

