-- ==== Sys2Proof/Machine/MatrixOps.lean ====
section
/-!
DEFINITION. Class 0xA: the matrix operations, from issue (R279, R280, R283) to their commit in one step (R281, R282).
-/
namespace Sys2Proof.Machine

/-- R279: the crew, launch and context of an instance. -/
def State.instCrew (s : State) (i : Inst) : Crew := s.crew i.crew
def State.instLaunch (s : State) (i : Inst) : Launch := s.launch (s.crew i.crew).launch

/-- R53: the rounding field of the sequencer's mode register holds 6. -/
def Inst.seqSr (i : Inst) : Bool := bits i.mode 0 3 == 6

/-- R53: seqmode. -/
def Inst.rnd (i : Inst) : Rnd := modeRnd (i.mode.setWidth 32)

/-- R279: Eff. -/
def Inst.eff (i : Inst) (x : BitVec 4) : Nat := (i.base.read x.toNat).toNat

/-- R279: an extent of the A-store lies in the run. -/
def Crew.runHas (c : Crew) (off n : Nat) : Bool := off + n ≤ c.runLen

/-- R283: a cause at issue. (DEDUCED, log 28; DEDUCED, log 34.) -/
def SeqHere.bad (h : SeqHere) (s : State) (x : W64) (faddr : Nat := 0) : Except Abort State :=
  .error (.trap (h.report x (BitVec.ofNat 64 faddr)) s)

/-- R280: the operation takes a permit and waits for its turn; the instance goes on. -/
def SeqHere.push (h : SeqHere) (s : State) (op : Instr) (a b c : BitVec 4) (bank : Nat := 0) : Except Abort State :=
  if Config.matrixPermits ≤ h.i.ops.length then .error (.hold s)
  else
    let i := h.i
    let o : MatOp := { op, ea := i.eff a, eb := i.eff b, ec := i.eff c, bank, pc := i.pc, fetch := i.fetch, depth := i.depth,
                       ctr := i.ctr, start := i.start, base := i.base, stride := i.stride }
    .ok (h.done s fun i => { i with ops := i.ops ++ [o] })

/-- R282: an operation whose effect reaches beyond the C-store issues once nothing is pending. -/
def SeqHere.alone (h : SeqHere) (s : State) (k : Except Abort State) : Except Abort State :=
  if h.i.ops = [] then k else .error (.hold s)

/-- R257: the stores of the core belong to the instance's context; else it waits. -/
def SeqHere.owned (h : SeqHere) (s : State) (k : State → Except Abort State) : Except Abort State :=
  match s.own h.i.core (s.instLaunch h.i).ctx with
  | some s1 => k s1
  | none => .error (.hold (s.putInst h.key { h.i with wait := .hidden }))

/-- R292: an operand of 64 rows at a stride. -/
def rowsExtent (rs : BitVec 16) (n : Nat) : Nat := 63 * (16 * rs.toNat) + n

/-- R279: the A extent, or PROT. -/
def SeqHere.inRun (h : SeqHere) (s : State) (off n : Nat) (k : Except Abort State) : Except Abort State :=
  if (s.instCrew h.i).runHas off n then k else h.bad s cPROT off

/-- MMA at issue (R293). -/
def execMma (o : Mma) (s : State) : Host.Outcome State Fault Refusal :=
  onSeq s fun h =>
    if h.i.seqSr then h.bad s cILL
    else h.inRun s (h.i.eff o.xa) (rowsExtent o.rs (rowBytes o.fmt o.k.toNat))
      (if 2 ^ 18 < h.i.eff o.xb + extentB o.fmt o.sp o.k.toNat then h.bad s cPROT (h.i.eff o.xb)
       else h.owned s fun s1 => h.push s1 (.mma o) o.xa o.xb 0)

/-- MMAG at issue (R294); its table is read and checked when it runs. -/
def execMmag (o : Mma) (s : State) : Host.Outcome State Fault Refusal :=
  onSeq s fun h => h.alone s
    (if h.i.seqSr then h.bad (s.putInst h.key { h.i with audit := false }) cILL else h.owned s fun s1 => h.push s1 (.mmag o) o.xa o.xb 0)

/-- MZERO at issue (R295). -/
def execMzero (d : BitVec 3) (s : State) : Host.Outcome State Fault Refusal :=
  onSeq s fun h => h.push s (.mzero d) 0 0 0

/-- MLOAD at issue (R295). -/
def execMload (ty : Ty) (d : BitVec 3) (xa : BitVec 4) (rs : BitVec 16) (s : State) : Host.Outcome State Fault Refusal :=
  onSeq s fun h => h.inRun s (h.i.eff xa) (rowsExtent rs (8 * ty.width)) (h.push s (.mload ty d xa rs) xa 0 0)

/-- MDRAIN at issue (R297, R176). -/
def execMdrain (o : Drain) (s : State) : Host.Outcome State Fault Refusal :=
  onSeq s fun h => h.alone s
    (h.inRun s (h.i.eff o.xa) (rowsExtent o.rs (8 * o.ty.width))
      (if o.act then
         h.inRun s (h.i.eff o.xc) 8
           (h.owned s fun s1 => if s1.flipping h.i.core then .error (.hold s1)
             else h.push s1 (.mdrain o) o.xa 0 o.xc (s1.bankOf h.i.core))
       else h.push s (.mdrain o) o.xa 0 0))

/-- MDRAINX at issue (R298). -/
def execMdrainx (ty : Ty) (rnd : Rnd) (sat : Sat) (d : BitVec 3) (q : BitVec 12) (s : State) : Host.Outcome State Fault Refusal :=
  onSeq s fun h => h.alone s (h.push s (.mdrainx ty rnd sat d q) 0 0 0)

/-- MRSC at issue (R296). -/
def execMrsc (ty : Ty) (d : BitVec 3) (xa : BitVec 4) (s : State) : Host.Outcome State Fault Refusal :=
  onSeq s fun h =>
    if h.i.seqSr then h.bad s cILL
    else h.inRun s (h.i.eff xa) (8 * ty.width) (h.push s (.mrsc ty d xa) xa 0 0)

/-- MAFFL at issue (R299). -/
def execMaffl (d : BitVec 3) (xa xb : BitVec 4) (rs : BitVec 16) (s : State) : Host.Outcome State Fault Refusal :=
  onSeq s fun h =>
    h.inRun s (h.i.eff xa) (rowsExtent rs 256) (h.inRun s (h.i.eff xb) (rowsExtent rs 256) (h.push s (.maffl d xa xb rs) xa xb 0))

/-- MSCAN at issue (R300). -/
def execMscan (d : BitVec 3) (c : BitVec 3) (s : State) : Host.Outcome State Fault Refusal :=
  onSeq s fun h => if h.i.seqSr then h.bad s cILL else h.push s (.mscan d c) 0 0 0

/-- MCAR, load, at issue (R301). -/
def execMcarLoad (d : BitVec 3) (xa : BitVec 4) (s : State) : Host.Outcome State Fault Refusal :=
  onSeq s fun h => h.inRun s (h.i.eff xa) 512 (h.push s (.mcarLoad d xa) xa 0 0)

/-- MCAR, store, at issue (R301). -/
def execMcarStore (d : BitVec 3) (xa : BitVec 4) (s : State) : Host.Outcome State Fault Refusal :=
  onSeq s fun h => h.alone s (h.inRun s (h.i.eff xa) 512 (h.push s (.mcarStore d xa) xa 0 0))

/-- MCAR, reset, at issue (R301). -/
def execMcarReset (d : BitVec 3) (s : State) : Host.Outcome State Fault Refusal :=
  onSeq s fun h => h.push s (.mcarReset d) 0 0 0

/-- Why an operation does not commit. -/
inductive MatStop where
  | trap (c : W64) (faddr : Nat) (detail : Nat)
  | wait
  | absent
  deriving DecidableEq, Repr

/-- Everything that an operation works on. -/
structure MatCtx where
  key : Nat
  i : Inst
  o : MatOp
  c : Crew
  l : Launch
  deriving DecidableEq, Repr

/-- A byte of the run, and of the W-store. -/
def MatCtx.rdA (m : MatCtx) (s : State) (a : Nat) : Byte := s.stores.astore.read (2 ^ 22 * m.c.clus + m.c.base + a)
def MatCtx.rdW (m : MatCtx) (s : State) (a : Nat) : Byte := s.stores.wstore.read (2 ^ 18 * m.i.core + a)

/-- 64 rows as ranges. -/
def rowRanges (a rs n : Nat) : List (Nat × Nat) := (List.range 64).map fun i => (a + i * rs, n)

/-- R290: what a scpy of the instance in flight reads and writes on this core. -/
def copyHits (c : Copy) (rdA wrA rdW : List (Nat × Nat)) : Bool :=
  (match c.locDst with
    | some (a, n) => (rdA ++ wrA).any fun r => meets a n r.1 r.2
    | none => false) ||
  (match c.locSrc with
    | some (a, n) => wrA.any fun r => meets a n r.1 r.2
    | none => false) ||
  ((c.as == .cpyw || c.as == .cpywSparse) && rdW.any fun r => meets c.dst c.dstLen r.1 r.2)

/-- R258: an 8-byte word of the W-store that cannot be read, of those that a range touches. -/
def State.badW (s : State) (core a n : Nat) : Option Nat :=
  if n = 0 then none
  else (List.range ((a + n - 1) / 8 - a / 8 + 1)).find? fun x => s.stores.bad.contains (1, 2 ^ 15 * core + a / 8 + x)

/-- R76: code words of rows `lo, …, lo+n-1` of an accumulator. -/
def accCodes (d lo n : Nat) : List Nat := (List.range (32 * n)).map fun x => 2048 * d + 32 * lo + x

def carryCodes (c : Nat) : List Nat := (List.range 64).map fun j => 100000 + 64 * c + j

/-- R429: DETAIL of an uncorrectable accumulator or carry word: its register, class 3 and row. -/
def seqDetail (code : Nat) : Nat :=
  if code < 100000 then code / 2048 * 256 + 3 * 2 ^ 16 + code % 2048 / 32 * 2 ^ 20
  else (code - 100000) / 64 * 256 + 3 * 2 ^ 16

/-- R264: the fills that a sequencer's operands want: asked for, or the first that fails. -/
def State.seqFills (core ck : Nat) : State → List (Nat × Nat) → State × Option MatStop
  | s, [] => (s, none)
  | s, (k, b) :: rest =>
    let c := s.crew ck
    let l := s.launch c.launch
    let va := c.winVa l k (256 * b)
    match s.fillCheck core l va with
    | (s1, .absent) => (s1, some .absent)
    | (s1, .bad x) => (s1, some (.trap x va 0))
    | (s1, _) =>
      match State.seqFills core ck s1 rest with
      | (s2, some (.trap x a d)) => (s2, some (.trap x a d))
      | (s2, some .absent) => (s2, some .absent)
      | (s2, _) => (s2.setCrew ck fun c => { c with fills := if c.fills.contains (k, b) then c.fills else c.fills ++ [(k, b)] },
                    some .wait)

/-- R76, R258, R263, R281: before an operation acts: earlier copies on its bytes are complete, its window words are filled, and
everything it reads can be read. -/
def MatCtx.ready (m : MatCtx) (s : State) (rdA wrA rdW : List (Nat × Nat)) (codes : List Nat) : State × Option MatStop :=
  let abs_ (r : Nat × Nat) : Nat × Nat := (m.c.base + r.1, r.2)
  if s.copies.any fun x => x.2.track == .seq m.key && copyHits x.2 (rdA.map abs_) (wrA.map abs_) rdW then (s, some .wait)
  else
    let fills := ((rdA.flatMap fun r => m.c.fillsFor m.l false (m.c.base + r.1) r.2) ++
      (wrA.flatMap fun r => m.c.fillsFor m.l true (m.c.base + r.1) r.2)).dedup
    match State.seqFills m.i.core m.i.crew s fills with
    | (s1, some x) => (s1, some x)
    | (s1, none) =>
      match (rdA.flatMap fun r => wordsOf (m.c.base + r.1) r.2).find? (s1.badWord m.c.clus) with
      | some w => (s1, some (.trap cMEMECC (4 * w) 0))
      | none =>
        match rdW.findSome? fun r => (s1.badW m.i.core r.1 r.2).map fun x => 8 * (r.1 / 8 + x) with
        | some a => (s1, some (.trap cMEMECC a 0))
        | none =>
          match codes.find? fun c => m.i.bad.contains c with
          | some c => (s1, some (.trap cREGECC 0 (seqDetail c)))
          | none => (s1, none)

/-- The element of an accumulator, or of a pair (R63). -/
def Inst.accAt (i : Inst) (f64 : Bool) (d e : Nat) : Nat :=
  (i.acc.read (4096 * d + e)).toNat + if f64 then 2 ^ 32 * (i.acc.read (4096 * (d + 1) + e)).toNat else 0

/-- Elements `lo, …` of an accumulator or a pair written; their words are correct again. -/
def Inst.putAcc (i : Inst) (f64 : Bool) (d lo : Nat) (l : List Nat) : Inst :=
  let n := l.length
  let one (i : Inst) (d sh : Nat) : Inst :=
    { i with acc := i.acc.update (4096 * d + lo) n fun k => BitVec.ofNat 32 (l.getD (k - (4096 * d + lo)) 0 / 2 ^ sh)
             bad := i.bad.filter fun c => !(2048 * d + lo / 2 ≤ c && c < 2048 * d + (lo + n) / 2) }
  if f64 then one (one i d 0) (d + 1) 32 else one i d 0

/-- R301: the carry of a column: gain and offset. -/
def Inst.carryAt (i : Inst) (c j : Nat) : Affine :=
  ((i.carry.read (128 * c + 2 * j) ^^^ 0x3F800000).toNat, (i.carry.read (128 * c + 2 * j + 1)).toNat)

def Inst.putCarry (i : Inst) (c : Nat) (l : List Affine) : Inst :=
  { i with carry := i.carry.update (128 * c) 128 fun k =>
             let x := l.getD ((k - 128 * c) / 2) (0, 0)
             if k % 2 = 0 then BitVec.ofNat 32 x.1 ^^^ 0x3F800000 else BitVec.ofNat 32 x.2
           bad := i.bad.filter fun b => !(100000 + 64 * c ≤ b && b < 100000 + 64 * c + 64) }

def Inst.raise (i : Inst) (fl : Flags) : Inst := { i with flags := i.flags ||| fl }

/-- R304: keys under which a tile task's reads and writes are covered. -/
def coverA (a n : Nat) : Nat × Nat := (a, n)
def coverW (a n : Nat) : Nat × Nat := (2 ^ 23 + a, n)
def coverAcc (d lo n : Nat) : Nat × Nat := (2 ^ 24 + 4096 * d + lo, n)
def coverCar (c : Nat) : Nat × Nat := (2 ^ 25 + c, 1)

/-- R304: a range lies in what was written, walked from its start. -/
def covered (ws : List (Nat × Nat)) : Nat → Nat → Nat → Bool
  | 0, _, n => n == 0
  | k + 1, a, n =>
    n == 0 ||
      match ws.find? fun w => w.1 ≤ a && a < w.1 + w.2 with
      | some w => covered ws k (w.1 + w.2) (n - (w.1 + w.2 - a))
      | none => false

/-- R304: what an operation reads and writes is noted. -/
def Inst.note (i : Inst) (rd wr : List (Nat × Nat)) : Inst :=
  { i with audit := i.audit && rd.all fun r => covered i.wrote (i.wrote.length + 1) r.1 r.2
           wrote := i.wrote ++ wr }

/-- The accumulators that an element of a format needs. -/
def accCover (f64 : Bool) (d lo n : Nat) : List (Nat × Nat) :=
  coverAcc d lo n :: if f64 then [coverAcc (d + 1) lo n] else []

def accWords (f64 : Bool) (d lo n : Nat) : List Nat := accCodes d lo n ++ if f64 then accCodes (d + 1) lo n else []

/-- R297: the state Z before row `i + 1` rounds. -/
def stepsZ (z : W32) : Nat → W32
  | 0 => z
  | n + 1 => stepZ (stepsZ z n)

/-- R297: a drain rounds stochastically. -/
def drainSr (ty : Ty) (act : Bool) (mode : Rnd) : Bool := mode == .sr && (act || (ty != .f32 && ty != .f64))

/-- R297: one element of a drain: its bits and flags. -/
def drainElem (ty : Ty) (act : Option ((Nat → Nat → Nat) × Nat × Nat)) (how : How) (sat : Sat) (x : Nat) : Nat × Flags :=
  if ty = Ty.f64 then (x, 0)
  else
    let y : Nat × Flags := match act with
      | some (seg, hh, k) => actF how false false .none seg x hh k
      | none => (x, 0)
    let r := convert ty .f32 how false false sat y.1
    (r.1, y.2 ||| r.2)

/-- R297: the rows of a drain as bytes, the flags, and Z after it. -/
def Inst.drainRows (i : Inst) (ty : Ty) (act : Option ((Nat → Nat → Nat) × Nat × Nat)) (mode : Rnd) (sat : Sat) (d : Nat) :
    List (List Byte) × Flags × W32 :=
  let z : W32 := i.mode.extractLsb' 32 32
  let sr := drainSr ty act.isSome mode
  let row (r : Nat) : List (Nat × Flags) := (List.range 64).map fun j =>
    drainElem ty act (howOf mode (stepsZ z (r + 1)) j 1 0) sat (i.accAt (ty == .f64) d (64 * r + j))
  let rows := (List.range 64).map row
  (rows.map fun (r : List (Nat × Flags)) => r.flatMap fun (x : Nat × Flags) => leBytes (ty.width / 8) x.1,
    (rows.flatMap fun (r : List (Nat × Flags)) => r.map (·.2)).foldl (fun f y => f ||| y) 0, if sr then stepsZ z 64 else z)

/-- R297: mode register after a drain. -/
def Inst.withZ (i : Inst) (z : W32) : Inst := { i with mode := z ++ (i.mode.setWidth 32 : W32) }

/-- R294: a group of the table. -/
structure MatGroup where
  rows : Nat
  boff : Nat
  deriving DecidableEq, Repr, Inhabited

def MatCtx.groups (m : MatCtx) (s : State) : List MatGroup :=
  (List.range (leAt (m.rdA s) m.o.eb 4)).map fun g =>
    ⟨leAt (m.rdA s) (m.o.eb + 0x10 + 8 * g) 4, leAt (m.rdA s) (m.o.eb + 0x14 + 8 * g) 4⟩

/-- The group that holds each row, in order: the groups with rows, each with its first row. -/
def groupStarts : Nat → List MatGroup → List (Nat × MatGroup)
  | _, [] => []
  | n, g :: gs => if g.rows = 0 then groupStarts n gs else (n, g) :: groupStarts (n + g.rows) gs

/-- R293: rows `lo, …` of an accumulator after a product. -/
def Inst.product (i : Inst) (o : Mma) (rows : List (List FVal)) (cols : List (List FVal)) (lo : Nat) : List (Nat × Flags) :=
  (List.range rows.length).flatMap fun r => cols.zipIdx.map fun c =>
    matSum o.fmt i.rnd (i.accAt (o.fmt == .f64) o.d.toNat (64 * (lo + r) + c.2)) (rows.getD r []) c.1

def flagsOf (l : List (Nat × Flags)) : Flags := l.foldl (fun f y => f ||| y.2) 0

/-- What a commit does: the state with the instance as it leaves it, or why it does not. -/
abbrev Commit := State × Except MatStop Inst

/-- Runs the rest when nothing stops it. -/
def orStop (r : State × Option MatStop) (k : State → Commit) : Commit :=
  match r with
  | (s, some x) => (s, .error x)
  | (s, none) => k s

/-- R293: mma. -/
def MatCtx.mma (m : MatCtx) (s : State) (o : Mma) : Commit :=
  let f64 := o.fmt == .f64
  let k := o.k.toNat
  let rs := 16 * o.rs.toNat
  let rdA := rowRanges m.o.ea rs (rowBytes o.fmt k)
  let b := matB o.fmt o.sp k (m.rdW s) m.o.eb
  let rdW := [(m.o.eb, b.2 - m.o.eb)]
  orStop (m.ready s rdA [] rdW (accWords f64 o.d.toNat 0 64)) fun s =>
    let b := matB o.fmt o.sp k (m.rdW s) m.o.eb
    let rows := (List.range 64).map fun r => matRow o.fmt k (m.rdA s) (m.o.ea + r * rs)
    let out := m.i.product o rows b.1 0
    (s, .ok (((m.i.putAcc f64 o.d.toNat 0 (out.map (·.1))).raise (flagsOf out)).note
      (rdA ++ (rdW.map fun (r : Nat × Nat) => coverW r.1 r.2) ++ accCover f64 o.d.toNat 0 4096) (accCover f64 o.d.toNat 0 4096)))

/-- R294: mmag. (DEDUCED, log 34.) -/
def MatCtx.mmag (m : MatCtx) (s : State) (o : Mma) : Commit :=
  let f64 := o.fmt == .f64
  let k := o.k.toNat
  let rs := 16 * o.rs.toNat
  if !m.c.runHas m.o.eb 16 then (s, .error (.trap cPROT m.o.eb 0))
  else
    orStop (m.ready s [(m.o.eb, 4)] [] [] []) fun s =>
      let ng := leAt (m.rdA s) m.o.eb 4
      if 64 < ng then (s, .error (.trap cRAGGED 0 0))
      else if !m.c.runHas m.o.eb (16 + 8 * ng) then (s, .error (.trap cPROT m.o.eb 0))
      else
        orStop (m.ready s [(m.o.eb + 16, 8 * ng)] [] [] []) fun s =>
          let gs := m.groups s
          let total := (gs.map (·.rows)).sum
          let live := groupStarts 0 gs
          if 64 < total then (s, .error (.trap cRAGGED 0 0))
          else
            match live.find? fun g => decide (2 ^ 18 < g.2.boff + extentB o.fmt o.sp k) with
            | some g => (s, .error (.trap cPROT g.2.boff 0))
            | none =>
              if total ≠ 0 ∧ !m.c.runHas m.o.ea ((total - 1) * rs + rowBytes o.fmt k) then (s, .error (.trap cPROT m.o.ea 0))
              else
                let rdA := (rowRanges m.o.ea rs (rowBytes o.fmt k)).take total
                let rdW := live.map fun g => (g.2.boff, (matB o.fmt o.sp k (m.rdW s) g.2.boff).2 - g.2.boff)
                orStop (m.ready s rdA [(m.o.eb + 8, 8)] rdW (accWords f64 o.d.toNat 0 total)) fun s =>
                  let out := live.flatMap fun g =>
                    m.i.product o ((List.range g.2.rows).map fun r => matRow o.fmt k (m.rdA s) (m.o.ea + (g.1 + r) * rs))
                      (matB o.fmt o.sp k (m.rdW s) g.2.boff).1 g.1
                  let mask : W64 := live.foldl (fun x g => x ||| (1#64) <<< g.1) 0
                  let i := (m.i.putAcc f64 o.d.toNat 0 (out.map (·.1))).raise (flagsOf out)
                  (s.storeLocal m.i.crew (m.c.base + m.o.eb + 8) 8 (bytesFn (m.c.base + m.o.eb + 8) (leBytes 8 mask.toNat)),
                    .ok ({ i with rowmask := mask }.note
                      (rdA ++ [(m.o.eb, 4), (m.o.eb + 16, 8 * ng)] ++ (rdW.map fun (r : Nat × Nat) => coverW r.1 r.2) ++
                        accCover f64 o.d.toNat 0 (64 * total))
                      ((m.o.eb + 8, 8) :: accCover f64 o.d.toNat 0 (64 * total))))

/-- R295: mload. -/
def MatCtx.mload (m : MatCtx) (s : State) (ty : Ty) (d : BitVec 3) (rs : Nat) : Commit :=
  let rdA := rowRanges m.o.ea rs (8 * ty.width)
  let n := ty.width / 8
  orStop (m.ready s rdA [] [] []) fun s =>
    let l := (List.range 4096).map fun e => leAt (m.rdA s) (m.o.ea + e / 64 * rs + e % 64 * n) n
    (s, .ok ((m.i.putAcc (ty == .f64) d.toNat 0 l).note rdA (accCover (ty == .f64) d.toNat 0 4096)))

/-- R297: the drain's bytes, row after row; the later of overlapping rows stands. -/
def State.storeRows (s : State) (ck a rs : Nat) (rows : List (List Byte)) : State :=
  rows.zipIdx.foldl (fun (s : State) (r : List Byte × Nat) => s.storeLocal ck (a + r.2 * rs) r.1.length (bytesFn (a + r.2 * rs) r.1)) s

/-- Bytes of a crew's run as they stand in an earlier state. -/
def State.keepBytes (s s0 : State) (c : Crew) (offs : List Nat) : State :=
  offs.foldl (fun s o => s.putA c.clus (c.base + o) 1 fun _ => s0.stores.astore.read (2 ^ 22 * c.clus + c.base + o)) s

/-- R175, R258: the first coefficient half that the elements of a drain with .act cannot read. -/
def MatCtx.badCoeff (m : MatCtx) (s : State) (d : Nat) (hh k : Nat) : Option Nat :=
  (List.range 4096).findSome? fun e =>
    ((actSegment false (m.i.accAt false d e) hh k).bind (s.badSegment m.i.core m.o.bank)).map (4096 * m.o.bank + ·)

/-- R297: mdrain. -/
def MatCtx.mdrain (m : MatCtx) (s : State) (o : Drain) : Commit :=
  let f64 := o.ty == .f64
  let rs := 16 * o.rs.toNat
  let wrA := rowRanges m.o.ea rs (8 * o.ty.width)
  let rdA := if o.act then [(m.o.ec, 8)] else []
  orStop (m.ready s rdA wrA [] (accWords f64 o.d.toNat 0 64)) fun s =>
    let hh := leAt (m.rdA s) m.o.ec 4
    let k := leAt (m.rdA s) (m.o.ec + 4) 4
    match if o.act then m.badCoeff s o.d.toNat hh k else none with
    | some a => (s, .error (.trap cMEMECC a 0))
    | none =>
      let r := m.i.drainRows o.ty (if o.act then some (s.coeff m.i.core m.o.bank, hh, k) else none)
        (effMode (m.i.mode.setWidth 32) o.rnd) o.sat o.d.toNat
      let i := (m.i.raise r.2.1).withZ r.2.2
      ((s.storeRows m.i.crew (m.c.base + m.o.ea) rs r.1).keepBytes s m.c m.o.put,
        .ok ({ i with sig := crc64 i.sig r.1.flatten }.note (rdA ++ accCover f64 o.d.toNat 0 4096) wrA))

/-- R298: the message of an mdrainx. -/
def MatCtx.message (m : MatCtx) (ty : Ty) (rows : List (List Byte)) : LinkOpn :=
  { kind := if ty = Ty.f32 then 1 else 2, len := rows.flatten.length, data := some rows.flatten, drainx := true,
    launch := some m.c.launch, crew := m.i.crew, core := m.i.core, inst := some m.key }

/-- R296: mrsc. -/
def MatCtx.mrsc (m : MatCtx) (s : State) (ty : Ty) (d : BitVec 3) : Commit :=
  let f64 := ty == .f64
  let n := ty.width / 8
  orStop (m.ready s [(m.o.ea, 64 * n)] [] [] (accWords f64 d.toNat 0 64)) fun s =>
    let out := (List.range 4096).map fun e =>
      rescale ty m.i.rnd (m.i.accAt f64 d.toNat e) (leAt (m.rdA s) (m.o.ea + e / 64 * n) n)
    (s, .ok (((m.i.putAcc f64 d.toNat 0 (out.map (·.1))).raise (flagsOf out)).note
      ((m.o.ea, 64 * n) :: accCover f64 d.toNat 0 4096) (accCover f64 d.toNat 0 4096)))

/-- R299: maffl. -/
def MatCtx.maffl (m : MatCtx) (s : State) (d : BitVec 3) (rs : Nat) : Commit :=
  let rdA := rowRanges m.o.ea rs 256 ++ rowRanges m.o.eb rs 256
  orStop (m.ready s rdA [] [] []) fun s =>
    let l (a : Nat) := (List.range 4096).map fun e => leAt (m.rdA s) (a + e / 64 * rs + 4 * (e % 64)) 4
    (s, .ok (((m.i.putAcc false d.toNat 0 (l m.o.ea)).putAcc false (d.toNat + 1) 0 (l m.o.eb)).note rdA
      (accCover true d.toNat 0 4096)))

/-- R300: mscan. -/
def MatCtx.mscan (m : MatCtx) (s : State) (d c : BitVec 3) : Commit :=
  orStop (m.ready s [] [] [] (accWords true d.toNat 0 64 ++ carryCodes c.toNat)) fun s =>
    let ksg := m.i.mode.getLsbD 10
    let cols := (List.range 64).map fun j =>
      scanColumn m.i.rnd ksg ((List.range 64).map fun r =>
        (m.i.accAt false d.toNat (64 * r + j), m.i.accAt false (d.toNat + 1) (64 * r + j))) (m.i.carryAt c.toNat j)
    let at_ (e : Nat) : Affine := ((cols.getD (e % 64) ([], (0, 0), 0)).1).getD (e / 64) (0, 0)
    let i1 := (m.i.putAcc false d.toNat 0 ((List.range 4096).map fun e => (at_ e).1)).putAcc false (d.toNat + 1) 0
      ((List.range 4096).map fun e => (at_ e).2)
    let i2 := (i1.putCarry c.toNat (cols.map fun x => x.2.1)).raise (cols.foldl (fun f x => f ||| x.2.2) 0)
    (s, .ok ({ i2 with chunk := i2.chunk + 1 }.note (coverCar c.toNat :: accCover true d.toNat 0 4096)
      (coverCar c.toNat :: accCover true d.toNat 0 4096)))

/-- R301: mcar, load. -/
def MatCtx.mcarLoad (m : MatCtx) (s : State) (c : BitVec 3) : Commit :=
  orStop (m.ready s [(m.o.ea, 512)] [] [] []) fun s =>
    let l := (List.range 64).map fun j => (leAt (m.rdA s) (m.o.ea + 8 * j) 4, leAt (m.rdA s) (m.o.ea + 8 * j + 4) 4)
    (s, .ok ({ m.i.putCarry c.toNat l with chunk := 0 }.note [(m.o.ea, 512)] [coverCar c.toNat]))

/-- R301: mcar, store. -/
def MatCtx.mcarStore (m : MatCtx) (s : State) (c : BitVec 3) : Commit :=
  orStop (m.ready s [] [(m.o.ea, 512)] [] (carryCodes c.toNat)) fun s =>
    let l := (List.range 64).flatMap fun j => leBytes 4 (m.i.carryAt c.toNat j).1 ++ leBytes 4 (m.i.carryAt c.toNat j).2
    (s.storeLocal m.i.crew (m.c.base + m.o.ea) 512 (bytesFn (m.c.base + m.o.ea) l),
      .ok (m.i.note [coverCar c.toNat] []))

/-- R293 to R301: the commit of an operation, but for mdrainx. -/
def MatCtx.commit (m : MatCtx) (s : State) : Commit :=
  match m.o.op with
  | .mma o => m.mma s o
  | .mmag o => m.mmag s o
  | .mzero d => (s, .ok ((m.i.putAcc false d.toNat 0 (List.replicate 4096 0)).note [] [coverAcc d.toNat 0 4096]))
  | .mload ty d _ rs => m.mload s ty d (16 * rs.toNat)
  | .mdrain o => m.mdrain s o
  | .mrsc ty d _ => m.mrsc s ty d
  | .maffl d _ _ rs => m.maffl s d (16 * rs.toNat)
  | .mscan d c => m.mscan s d c
  | .mcarLoad c _ => m.mcarLoad s c
  | .mcarStore c _ => m.mcarStore s c
  | .mcarReset c => (s, .ok ({ m.i.putCarry c.toNat (List.replicate 64 (0x3F800000, 0)) with chunk := 0 }.note [] [coverCar c.toNat]))
  | _ => (s, .ok m.i)

/-- R283: the tile task adjourns at an operation: it and every later one are discarded, and the instance is as before it. -/
def State.rollInst (s : State) (m : MatCtx) (x : W64) (faddr detail : Nat) : State :=
  let o := m.o
  let ragged := match o.op with | .mmag _ => false | _ => m.i.audit
  let i := { m.i with pc := o.pc, fetch := .none, wait := .none, depth := o.depth, ctr := o.ctr, start := o.start, base := o.base,
                      stride := o.stride, ops := [], audit := ragged }
  (s.putInst m.key i).adjournInst m.key { causes := x, pc := o.pc.setWidth 64, faddr := BitVec.ofNat 64 faddr,
                                           detail := BitVec.ofNat 64 detail }

/-- R282: the oldest operation has committed and returns its permit. -/
def State.committed (s : State) (k : Nat) (i : Inst) : State :=
  (s.putInst k { i with ops := i.ops.drop 1, wait := .none }).wake

/-- R298: mdrainx: it commits when the link engine holds the data. While its ready queue pair has 1,024 sends outstanding, it waits. (DESIGN
CHOICE, log 55.) -/
def MatCtx.mdrainx (m : MatCtx) (s : State) (ty : Ty) (rnd : Rnd) (sat : Sat) (d : BitVec 3) (qk : Nat) :
    Host.Outcome State Fault Refusal :=
  match m.ready s [] [] [] (accWords false d.toNat 0 64) with
  | (s1, some (.trap x a dt)) => .next (s1.rollInst m x a dt)
  | (_, some .absent) => .fault .noMemory
  | (s1, some .wait) => .next s1
  | (s1, none) =>
    let r := m.i.drainRows ty none (effMode (m.i.mode.setWidth 32) rnd) sat d.toNat
    let i := (m.i.raise r.2.1).withZ r.2.2
    let bad := (s1.qp qk).st == .error
    let i1 := { i with sig := crc64 i.sig r.1.flatten, audit := i.audit && !bad }.note (accCover false d.toNat 0 4096) []
    let s2 := (s1.committed m.key i1).setLaunch m.c.launch fun l => { l with nonReplay := true }
    match s2.startDrainx qk (m.message ty r.1) with
    | some out => out
    | none => .next s1

/-- R229, R281: the oldest operation of an instance, a drain that could commit now, writes some of its bytes before the others. A word of a
window that is Invalid is written whole. (DESIGN CHOICE, log 3.) -/
def State.drainBytes (s : State) (k mask : Nat) : Host.Outcome State Fault Refusal :=
  match s.seqs.get? k with
  | none => .next s
  | some i =>
    match i.ops with
    | [] => .next s
    | o :: rest =>
      match o.op with
      | .mdrain d =>
        let c := s.instCrew i
        match ({ key := k, i, o, c, l := s.instLaunch i } : MatCtx).commit s with
        | (s1, .ok _) =>
          let offs := (((rowRanges o.ea (16 * d.rs.toNat) (8 * d.ty.width)).flatMap fun r => (List.range r.2).map (r.1 + ·)).dedup).zipIdx.filterMap
            fun (x : Nat × Nat) => if mask.testBit x.2 ∧ !o.put.contains x.1 ∧ c.fillsFor (s.launch c.launch) true (c.base + x.1) 1 = [] then some x.1 else none
          let byte (o : Nat) : Byte := s1.stores.astore.read (2 ^ 22 * c.clus + c.base + o)
          let s2 := offs.foldl (fun s o => s.storeLocal i.crew (c.base + o) 1 fun _ => byte o) s
          .next (s2.putInst k { i with ops := { o with put := offs ++ o.put } :: rest }).wake
        | _ => .next s
      | _ => .next s

/-- MATRIX_COMMIT (R282): the oldest operation of the instance on a core. -/
def execMatrixCommit (core : Nat) (s : State) : Host.Outcome State Fault Refusal :=
  match s.seqs.find? fun x => x.2.core == core && x.2.status == .live && x.2.ops != [] with
  | none => .next s
  | some (k, i) =>
    match i.ops with
    | [] => .next s
    | o :: _ =>
      let m : MatCtx := { key := k, i, o, c := s.instCrew i, l := s.instLaunch i }
      match o.op with
      | .mdrainx ty rnd sat d q => m.mdrainx s ty rnd sat d q.toNat
      | _ =>
        match m.commit s with
        | (s1, .ok i1) => .next (s1.committed k i1)
        | (s1, .error (.trap x a dt)) => .next (s1.rollInst m x a dt)
        | (_, .error .absent) => .fault .noMemory
        | (s1, .error .wait) => .next s1

end Sys2Proof.Machine
end

