-- ==== Sys2Proof/Machine/Sequencer.lean ====
section
/-!
DEFINITION. Class 0xB: loops, affine registers, barriers, copies, hints and tile tasks of the sequencer (R286 to R291, R302 to
R306).
-/
namespace Sys2Proof.Machine

/-- R290: copies of the instance in flight; each holds a copy permit (R280). -/
def State.instCopies (s : State) (k : Nat) : List Copy := (s.copies.filter fun x => x.2.track == .seq k).map (·.2)

/-- R298: messages of the instance that are not complete. -/
def State.instMessages (s : State) (k : Nat) : Bool :=
  (s.link.qps.any fun x => x.2.sends.any fun o => o.inst == some k) || s.link.held.any fun x => x.2.2.inst == some k

/-- R277, R289, R291: every operation that the instance has issued is complete. -/
def State.instQuiet (s : State) (h : SeqHere) : Bool :=
  h.i.ops == [] && (s.instCopies h.key).isEmpty && !s.instMessages h.key

/-- R281: the bytes of an A-store read are not awaited from an earlier operation of the instance. -/
def SeqHere.clear (h : SeqHere) (s : State) (off n : Nat) : Bool :=
  !(h.i.ops.any fun o => match o.op with
      | .mdrain _ | .mmag _ | .mcarStore _ _ => true
      | _ => false) &&
    !(s.instCopies h.key).any fun c => copyHits c [((s.instCrew h.i).base + off, n)] [] []

/-- R279, R281, R288: bytes of the run that an instruction reads at its place in the order. (DEDUCED, log 34.) -/
def SeqHere.readRun (h : SeqHere) (s : State) (off n : Nat) (k : Nat → Except Abort State) : Except Abort State :=
  let c := s.instCrew h.i
  h.inRun s off n
    (if !h.clear s off n then .error (.hold s)
     else
       match (wordsOf (c.base + off) n).find? (s.badWord c.clus) with
       | some w => h.bad s cMEMECC (4 * w)
       | none => k (leNat (s.getA c.clus (c.base + off) n)))

/-- What the scan of a loop with n = 0 finds (R286). -/
inductive Skipped where
  | to (pc : Pc) (fetch : Fetch)
  | bad (c : W64) (faddr : Nat)
  | absent
  deriving DecidableEq, Repr

/-- R286: the scan passes instructions until the sendl that closes the loop; `n` is the number of loops opened on the way. (DEDUCED, log 34.) -/
def State.skipFrom (core ctx : Nat) : Nat → State → Pc → Fetch → Nat → State × Skipped
  | 0, s, _, _, _ => (s, .bad cRUNOFF 0)
  | k + 1, s, pc, fetch, n =>
    let line := lineAddr pc
    match fetch with
    | .runoff => (s, .bad cRUNOFF line)
    | .wrap => (s, .bad cPCWRAP (2 ^ 56))
    | .line l =>
      let nx := advancePc pc fetch
      match decode (lineWord l (slotOf pc)) with
      | .ok (.sloop _) | .ok (.sloopInd _) => State.skipFrom core ctx k s nx.1 nx.2 (n + 1)
      | .ok .sendl => if n = 0 then (s, .to nx.1 nx.2) else State.skipFrom core ctx k s nx.1 nx.2 (n - 1)
      | _ => State.skipFrom core ctx k s nx.1 nx.2 n
    | .none =>
      match s.fetchLine core ctx line with
      | (s1, .error e) =>
        match fetchCause e with
        | .ok c => (s1, .bad c line)
        | .error _ => (s1, .absent)
      | (s1, .ok none) => (s1, .bad cIFETCH line)
      | (s1, .ok (some l)) =>
        match lineCause l true with
        | some b => (s1, .bad (cause b) line)
        | none => State.skipFrom core ctx k s1 pc (.line l) n

/-- R286: the loop opens, or is passed over. -/
def SeqHere.loop (h : SeqHere) (s : State) (n : Nat) : Except Abort State :=
  let i := h.i
  if n = 0 then
    let nx := advancePc i.pc i.fetch
    match State.skipFrom i.core (s.instLaunch i).ctx (2 ^ 54) s nx.1 nx.2 0 with
    | (s1, .to pc fetch) => .ok (s1.putInst h.key { i with pc, fetch, wait := .none })
    | (s1, .bad c a) => h.bad s1 c a
    | (_, .absent) => .error (.stop .noMemory)
  else
    .ok (h.done s fun i => { i with depth := i.depth + 1, ctr := i.ctr.set i.depth (BitVec.ofNat 32 n),
                                    start := i.start.set i.depth (advancePc i.pc i.fetch).1 })

/-- SLOOP (R286). -/
def execSloop (n : BitVec 31) (s : State) : Host.Outcome State Fault Refusal :=
  onSeq s fun h => if h.i.depth = 3 then h.bad s cILL else h.loop s n.toNat

/-- SLOOP with a count from the A-store (R286). -/
def execSloopInd (xa : BitVec 4) (s : State) : Host.Outcome State Fault Refusal :=
  onSeq s fun h => if h.i.depth = 3 then h.bad s cILL else h.readRun s (h.i.eff xa) 4 fun n =>
    ({ h with i := h.i.note [(h.i.eff xa, 4)] [] } : SeqHere).loop s n

/-- R287: every affine register steps by its stride of a level. -/
def Inst.stepBases (i : Inst) (l : Nat) : Inst :=
  { i with base := i.base.update 0 16 fun n => i.base.read n + ((i.stride.read (3 * n + l)).signExtend 48) }

/-- SENDL (R287). -/
def execSendl (s : State) : Host.Outcome State Fault Refusal :=
  onSeq s fun h =>
    if h.i.depth = 0 then h.bad s cILL
    else
      let l := h.i.depth - 1
      let c : W32 := h.i.ctr.getD l 0 - 1
      let i := { h.i.stepBases l with ctr := h.i.ctr.set l c }
      if c ≠ 0 then
        let t := h.i.start.getD l 0
        .ok (s.putInst h.key { i with pc := t, fetch := if lineAddr t = lineAddr i.pc then i.fetch else .none, wait := .none })
      else .ok (h.done s fun _ => { i with depth := l })

/-- SADR (R288). -/
def execSadr (d : BitVec 4) (off : BitVec 22) (perCore : Bool) (s : State) : Host.Outcome State Fault Refusal :=
  onSeq s fun h =>
    let o := off.toNat + if perCore then 32 * (h.i.core % 8) else 0
    h.readRun s o 32 fun r =>
      .ok (h.done s fun i =>
        { i with base := i.base.write d.toNat (BitVec.ofNat 48 r)
                 stride := i.stride.update (3 * d.toNat) 3 fun k => BitVec.ofNat 32 (r / 2 ^ (64 + 32 * (k - 3 * d.toNat)))
                 audit := i.audit && covered i.wrote (i.wrote.length + 1) o 32 })

/-- SINC (R288). -/
def execSinc (d : BitVec 4) (t : BitVec 2) (e : W32) (s : State) : Host.Outcome State Fault Refusal :=
  onSeq s fun h => .ok (h.done s fun i =>
    if t = 0 then { i with base := i.base.write d.toNat (i.base.read d.toNat + e.signExtend 48) }
    else { i with stride := i.stride.write (3 * d.toNat + (t.toNat - 1)) e })

/-- R281, R289: the barrier object at an offset of the run, once no earlier operation of the instance has still to write it and its words
can be read. -/
def SeqHere.barrier (h : SeqHere) (s : State) (off : Nat) (k : Nat → Except Abort State) : Except Abort State :=
  let c := s.instCrew h.i
  h.inRun s off 16
    (if !h.clear s off 16 then .error (.hold s) else match (wordsOf (c.base + off) 16).find? (s.badWord c.clus) with
     | some w => h.bad s cMEMECC (4 * w)
     | none => k (c.base + off))

/-- SBARR (R289). -/
def execSbarr (off : BitVec 22) (s : State) : Host.Outcome State Fault Refusal :=
  onSeq s fun h => h.barrier s off.toNat fun a =>
    if !s.instQuiet h then .error (.hold s)
    else
      let clus := (s.instCrew h.i).clus
      .ok ((h.done s id).setBarObj clus a ((s.barObj clus a).arrive 1)).wake

/-- R289: the phase that sbwait expects. -/
def Inst.phase (i : Inst) (ph : Bool) (l : Nat) : Bool := if l = 3 then ph else ph != (i.ctr.getD l 0).getLsbD 0

/-- SBWAIT (R289): its return is an acquire at .crw. -/
def execSbwait (off : BitVec 22) (ph : Bool) (l : BitVec 2) (s : State) : Host.Outcome State Fault Refusal :=
  onSeq s fun h =>
    if l.toNat < 3 ∧ h.i.depth ≤ l.toNat then h.bad s cILL
    else h.barrier s off.toNat fun a =>
      let p := h.i.phase ph l.toNat
      if s.objPh (s.instCrew h.i).clus a == p then .ok ((h.done s id).seqAcquire h.i)
      else .ok (s.putInst h.key { h.i with wait := .barrier a p })

/-- The physical ranges of a global range, as far as it translates. -/
def State.globPieces (s : State) (u ctx : Nat) (r : Option (Nat × Nat)) : List (Nat × Nat) :=
  match r with
  | some (a, n) => (kibsOf a n).filterMap fun x => match (s.translate u ctx x.1 .read).2 with
    | .ok pa => some (pa, x.2)
    | .error _ => none
  | none => []

/-- R281: the global ranges of two copies share a byte of memory, under one address or under two. -/
def State.globClash (s : State) (c d : Copy) : Bool :=
  let hit (x y : Option (Nat × Nat)) : Bool := x.isSome && y.isSome &&
    (s.globPieces c.core c.ctx x).any fun p => (s.globPieces c.core c.ctx y).any fun q => meets p.1 p.2 q.1 q.2
  hit c.globDst d.globDst || hit c.globDst d.globSrc || hit c.globSrc d.globDst

/-- R281: an earlier copy of the instance shares bytes with a new one, and one of the two writes them. -/
def State.copyClash (s : State) (c d : Copy) : Bool :=
  s.globClash c d ||
  rangeHit c.locDst (d.locDst.getD (0, 0)).1 (d.locDst.getD (0, 0)).2 || rangeHit c.locDst (d.locSrc.getD (0, 0)).1 (d.locSrc.getD (0, 0)).2 ||
  rangeHit c.locSrc (d.locDst.getD (0, 0)).1 (d.locDst.getD (0, 0)).2 ||
  rangeHit c.globDst (d.globDst.getD (0, 0)).1 (d.globDst.getD (0, 0)).2 ||
  rangeHit c.globDst (d.globSrc.getD (0, 0)).1 (d.globSrc.getD (0, 0)).2 ||
  rangeHit c.globSrc (d.globDst.getD (0, 0)).1 (d.globDst.getD (0, 0)).2 ||
  (c.dstSide == .wst && d.dstSide == .wst && meets c.dst c.dstLen d.dst d.dstLen)

/-- R304: the pages that a copy reads lie outside the write set. -/
def State.readsOutside (s : State) (l : Launch) (core a n : Nat) : Bool := !(kibsOf a n).any fun x => s.inWset l core x.1

/-- R304: what a scpy reads and writes. -/
def Inst.noteCopy (i : Inst) (s : State) (c : Copy) : Inst :=
  let l := s.instLaunch i
  let b := (s.instCrew i).base
  match c.scpy with
  | .toA => { i.note [] [coverA (c.dst - b) c.len] with audit := i.audit && s.readsOutside l i.core c.src c.len }
  | .fromA => i.note [coverA (c.src - b) c.len] []
  | _ => { i.note [] [coverW c.dst c.dstLen] with audit := i.audit && s.readsOutside l i.core c.src c.len }

/-- R290: the copy that a scpy asks for. -/
def SeqHere.scpyOf (h : SeqHere) (s : State) (d a : BitVec 4) (len : Nat) (kind : ScpyKind) (ty : Ty) : Copy :=
  let crew := s.instCrew h.i
  let l := s.instLaunch h.i
  let b := crew.base
  { core := h.i.core, ctx := l.ctx, launch := crew.launch, crew := h.i.crew, pc := h.i.pc, kind := .scpy, scpy := kind, ty,
    src := h.i.eff a + if kind = ScpyKind.fromA then b else 0, dst := h.i.eff d + if kind = ScpyKind.toA then b else 0, len,
    track := .seq h.key }

/-- SCPY (R215, R290). -/
def execScpy (d a : BitVec 4) (len : BitVec 24) (kind : ScpyKind) (ty : Ty) (s : State) : Host.Outcome State Fault Refusal :=
  onSeq s fun h => h.alone s
    (let c := h.scpyOf s d a len.toNat kind ty
     match c.issueBad (s.instCrew h.i) (s.instLaunch h.i) with
     | some (x, f) => h.bad s x f
     | none =>
       if c.len = 0 then .ok (h.done s id)
       else if Config.copyPermits ≤ (s.instCopies h.key).length || s.copyFull h.i.core c ||
           (s.instCopies h.key).any fun o => s.copyClash o c then
         .error (.hold s)
       else if c.inCore then h.owned s fun s1 => .ok ((h.done s1 fun i => i.noteCopy s1 c).addCopy c)
       else .ok ((h.done s fun i => i.noteCopy s c).addCopy c))

/-- SHINT (R302): the ramp affects timing and current only. -/
def execShint (n : W32) (s : State) : Host.Outcome State Fault Refusal :=
  onSeq s fun h => .ok (h.done s fun i => { i with ramp := n })

/-- RAMP_DOWN (R302): the hint of the core's instance has run out. -/
def execRampDown (core : Nat) (s : State) : Host.Outcome State Fault Refusal :=
  .next { s with seqs := s.seqs.map fun x => if x.2.core == core then (x.1, { x.2 with ramp := 0 }) else x }

/-- R30, R306, R376, R476: a die other than the given ones with a cluster that can take a replay for the launch. -/
def State.otherDie (s : State) (l : Launch) (used : List Nat) : Bool :=
  (List.range 8).any fun d => !used.contains d && (List.range 64).any fun c => s.usable { l with task := none } (64 * d + c)

/-- R303, R304, R376: the open tile task closes: it is sampled, passed over, or counted as skipped. (DESIGN CHOICE, log 16.) -/
def State.closeTile (s : State) (k : Nat) : State :=
  match s.seqs.get? k with
  | none => s
  | some i =>
    if !i.tile then s
    else
      let s1 := s.putInst k { i with tile := false }
      let l := s.instLaunch i
      if !i.audit then s1.count 8
      else
        let take := (Config.auditDraw s.draw).toNat < (s.ctx l.ctx).auditFrac
        let s2 := s1.drawn
        if !take then s2
        else if !s.otherDie l [i.core / 512] then s2.count 8
        else
          let c := s.instCrew i
          let x : Sampled := { launch := c.launch, core := i.core, crew := { launch := c.launch, idx := c.idx, unit := c.unit, nunits := c.nunits }
                               ttask := i.ttask, sig := i.sig, opening := i.opening, steps := i.steps
                               act := s.stores.act.filter fun y => y.1 / 2 ^ 13 == i.core, bank := s.stores.bank.read i.core }
          { s2 with samples := s2.samples.put s2.samples.nextKey x }

/-- R303, R306: a tile task opens where the instance stands. -/
def Inst.openTile (i : Inst) : Inst :=
  { i with tile := true, ttask := i.ttask + 1, audit := true, sig := 0, wrote := [], steps := 0
           opening := ⟨i.pc, i.depth, i.ctr, i.start, i.base, i.stride, i.mode⟩ }

/-- SAUD (R303). -/
def execSaud (e : Bool) (s : State) : Host.Outcome State Fault Refusal :=
  onSeq s fun h => h.alone s
    (let s1 := s.closeTile h.key
     match s1.seqs.get? h.key with
     | some i => .ok (s1.putInst h.key (if e then i.advance.openTile else i.advance))
     | none => .ok s1)

/-- SFIN (R291). -/
def execSfin (off : Option (BitVec 22)) (s : State) : Host.Outcome State Fault Refusal :=
  onSeq s fun h =>
    match off with
    | none => if s.instQuiet h then .ok (h.done s id) else .error (.hold s)
    | some o =>
      h.inRun s o.toNat 16
        (if !s.instQuiet h then .error (.hold s)
         else
           let c := s.instCrew h.i
           let a := c.base + o.toNat
           .ok ((h.done s id).putA c.clus a 16
             (bytesFn a (leBytes 8 h.i.mode.toNat ++ leBytes 8 h.i.flags.toNat))).wake)

/-- R377: a lasting fault of a cluster. -/
def State.lastingAt (s : State) (clus : Nat) : State :=
  let s1 := s.count 5
  { s1 with health := { s1.health with lasting := s1.health.lasting.write clus (s1.health.lasting.read clus + 1) } }

/-- R30, R306, R476: the cluster may run a replay of the sample: its die made no earlier run, and it can take work. -/
def Sampled.mayRun (x : Sampled) (s : State) (clus : Nat) : Bool :=
  !(x.core / 8 :: x.runs.map (·.1)).any (fun c => c / 64 == clus / 64) && x.runs.length < 2 && (x.runs.all fun r => r.2 != x.sig) &&
    s.usable { s.launch x.launch with task := none } clus

/-- R306: the scratch machine in which a sample is replayed on a core: an instance at the task's opening, alone in scratch stores, with the
banks of the original. -/
def Sampled.scratch (x : Sampled) (s : State) (core : Nat) : State :=
  let o := x.opening
  { s with
    cur := some (.seq 0), waves := [], copies := [], samples := []
    crews := [(0, { x.crew with clus := core / 8 })]
    seqs := [(0, { core, crew := 0, pc := o.pc, depth := o.depth, ctr := o.ctr, start := o.start, base := o.base, stride := o.stride, mode := o.mode })]
    stores := { act := x.act.map fun y => (y.1 % 2 ^ 13 + 2 ^ 13 * core, y.2), bank := Cells.write [] core x.bank
                owner := Cells.write [] core (BitVec.ofNat 8 ((s.launch x.launch).ctx + 1)) } }

/-- R306: an instruction of a replay has issued: its copies run, and its operation commits. -/
def State.replayed (core : Nat) : Host.Outcome State Fault Refusal → Option State
  | .next s =>
    let s1 := s.copies.foldl (fun s x => (List.range x.2.segs.length).foldl (fun s i => match execCopySegment x.1 i s with
      | .next s' => s'
      | _ => s) s) s
    match execMatrixCommit core s1 with
    | .next s2 => some s2
    | _ => none
  | _ => none

/-- R306: an instruction in a replay; none where the task ends. Global memory is not written, no message is sent, and barriers take no
effect. -/
def SeqHere.replay (h : SeqHere) (s : State) : Instr → Option State
  | .saud _ | .endF | .brk _ => none
  | .sbarr _ | .sbwait _ _ _ | .shint _ | .scpy _ _ _ .fromA _ => some (h.done s id)
  | .mdrainx ty rnd sat d _ =>
    let r := h.i.drainRows ty none (effMode (h.i.mode.setWidth 32) rnd) sat d.toNat
    some (h.done s fun i => { (i.raise r.2.1).withZ r.2.2 with sig := crc64 i.sig r.1.flatten })
  | .sloop n => State.replayed h.i.core (execSloop n s)
  | .sloopInd a => State.replayed h.i.core (execSloopInd a s)
  | .sendl => State.replayed h.i.core (execSendl s)
  | .sadr d o p => State.replayed h.i.core (execSadr d o p s)
  | .sinc d t e => State.replayed h.i.core (execSinc d t e s)
  | .scpy d a n k t => State.replayed h.i.core (execScpy d a n k t s)
  | .sfin o => State.replayed h.i.core (execSfin o s)
  | .mma o => State.replayed h.i.core (execMma o s)
  | .mmag o => State.replayed h.i.core (execMmag o s)
  | .mzero d => State.replayed h.i.core (execMzero d s)
  | .mload t d x r => State.replayed h.i.core (execMload t d x r s)
  | .mdrain o => State.replayed h.i.core (execMdrain o s)
  | .mrsc t d x => State.replayed h.i.core (execMrsc t d x s)
  | .maffl d x y r => State.replayed h.i.core (execMaffl d x y r s)
  | .mscan d c => State.replayed h.i.core (execMscan d c s)
  | .mcarLoad d x => State.replayed h.i.core (execMcarLoad d x s)
  | .mcarStore d x => State.replayed h.i.core (execMcarStore d x s)
  | .mcarReset d => State.replayed h.i.core (execMcarReset d s)
  | .br t => State.replayed h.i.core (execBr t s)
  | .nop => some (h.done s id)
  | _ => none

/-- R306: the replay, instruction after instruction, at most `n`; the signature it delivers. (DESIGN CHOICE, log 16.) -/
def State.replayFrom : Nat → State → W64
  | 0, s => (s.seqs.get? 0).elim 0 (·.sig)
  | n + 1, s =>
    match s.seqHere with
    | none => 0
    | some h =>
      match h.enterLine s with
      | .error _ => h.i.sig
      | .ok s1 =>
        match s1.seqHere with
        | none => h.i.sig
        | some h1 =>
          match h1.i.fetch with
          | .line l =>
            match decode (lineWord l (slotOf h1.i.pc)) with
            | .ok i => match h1.replay s1 i with
              | some s2 => State.replayFrom n s2
              | none => h.i.sig
            | .error _ => h.i.sig
          | _ => h.i.sig

/-- AUDIT_REPLAY (R306): a replay on a cluster of another die delivers its signature; `flaw` is what a fault of the replaying unit makes
of it, 0 without one (DESIGN CHOICE, log 16). -/
def execAuditReplay (task clus : Nat) (flaw : W64) (s : State) : Host.Outcome State Fault Refusal :=
  match s.samples.get? task with
  | none => .next s
  | some x =>
    if x.mayRun s clus then
      let sig := State.replayFrom x.steps (x.scratch s (8 * clus + x.core % 8)) ^^^ flaw
      .next { s with samples := s.samples.put task { x with runs := x.runs ++ [(clus, sig)] } }
    else .next s

/-- R376: the launch of a wrong original is rolled back. -/
def State.auditWrong (s : State) (task : Nat) (x : Sampled) (faulty : List Nat) : State :=
  let s1 := faulty.foldl (fun s c => s.lastingAt c) { s with samples := s.samples.erase task }
  s1.rollBack x.launch true

/-- AUDIT_VERDICT (R376). (DESIGN CHOICE, log 16.) -/
def execAuditVerdict (task : Nat) (s : State) : Host.Outcome State Fault Refusal :=
  match s.samples.get? task with
  | none => .next s
  | some x =>
    match x.runs with
    | [(c1, g1)] =>
      if g1 = x.sig then .next { s with samples := s.samples.erase task }
      else if s.otherDie (s.launch x.launch) [x.core / 512, c1 / 64] then .next s
      else .next (((s.count 7).count 8).auditWrong task x [x.core / 8, c1])
    | [(c1, g1), (c2, g2)] =>
      if g2 = x.sig then .next (({ s with samples := s.samples.erase task }.count 7).lastingAt c1)
      else if g2 = g1 then .next ((s.count 7).auditWrong task x [])
      else .next ((s.count 7).auditWrong task x [x.core / 8, c1, c2])
    | _ => .next s

end Sys2Proof.Machine
end

