-- ==== Sys2Proof/Machine/Arbiter.lean ====
section
/-!
DEFINITION. The Arbiter: records, routing, fault tasks, nesting and remote handling (R339 to R341, R377, R423 to R440).
-/
namespace Sys2Proof.Machine

/-- R423: codes of the kinds. -/
def Work.kind : Work → Nat
  | .wave _ => 1
  | .inst _ => 2
  | .seg _ _ => 3
  | .link _ _ _ | .held _ => 4
  | .launch _ | .queue _ _ | .packet _ _ => 5
  | .event => 6

/-- R339: an entry of the routing table. -/
structure Route where
  entry : Nat
  budget : W64
  deadline : Nat
  prio : Nat
  tkind : Nat
  tdie : Nat
  gran : Nat
  qp : Nat
  deriving DecidableEq, Repr, Inhabited

/-- R339: the entry at its place breaks no field and may serve the context. -/
def routeOf (ctx n : Nat) (b : List Byte) : Option Route :=
  let f (o k : Nat) : Nat := leNat ((b.drop o).take k)
  let r : Route := ⟨f 0 8, BitVec.ofNat 64 (f 8 8), f 0x10 4, f 0x14 1, f 0x15 1, f 0x16 1, f 0x17 1, f 0x18 2⟩
  if 27 ≤ n ∨ (ctx ≠ 0 ∧ 21 ≤ n ∧ n ≤ 23) ∨ r.budget = 0 ∨ 7 < r.prio ∨ r.tkind = 0 ∨ 3 < r.tkind ∨ 7 < r.tdie ∨ r.gran = 0 ∨
      16 < r.gran ∨ 4095 < r.qp ∨ f 0x1A 6 ≠ 0 then none
  else some r

/-- R339, R436: the handler's line for the context, whatever the kind of the task. (DEDUCED, log 43.) -/
def State.handlerOk (s : State) (die ctx : Nat) (r : Route) : State × Bool :=
  let (s1, e) := s.entryOf die ctx r.entry
  (s1, match e with
    | some b => b + 1 ≤ r.gran
    | none => false)

/-- R339, R436: entry n of a context's routing table, if it is valid. -/
def State.routeFor (s : State) (die ctx n : Nat) : State × Option Route :=
  if (s.ctx ctx).desc = 0 then (s, none)
  else
    match routeOf ctx n (s.getBytes ((s.ctx ctx).route + 32 * n) 32) with
    | none => (s, none)
    | some r => match s.handlerOk die ctx r with
      | (s1, true) => (s1, some r)
      | (s1, false) => (s1, none)

/-- R340: the slot that a record of a depth takes. -/
def State.freeRecSlot (s : State) (owner depth : Nat) : Option Nat :=
  let n := (s.ctx owner).ns
  ((if depth = 1 then (List.range n).drop 32 else []) ++ List.range (min 32 n)).find? fun i =>
    !s.records.any fun x => x.1 == recKey owner i

/-- A record to be written: as an object, its causes, RETRY and OTHER, and its bytes from 0x010 on. -/
structure Filing where
  rcd : Record
  causes : W64
  retry : Bool
  other : Bool
  rest : List Byte
  deriving DecidableEq, Repr, Inhabited

/-- R429: HDR. -/
def Filing.hdr (f : Filing) (gen : W32) (st : Nat) : W64 :=
  BitVec.ofNat 64 (f.rcd.kind + 2 ^ 8 * st + 2 ^ 10 * f.rcd.depth + 2 ^ 12 * f.rcd.home + (if f.rcd.remote then 2 ^ 15 else 0) +
    2 ^ 16 * f.rcd.owner + (if f.other then 2 ^ 22 else 0) + (if f.retry then 2 ^ 23 else 0) + 2 ^ 32 * gen.toNat)

/-- R427: a handle. -/
def handleOf (owner slot home : Nat) (gen : W32) : W64 := BitVec.ofNat 64 (owner + 2 ^ 6 * slot + 2 ^ 18 * home + 2 ^ 32 * gen.toNat)

/-- R423, steps 3 and 4: a record is written, parked, and holds its scope. -/
def State.putRecord (s : State) (f : Filing) (slot : Nat) : State :=
  let key := recKey f.rcd.owner slot
  let gen := s.recGen key + 1
  let s1 := s.setCtx f.rcd.owner fun c => { c with gens := c.gens.write slot gen }
  let s2 := s1.putBytes (s1.recPa key) (leBytes 8 (f.hdr gen 0).toNat ++ leBytes 8 f.causes.toNat ++ f.rest)
  { s2 with records := s2.records.put key f.rcd }.hold f.rcd.ctx f.rcd.fs

/-- R361, R436: the packet of a fault task. -/
def taskPacket (r : Route) (fs : Nat) : BitVec 1024 :=
  BitVec.ofNat 1024 (leNat (leBytes 8 1 ++ leBytes 8 r.entry ++ leBytes 8 0 ++ leBytes 4 1 ++ leBytes 1 1 ++ leBytes 1 r.gran ++
    leBytes 1 r.prio ++ leBytes 1 0 ++ leBytes 4 0 ++ leBytes 1 fs ++ leBytes 35 0 ++ leBytes 8 r.budget.toNat))

/-- R423, step 5, R436, R437: a fault task for a record is enqueued on a die. (DEDUCED, log 43.) -/
def State.enqueueTask (s : State) (key : Nat) (r : Route) (die : Nat) (args : List W64) : State :=
  match s.records.get? key with
  | none => s
  | some c =>
    let owner := key / 4096
    let h := handleOf owner (key % 4096) c.home (s.recGen key)
    let fs := s.getNat (s.recPa key + 0x18) 1
    let k := s.launches.nextKey
    let l : Launch := { ctx := owner, die, packet := taskPacket r fs, st := .ready, task := some h, args, depth := c.depth, prio := r.prio,
                        deadline := s.clk + BitVec.ofNat 64 r.deadline, age := k }
    { s with launches := s.launches.put k l, records := s.records.put key { c with task := some k } }

/-- R436: s1 to s3 of a fault task, from the bytes of its record. -/
def State.taskArgs (s : State) (key : Nat) : List W64 :=
  let pa := s.recPa key
  [s.get64 (pa + 8), BitVec.ofNat 64 ((s.get64 pa).toNat / 2 ^ 10 * 2 ^ 10 + 2 ^ 8 + (s.get64 pa).toNat % 2 ^ 8), s.get64 (pa + 0x20)]

/-- R438: the header of a message between X8s. -/
def messageHead (typ disp : Nat) (r : Route) (handle target : W64) : List Byte :=
  leBytes 1 typ ++ leBytes 1 disp ++ leBytes 1 r.prio ++ leBytes 1 r.gran ++ leBytes 4 r.deadline ++ leBytes 8 handle.toNat ++
    leBytes 8 r.entry ++ leBytes 8 r.budget.toNat ++ leBytes 8 target.toNat ++ leBytes 24 0

/-- R438: a message leaves on a queue pair; none if that is not ready. -/
def State.postMessage (s : State) (qk : Nat) (l : List Byte) : Option (Host.Outcome State Fault Refusal) :=
  if (s.qp qk).st = QpState.ready ∧ (s.qp qk).sends.length < 1024 then
    some (s.startSend qk { kind := 3, len := 1088, data := some l })
  else none

/-- R428: a record that is being handled. -/
def State.setHandling (s : State) (key : Nat) (sent : Option Nat) : State :=
  match s.records.get? key with
  | some c => { s.setRecState key 1 with records := s.records.put key { c with st := .handling, sent } }
  | none => s

/-- R437 to R439: the task of a record goes where its entry says; none if the queue pair is not ready. -/
def State.launchTask (s : State) (key : Nat) (r : Route) (die : Nat) : Option (Host.Outcome State Fault Refusal) :=
  if r.tkind ≠ 3 then some (.next (s.enqueueTask key r (if r.tkind = 2 then r.tdie else die) (s.taskArgs key)))
  else
    match s.records.get? key with
    | none => some (.next s)
    | some c =>
      let s1 := s.setHandling key (some r.qp)
      let h := handleOf (key / 4096) (key % 4096) c.home (s.recGen key)
      s1.postMessage r.qp (messageHead 1 0 r h 0 ++ s1.getBytes (s1.recPa key) 1024)

/-- R423, steps 2 to 5, in one context: none if it has no slot or no valid entry. -/
def State.fileIn (s : State) (f : Filing) (die n : Nat) : State × Option (Nat × Route) :=
  match s.freeRecSlot f.rcd.owner f.rcd.depth, s.routeFor die f.rcd.owner n with
  | some slot, (s1, some r) => (s1.putRecord f slot, some (recKey f.rcd.owner slot, r))
  | _, (s1, none) => (s1, none)
  | none, (s1, _) => (s1, none)

/-- R341, R428: work killed: a wave freed, an instance finished, a segment or operation completed with error, a launch killed, a
queue in error disabled. A segment whose barrier cannot be read parks anew (R258). -/
def State.killWork (s : State) : Work → State
  | .wave k => (s.freeWave k).sweep
  | .inst k => (s.freeInst k).sweep
  | .seg c i => match (s.copies.get? c).bind fun y => (s.badBar y).map fun a => (y, a) with
    | some (y, a) => s.parkSeg c i { y with parked := y.parked.filter (· != i) } cMEMECC a
    | none => s.finishSeg c i
  | .link qk send n => match (s.qp qk).op send n with
    | some o => s.linkEnd qk send o 2 0 o.len
    | none => s
  | .held k => { s with link := { s.link with held := s.link.held.erase k } }.sweep
  | .launch l => s.killParked l
  | .queue ctx q => s.setQueue ctx q fun Q => if Q.st = .error then { Q with st := .disabled, redo := false } else Q
  | .packet _ _ | .event => s

/-- R341: work that nothing can hold is killed and counted. -/
def State.lose (s : State) (f : Filing) : State := (s.killWork f.rcd.work).count 11

/-- R341: the record goes into context 0's reserve pool, routed by entry n there, or its work is killed. -/
def State.toZero (s : State) (f : Filing) (die n : Nat) : State × Option (Nat × Route) :=
  let g := { f with rcd := { f.rcd with owner := 0 } }
  match s.freeRecSlot 0 2, s.routeFor die 0 n with
  | some slot, (s1, some r) => (s1.putRecord g slot, some (recKey 0 slot, r))
  | _, (s1, _) => (s1, none)

/-- R338, R341: a context that cannot hold a record is faulted. (DEDUCED, log 39.) -/
def State.setFaulted (s : State) (c : Nat) : State :=
  if (s.ctx c).st = CState.active then s.setCtx c fun x => { x with st := .faulted } else s

/-- R439: its queue pair is not ready: LINK is set, and the record is routed by entry 20 with TKIND 1, at home or in context 0. (DEDUCED, log 43.) -/
def State.reroute (s : State) (key : Nat) : State :=
  match s.records.get? key with
  | none => s
  | some c =>
    let pa := s.recPa key
    let s1 := (s.put64 (pa + 8) (s.get64 (pa + 8) ||| cLINK))
    let s2 := { s1 with records := s1.records.put key { c with sent := none } }
    let owner := key / 4096
    match s2.routeFor c.home owner 20 with
    | (s3, some r) => s3.enqueueTask key { r with tkind := 1 } c.home (s3.taskArgs key)
    | (s3, none) =>
      -- the record moves to context 0 (R341)
      let f : Filing := { rcd := { c with sent := none, task := none, st := .parked }, causes := s3.get64 (pa + 8), retry := (s3.get64 pa).getLsbD 23
                          other := (s3.get64 pa).getLsbD 22, rest := s3.getBytes (pa + 0x10) 1008 }
      let s4 := ({ s3.setRecState key 2 with records := s3.records.erase key }.unhold c.ctx c.fs)
      if owner = 0 then s4.lose f
      else
        match (s4.setFaulted owner).toZero f c.home 20 with
        | (s5, some (k, r)) => s5.enqueueTask k { r with tkind := 1 } c.home (s5.taskArgs k)
        | (s5, none) => s5.lose f

/-- R423, step 5: the task of a record that has been filed. -/
def State.afterFiling (s : State) (key : Nat) (r : Route) (die : Nat) : Host.Outcome State Fault Refusal :=
  match s.launchTask key r die with
  | some x => x
  | none => .next (s.reroute key)

/-- R429: ORIGIN of work. -/
def State.originFor (s : State) (d : Detached) : W64 :=
  match d.work with
  | .wave k => match s.waves.get? k with
    | some w => originOf w.core w.slot w.wid (s.crewIdx w.crew)
    | none => 0
  | .inst k => match s.seqs.get? k with
    | some i => originOf i.core 0 0 (s.crewIdx i.crew)
    | none => 0
  | .seg k _ => match s.copies.get? k with
    | some c => originOf c.core c.slot c.wid (s.crewIdx c.crew)
    | none => 0
  | _ => BitVec.ofNat 64 d.die

/-- R78, R429: address of the sealed block of a wave. -/
def State.sealedAt (s : State) : Work → Nat
  | .wave k => match s.waves.get? k with
    | some w => w.save + 0x400 + 384 * w.n
    | none => 0
  | _ => 0

/-- R446: the work was restarted by pkret. -/
def State.retryOf (s : State) : Work → Bool
  | .wave k => ((s.waves.get? k).map (·.retry)).getD false
  | .inst k => ((s.seqs.get? k).map (·.retry)).getD false
  | .seg k i => ((s.copies.get? k).map fun c => c.retry.contains i).getD false
  | .link qk send n => (((s.qp qk).op send n).map (·.retry)).getD false
  | .held k => ((s.link.held.get? k).map (·.2.retry)).getD false
  | _ => false

/-- R429 to R435: the record of detached work. -/
def State.filing (s : State) (d : Detached) : Filing :=
  let lk := s.detLaunch d
  let l : Launch := match lk with | some k => s.launch k | none => {}
  let r := d.report
  let queueRec := match d.work with | .queue _ _ | .packet _ _ => true | _ => false
  let fs := if l.marker then 0 else l.fs
  let body : List Byte := match d.work with
    | .wave _ => (List.range 96).flatMap fun lane => leBytes 8 (r.lanes.read lane).toNat
    | _ => r.body
  let fixed := leBytes 8 (if queueRec then r.detail else l.lid).toNat ++ leBytes 1 fs ++ leBytes 1 l.prio ++ leBytes 6 0 ++
    leBytes 8 (r.origin.getD (s.originFor d)).toNat ++ leBytes 8 r.pc.toNat ++ leBytes 16 r.amask.toNat ++ leBytes 16 r.fmask.toNat ++
    leBytes 8 r.faddr.toNat ++ leBytes 8 (s.sealedAt d.work) ++ leBytes 8 (if queueRec then 0 else r.detail).toNat ++
    leBytes 8 ((l.task.getD 0).toNat) ++ leBytes 8 s.clk.toNat ++ leBytes 8 0
  { causes := r.causes, retry := s.retryOf d.work, other := r.other
    rest := fixed ++ body ++ List.replicate (896 - body.length) 0
    rcd := { work := d.work, kind := d.work.kind, home := d.die, ctx := d.ctx, owner := d.ctx, launch := lk
             fs := if fs ≠ 0 ∧ (s.scope d.ctx fs).2.1 = 0 then 0 else fs, depth := l.depth + 1 } }

/-- R339: the lowest set cause bit. -/
def lowBit (x : W64) : Nat := ((List.range 64).find? fun i => x.getLsbD i).getD 64

/-- R377: a lasting fault: it counts, and its core leaves service at its next idle; the cluster is marked (R476). -/
def State.lastingFault (s : State) (core : Nat) : State :=
  let s1 := s.lastingAt (core / 8)
  (s1.setHealth fun h => { h.mark (s1.physOf (core / 8)) with
    pendingQ := if h.pendingQ.contains core then h.pendingQ else h.pendingQ ++ [core] }).raise

/-- R377: what a new record of work that retried says: the same cause at the same place, or the place was passed. -/
def State.judge (s : State) (watch : W64 × Pc × Nat) (core : Nat) (r : Report) : State :=
  let (c, pc, k) := watch
  if k ≠ core then s
  else if r.pc.setWidth 56 ≠ pc then s.count 4
  else if r.causes &&& c = 0 then s
  else s.lastingFault core

/-- R377: the retry that a record ends is classified: of a wave, where the record is of the fragment that retried. -/
def State.classify (s : State) (d : Detached) : State :=
  match d.work with
  | .wave k => match s.waves.get? k with
    | some w => match if (w.frag w.clear).map (·.id) = some w.watchId then w.watch else none with
      | some x => (s.putWave k { w with watch := none }).judge x w.core d.report
      | none => s
    | none => s
  | .inst k => match s.seqs.get? k with
    | some i => match i.watch with
      | some x => (s.putInst k { i with watch := none }).judge x i.core d.report
      | none => s
    | none => s
  | _ => s

/-- R426: a unit of a running or draining launch consumed an uncorrectable error. -/
def State.consumedBy (s : State) (d : Detached) : Option Nat :=
  match s.detLaunch d with
  | some k =>
    let l := s.launch k
    if (d.report.causes &&& cMEMECC) ≠ 0 ∧ l.task = none ∧ d.work.kind ≠ 5 ∧ (l.st = .running ∨ l.st = .draining) then some k else none
  | none => none

/-- R440: work at depth 3: it is killed, and a record goes to context 0, routed by entry 23. -/
def State.nested (s : State) (d : Detached) (f : Filing) : Host.Outcome State Fault Refusal :=
  let g := { f with causes := f.causes ||| cNEST, rcd := { f.rcd with depth := 1, nest := true } }
  match (s.killWork d.work).toZero g d.die 23 with
  | (s1, some (key, r)) => s1.afterFiling key r d.die
  | (s1, none) => .next (s1.count 11)

/-- R340, R341, R426: a record that goes to the dispatcher: without a slot in its context it goes into context 0's reserve pool, and the context is
faulted. -/
def State.fileRolled (s : State) (f : Filing) : State :=
  match s.freeRecSlot f.rcd.owner f.rcd.depth with
  | some slot => s.putRecord f slot
  | none =>
    let s1 := if f.rcd.owner = 0 then s else s.setFaulted f.rcd.owner
    match if f.rcd.owner = 0 then none else s1.freeRecSlot 0 2 with
    | some slot => s1.putRecord { f with rcd := { f.rcd with owner := 0 } } slot
    | none => s1.count 11

/-- R423: the Arbiter's steps for detached work; that of a context that is being destroyed is killed (R338; DEDUCED, log 39). -/
def State.arbitrate (s : State) (d : Detached) : Host.Outcome State Fault Refusal :=
  let f := s.filing d
  if (s.ctx f.rcd.owner).st = CState.destroying then .next (s.killWork d.work)
  else if 3 < f.rcd.depth then s.nested d f
  else
    match s.consumedBy d with
    | some k => .next (((s.fileRolled f).count 12).rollBack k false)
    | none =>
      let n := lowBit f.causes
      match s.fileIn f d.die n with
      | (s1, some (key, r)) => s1.afterFiling key r d.die
      | (s1, none) =>
        if f.rcd.owner = 0 then .next (s1.lose f)
        else
          match (s1.setFaulted f.rcd.owner).toZero f d.die n with
          | (s2, some (key, r)) => s2.afterFiling key r d.die
          | (s2, none) => .next (s2.lose f)

/-- ADJOURNMENT_RECORD (R423): the n-th detached work. -/
def execAdjournmentRecord (n : Nat) (s : State) : Host.Outcome State Fault Refusal :=
  match s.detached[n]? with
  | none => .next s
  | some d => { s.classify d with detached := s.detached.eraseIdx n }.arbitrate d

/-- R458: the queue pair whose seventh retry of send n times out is in error: its sends are flushed, a record names the send (R454),
and records sent through it are routed again (R439). -/
def State.sendFails (s : State) (qk : Nat) (n : W32) (o : LinkOpn) : State :=
  let s1 := (s.flush qk .error).detachLink (.link qk true n) qk o true cLINK 0 0
  ((s1.records.filter fun x => x.2.sent == some qk && !x.2.remote).map (·.1)).foldl (fun s k => s.reroute k) s1

/-- SEND_TIMEOUT (R458). -/
def execSendTimeout (qk : Nat) (msn : W32) (s : State) : Host.Outcome State Fault Refusal :=
  match (s.qp qk).op true msn with
  | none => .next s
  | some o =>
    if (s.qp qk).st ≠ QpState.ready ∨ o.parked ∨ (s.clk - o.sentAt).toNat < 100000 then .next s
    else if o.spared then s.sendMessage qk msn
    else if o.att < 7 then (s.setQp qk fun q => q.setOp true msn fun o => { o with att := o.att + 1 }).sendMessage qk msn
    else .next (s.sendFails qk msn o)

/-- R439: a message that the Arbiter takes from a task buffer: its bytes. -/
def State.takeMessage (s : State) (qk : Nat) (n : W32) : Option (Nat × State × Except LinkFail (List Byte)) :=
  match (s.qp qk).inbox.find? fun x => x.1 == n with
  | none => none
  | some (_, ctx, a) =>
    let s1 := s.setQp qk fun q => { q with inbox := q.inbox.filter fun x => x.1 != n }
    let r := s1.linkRead {} (s1.qp qk).die ctx (kibsOf a 1088)
    some (ctx, r.1, r.2)

/-- R439: the proxy record of a task message. (DEDUCED, log 43.) -/
def proxyOf (m : List Byte) (qk ctx home : Nat) : Filing :=
  let f (o k : Nat) : Nat := leNat ((m.drop o).take k)
  let h := f 0x40 8
  { causes := BitVec.ofNat 64 (f 0x48 8), retry := h.testBit 23, other := h.testBit 22, rest := (m.drop 0x50).take 1008
    rcd := { kind := h % 256, home, ctx, owner := ctx, depth := max 1 (h / 2 ^ 10 % 4), remote := true, sent := some qk
             handle := BitVec.ofNat 64 (f 8 8), nest := (f 0x48 8).testBit 23 } }

/-- R438, R439: the routing that a task message carries. -/
def routeIn (m : List Byte) : Route :=
  let f (o k : Nat) : Nat := leNat ((m.drop o).take k)
  ⟨f 0x10 8, BitVec.ofNat 64 (f 0x18 8), f 4 4, f 2 1, 1, 0, f 3 1, 0⟩

/-- R341, R439: a proxy without a slot in its context goes to context 0, by the matching entry there; with none it is lost. -/
def State.fileProxy (s : State) (f : Filing) (r : Route) : Host.Outcome State Fault Refusal :=
  match s.freeRecSlot f.rcd.owner f.rcd.depth with
  | some slot =>
    let key := recKey f.rcd.owner slot
    let s1 := s.putRecord f slot
    .next (s1.enqueueTask key r f.rcd.home (s1.taskArgs key))
  | none =>
    if f.rcd.owner = 0 then .next (s.count 11)
    else
      match (s.setFaulted f.rcd.owner).toZero f f.rcd.home (lowBit f.causes) with
      | (s1, some (key, r0)) => s1.afterFiling key r0 f.rcd.home
      | (s1, none) => .next (s1.count 11)

/-- TASK_MESSAGE (R439). A message that cannot be read from its buffer is dropped. -/
def execTaskMessage (qk : Nat) (n : W32) (s : State) : Host.Outcome State Fault Refusal :=
  match s.takeMessage qk n with
  | none => .next s
  | some (ctx, s1, r) =>
    match r with
    | .error .absent => .fault .noMemory
    | .error (.bad _ _) => .next s1
    | .ok m => if m.take 1 = [1] then s1.fileProxy (proxyOf m qk ctx (s1.qp qk).die) (routeIn m) else .next s

end Sys2Proof.Machine
end

