-- ==== Sys2Proof/Machine/Context.lean ====
section
/-!
DEFINITION. Contexts: their descriptors and states (R336 to R342), and ctxrd (R343). Destroying one stands in Disposal.
-/
namespace Sys2Proof.Machine

/-- R336: the structures that a descriptor names: base and bytes. -/
def Ctx.parts (c : Ctx) : List (Nat × Nat) :=
  [(c.root, 0x100000), (c.park, c.parkLen), (c.route, 2048), (c.fstab, 4096), (c.qtab, 4096), (c.shpool, c.shlen)]

/-- R336: the fields of a descriptor, its addresses apart; PART is not looked at for context 0 (R342). -/
def Ctx.fieldsOk (c : Ctx) (zero : Bool) : Bool :=
  c.root % 0x100000 == 0 && c.park % 65536 == 0 && c.parkLen % 65536 == 0 && 0x20000 ≤ c.parkLen && c.route % 2048 == 0 &&
    c.fstab % 4096 == 0 && c.qtab % 4096 == 0 && c.shpool % 65536 == 0 && c.shlen % 65536 == 0 && (zero || c.part ≤ 7) &&
    c.rights ≤ 1 && 1 ≤ c.weight && c.weight ≤ 1024 && c.field 0x48 56 == 0

/-- R336: `[pa, pa+n)` lies in memory of a partition, or for context 0 in any memory. (DEDUCED, log 39.) -/
def State.inPart (s : State) (zero : Bool) (p pa n : Nat) : Bool :=
  (List.range (n / 2 ^ 30 + 2)).all fun i =>
    let a := min (pa + i * 2 ^ 30) (pa + (n - 1))
    memExists a && (zero || s.partOf a == some p)

/-- R336: a descriptor for a context. -/
def State.descFits (s : State) (zero : Bool) (c : Ctx) : Bool :=
  c.fieldsOk zero && c.parts.all fun x => s.inPart zero c.part x.1 x.2

/-- R336, R342: the descriptor's frame and its structures become system frames. -/
def State.markCtx (s : State) (c desc : Nat) (x : Ctx) : State :=
  s.setMem (((desc, 128) :: x.parts).foldl (fun m r => m.mark r.1 r.2 c) s.mem)

/-- R338: the finish scopes are all closed. -/
def State.closeScopes (s : State) (x : Ctx) : State := s.putBytes x.fstab (List.replicate 4096 0)

/-- The descriptor at a physical address, none where there is no memory. -/
def State.readDesc (s : State) (a : Nat) : Option Ctx :=
  if memExists a && memExists (a + 127) then some { desc := BitVec.ofNat 1024 (s.getNat a 128) } else none

/-- R472: a command of a context-control entry is refused. -/
def State.refuseCmd (s : State) (c : Nat) : State :=
  (s.refuse (0x10000 + 256 * c)).setHealth fun h => { h with ctxErr := if h.ctxErr.contains c then h.ctxErr else c :: h.ctxErr }

/-- R472: a command is accepted: ERR reads 0. -/
def State.takeCmd (s : State) (c : Nat) : State := s.setHealth fun h => { h with ctxErr := h.ctxErr.filter (· != c) }

/-- R472: DESC of a context-control entry is written. -/
def State.writeDesc (s : State) (c : Nat) (v : W64) : State := s.setHealth fun h => { h with ctxDesc := h.ctxDesc.write c v }

/-- CONTEXT_CREATE (R338, R342): DESC holds `desc`, and the command follows. (DEDUCED, log 39.) -/
def execContextCreate (c : Nat) (desc : Nat) (s0 : State) : Host.Outcome State Fault Refusal :=
  let s := if c < 64 then s0.writeDesc c (BitVec.ofNat 64 desc) else s0
  match if 1 ≤ c ∧ c < 64 ∧ (s.ctx c).st = CState.free ∧ s.health.c0desc ≠ 0 then s.readDesc desc else none with
  | none => .next (s.refuseCmd c)
  | some x =>
    if !s.descFits false x then .next (s.refuseCmd c)
    else
      let s1 := ((s.takeCmd c).markCtx c desc x).dropTlb fun t => t.ctx == c
      .next ((s1.setCtx c fun y => { x with st := .created, gens := y.gens }).closeScopes x)

/-- A command that moves a context from one state to another. -/
def State.moveCtx (s : State) (c : Nat) (old new : CState) (ok : Bool) : Host.Outcome State Fault Refusal :=
  if 1 ≤ c ∧ c < 64 ∧ (s.ctx c).st = old ∧ ok then .next ((s.takeCmd c).setCtx c fun x => { x with st := new })
  else .next (s.refuseCmd c)

/-- CONTEXT_ACTIVATE (R338). -/
def execContextActivate (c : Nat) (s : State) : Host.Outcome State Fault Refusal := s.moveCtx c .created .active true

/-- R338: a crew of the context is resident. -/
def State.resident (s : State) (c : Nat) : Bool :=
  s.crews.any fun x => (s.launch x.2.launch).ctx == c && x.2.space.isNone

/-- CONTEXT_SUSPEND (R338): nothing more dispatches; its crews are then evicted whole (CREW_EVICTION). -/
def execContextSuspend (c : Nat) (s : State) : Host.Outcome State Fault Refusal := s.moveCtx c .active .suspended true

/-- CONTEXT_RESUME (R338): once the suspend is over (R472); crews are then restored (CREW_RESTORE). (DEDUCED, log 39.) -/
def execContextResume (c : Nat) (s : State) : Host.Outcome State Fault Refusal :=
  s.moveCtx c .suspended .active (!s.resident c)

/-- CONTEXT_CLEAR_FAULT (R338): by the host or context 0. -/
def execContextClearFault (c : Nat) (s : State) : Host.Outcome State Fault Refusal := s.moveCtx c .faulted .active true

/-- R338: nothing of a destroying context is left. -/
def State.ctxGone (s : State) (c : Nat) : Bool :=
  (s.launches.all fun x => x.2.ctx != c || x.2.done) && !(s.crews.any fun x => (s.launch x.2.launch).ctx == c) &&
    !(s.records.any fun x => x.2.ctx == c) && !(s.detached.any fun d => d.ctx == c) && !s.copies.any fun x => x.2.ctx == c

/-- CONTEXT_FREE (R338, R342). -/
def execContextFree (c : Nat) (s : State) : Host.Outcome State Fault Refusal :=
  if (s.ctx c).st ≠ CState.destroying ∨ !s.ctxGone c then .next s
  else
    let s1 := (s.setMem { s.mem with sys := s.mem.sys.filter fun x => x.2.2 != c }).dropTlb fun t => t.ctx == c
    .next { (s1.setCtx c fun x => { gens := x.gens }) with
      queues := s1.queues.filter fun x => x.1 / 64 != c
      launches := s1.launches.filter fun x => x.2.ctx != c }

/-- C0DESC_WRITE (R342, R470). (DEDUCED, log 37.) -/
def execC0descWrite (v : W64) (s : State) : Host.Outcome State Fault Refusal :=
  if s.health.c0desc ≠ 0 ∨ (s.ctx 0).st ≠ CState.created then .next (s.refuse 0x3030)
  else if v = 0 then .next s
  else
    match s.readDesc v.toNat with
    | none => .next (s.refuse 0x3030)
    | some x =>
      if !s.descFits true x then .next (s.refuse 0x3030)
      else
        let s1 := (s.markCtx 0 v.toNat x).setHealth fun h => { h with c0desc := v }
        .next ((s1.setCtx 0 fun y => { x with st := .active, gens := y.gens }).closeScopes x)

/-- R427: the record slots of a context in use. -/
def State.slotsUsed (s : State) (c : Nat) (p : Nat → Bool) : Nat :=
  (s.records.filter fun x => x.1 / 4096 == c && p (x.1 % 4096)).length

/-- R343: the codes of the states. -/
def CState.code : CState → Nat
  | .free => 0
  | .created => 1
  | .active => 2
  | .suspended => 3
  | .faulted => 4
  | .destroying => 5

/-- R472: a register of a context-control entry. -/
def State.ctxReg (s : State) (c r : Nat) : Option W64 :=
  match r with
  | 0 => some 0
  | 8 => some (s.health.ctxDesc.read c)
  | 16 => some (BitVec.ofNat 64 (s.ctx c).st.code)
  | 24 => some (if s.health.ctxErr.contains c then 1 else 0)
  | _ => none

/-- R473: a register of a queue entry. -/
def State.queueWord (s : State) (c q r : Nat) : Option W64 :=
  let Q := s.queue c q
  match r with
  | 0x00 | 0x20 => some 0
  | 0x08 => some Q.head
  | 0x10 => some Q.tail
  | 0x18 => some (Q.stale.setWidth 64)
  | 0x28 => some (match Q.st with | .disabled => 0 | .ready => 1 | .stopped => 2 | .error => 3)
  | _ => none

/-- R478, R480: eight bytes of the measurement area. -/
def State.measureWord (s : State) (o : Nat) : Option W64 :=
  let word (l : List Byte) (a : Nat) : Option W64 := some (BitVec.ofNat 64 (leNat ((l.drop a).take 8)))
  if o < 0x200 then word s.health.measure.flatten o
  else if o < 0x220 then word (leBytes 32 s.health.nonce.toNat) (o - 0x200)
  else if o = 0x220 then some 0
  else if o = 0xFF8 then some (if 2 ^ 20 ≤ s.health.sigs then 1 else 0)
  else if 0x400 ≤ o ∧ o < 0xFF8 then word s.health.signed (o - 0x400)
  else none

/-- R468: what the host reads at an offset of BAR0; none at one that no register is assigned, or for an access that is not eight
aligned bytes. (DEDUCED, log 37.) -/
def State.hostReg (s : State) (off size : Nat) : Option W64 :=
  if size ≠ 8 ∨ off % 8 ≠ 0 then none
  else if off < 0x1000 ∨ (0x2000 ≤ off ∧ off < 0x3100) then s.bar0 off
  else if 0x4000 ≤ off ∧ off < 0x5000 then
    if (off - 0x4000) % 512 < 0x148 then some (s.partReg ((off - 0x4000) / 512) ((off - 0x4000) % 512 / 8)) else none
  else if 0x10000 ≤ off ∧ off < 0x14000 then s.ctxReg ((off - 0x10000) / 256) (off % 256)
  else if 0x400000 ≤ off ∧ off < 0x440000 then s.queueWord ((off - 0x400000) / 4096) (off % 4096 / 64) (off % 64)
  else if 0x800000 ≤ off ∧ off < 0x801000 then s.measureWord (off - 0x800000)
  else none

/-- R468: the host reads BAR0: an access that no register answers reads 0 and counts. -/
def State.hostRead (s : State) (off size : Nat) : State := if (s.hostReg off size).isSome then s else s.refuse off

/-- R343: the value of a selector. -/
def State.ctxValue (s : State) (c sel : Nat) : Nat :=
  let x := s.ctx c
  if x.st = CState.free then 0
  else
    match sel with
    | 0 => x.st.code
    | 1 => x.part
    | 2 => if c = 0 then x.rights ||| 1 else x.rights
    | 3 => min 32 x.ns - s.slotsUsed c (· < 32)
    | 4 => (x.ns - 32) - s.slotsUsed c (32 ≤ ·)
    | 5 => s.slotsUsed c fun _ => true
    | _ => x.weight

/-- CTXRD (R343). -/
def execCtxrd (d : BitVec 6) (sel : BitVec 8) (ctx : Option (BitVec 6)) (s : State) : Host.Outcome State Fault Refusal :=
  onWave Guard.none {} s fun h =>
    let mine := s.ctxOf h.w
    if ctx.isSome ∧ mine ≠ 0 then .error (.trap (h.report cPROT) s)
    else
      let c := match ctx with | some x => x.toNat | none => mine
      h.ok s fun w => w.writeS h.side d.toNat (BitVec.ofNat 64 (s.ctxValue c sel.toNat))

end Sys2Proof.Machine
end

