-- ==== Sys2Proof/Machine/VectorInt.lean ====
section
/-!
DEFINITION. Class 0x3: vector integer instructions (R164 to R166).
-/
namespace Sys2Proof.Machine

/-- R166: a unary operation. -/
def vecInt1 (o : VOp) (f : Nat → Int) (s : State) : Host.Outcome State Fault Refusal :=
  onWave o.g { vr := regsOf o.ty o.a.toNat, vw := regsOf o.ty o.d.toNat, pr := o.g.pregs } s fun h =>
    h.ok s fun w => w.writeElems o.ty.width o.d.toNat (h.part o.g) fun l j =>
      narrow o.ty o.sat (f (h.w.elem o.ty.width o.a.toNat l j))

/-- R166: a two-source operation. -/
def vecInt2 (o : VOp) (f : Nat → Nat → Int) (s : State) : Host.Outcome State Fault Refusal :=
  onWave o.g { vr := regsOf o.ty o.a.toNat ++ o.b.vregs o.ty, vw := regsOf o.ty o.d.toNat, sr := o.b.sregs,
               pr := o.g.pregs } s fun h =>
    h.ok s fun w => w.writeElems o.ty.width o.d.toNat (h.part o.g) fun l j =>
      narrow o.ty o.sat (f (h.w.elem o.ty.width o.a.toNat l j) (h.srcV o.ty l j o.b))

/-- R166: a three-source operation. -/
def vecInt3 (o : VOp) (f : Nat → Nat → Nat → Int) (s : State) : Host.Outcome State Fault Refusal :=
  onWave o.g { vr := regsOf o.ty o.a.toNat ++ o.b.vregs o.ty ++ regsOf o.ty o.c.toNat, vw := regsOf o.ty o.d.toNat,
               sr := o.b.sregs, pr := o.g.pregs } s fun h =>
    h.ok s fun w => w.writeElems o.ty.width o.d.toNat (h.part o.g) fun l j =>
      narrow o.ty o.sat (f (h.w.elem o.ty.width o.a.toNat l j) (h.srcV o.ty l j o.b) (h.w.elem o.ty.width o.c.toNat l j))

/-- VADD. -/
def execVadd (o : VOp) (s : State) : Host.Outcome State Fault Refusal := vecInt2 o (intAdd o.ty) s
/-- VSUB. -/
def execVsub (o : VOp) (s : State) : Host.Outcome State Fault Refusal := vecInt2 o (intSub o.ty) s
/-- VMUL. -/
def execVmul (o : VOp) (s : State) : Host.Outcome State Fault Refusal := vecInt2 o (intMul o.ty) s
/-- VMULH. -/
def execVmulh (o : VOp) (s : State) : Host.Outcome State Fault Refusal := vecInt2 o (intMulh o.ty) s
/-- VMAD. -/
def execVmad (o : VOp) (s : State) : Host.Outcome State Fault Refusal := vecInt3 o (intMad o.ty) s
/-- VDIV. -/
def execVdiv (o : VOp) (s : State) : Host.Outcome State Fault Refusal := vecInt2 o (intDiv o.ty) s
/-- VAND. -/
def execVand (o : VOp) (s : State) : Host.Outcome State Fault Refusal := vecInt2 o (intAnd o.ty) s
/-- VOR. -/
def execVor (o : VOp) (s : State) : Host.Outcome State Fault Refusal := vecInt2 o (intOr o.ty) s
/-- VXOR. -/
def execVxor (o : VOp) (s : State) : Host.Outcome State Fault Refusal := vecInt2 o (intXor o.ty) s
/-- VSHL. -/
def execVshl (o : VOp) (s : State) : Host.Outcome State Fault Refusal := vecInt2 o (intShl o.ty) s
/-- VSHR. -/
def execVshr (o : VOp) (s : State) : Host.Outcome State Fault Refusal := vecInt2 o (intShr o.ty) s
/-- VSAR. -/
def execVsar (o : VOp) (s : State) : Host.Outcome State Fault Refusal := vecInt2 o (intSar o.ty) s
/-- VMIN. -/
def execVmin (o : VOp) (s : State) : Host.Outcome State Fault Refusal := vecInt2 o (intMin o.ty) s
/-- VMAX. -/
def execVmax (o : VOp) (s : State) : Host.Outcome State Fault Refusal := vecInt2 o (intMax o.ty) s
/-- VABS. -/
def execVabs (o : VOp) (s : State) : Host.Outcome State Fault Refusal := vecInt1 o (fun a => ((intOf o.ty a).natAbs : Int)) s
/-- VBFE. -/
def execVbfe (o : VOp) (s : State) : Host.Outcome State Fault Refusal := vecInt3 o (fun a b c => fieldOf o.ty.width o.ty.isS a b c) s
/-- VBFI. -/
def execVbfi (o : VOp) (s : State) : Host.Outcome State Fault Refusal := vecInt3 o (fun a b c => (fieldSet o.ty.width a b (c % 256) (c / 256 % 256) : Nat)) s
/-- VCLZ. -/
def execVclz (o : VOp) (s : State) : Host.Outcome State Fault Refusal := vecInt1 o (fun a => (clzOf o.ty.width a : Nat)) s
/-- VPOPC. -/
def execVpopc (o : VOp) (s : State) : Host.Outcome State Fault Refusal := vecInt1 o (fun a => (popcOf o.ty.width a : Nat)) s

end Sys2Proof.Machine
end

