-- ==== Sys2Proof/Machine/VectorFloat.lean ====
section
/-!
DEFINITION. Class 0x4: vector floating-point instructions (R164, R165, R167 to R172).
-/
namespace Sys2Proof.Machine

/-- R168: every sub-element of the participating lanes is computed, its flags raised, its result saturated and written. -/
def Here.fltLanes (h : Here) (s : State) (g : Guard) (ty : Ty) (sat : Sat) (d : Nat) (mode : Rnd)
    (res : How → Nat → Nat → FVal × Flags) : Except Abort State :=
  let z := nextZ mode h.f.z
  let e := elemsPerLane ty.width
  let out (l j : Nat) := res (howOf mode z l e j) l j
  h.arith s (h.part g) (fun l => orFlags ((List.range e).map fun j => (out l j).2)) z fun w =>
    w.writeElems ty.width d (h.part g) fun l j => encodeF ty (saturateF ty sat (out l j).1)

/-- A source element with DAZ applied (R46). -/
def Here.fltV (h : Here) (ty : Ty) (r : BitVec 8) (l j : Nat) : FVal :=
  decodeF ty (modeDaz h.w.mode) (h.w.elem ty.width r.toNat l j)

/-- The B operand with DAZ applied. -/
def Here.fltB (h : Here) (ty : Ty) (b : SrcV) (l j : Nat) : FVal := decodeF ty (modeDaz h.w.mode) (h.srcF ty l j b)

/-- R168: a unary rounding operation. -/
def vecFlt1 (o : VOp) (f : How → FVal → FRes) (s : State) : Host.Outcome State Fault Refusal :=
  onWave o.g { vr := regsOf o.ty o.a.toNat, vw := regsOf o.ty o.d.toNat, pr := o.g.pregs } s fun h =>
    h.fltLanes s o.g o.ty o.sat o.d.toNat (h.rnd o.rnd) fun how l j =>
      let a := h.fltV o.ty o.a l j
      deliver o.ty how (modeFtz h.w.mode) [a] (f how a)

/-- R168: a two-source rounding operation. -/
def vecFlt2 (o : VOp) (f : How → FVal → FVal → FRes) (s : State) : Host.Outcome State Fault Refusal :=
  onWave o.g { vr := regsOf o.ty o.a.toNat ++ o.b.vregs o.ty, vw := regsOf o.ty o.d.toNat, sr := o.b.sregs,
               pr := o.g.pregs } s fun h =>
    h.fltLanes s o.g o.ty o.sat o.d.toNat (h.rnd o.rnd) fun how l j =>
      let a := h.fltV o.ty o.a l j
      let b := h.fltB o.ty o.b l j
      deliver o.ty how (modeFtz h.w.mode) [a, b] (f how a b)

/-- FADD. -/
def execFadd (o : VOp) (s : State) : Host.Outcome State Fault Refusal := vecFlt2 o (fun h a b => resSum h.mode a b) s
/-- FSUB. -/
def execFsub (o : VOp) (s : State) : Host.Outcome State Fault Refusal := vecFlt2 o (fun h a b => resSum h.mode a b.negate) s
/-- FMUL. -/
def execFmul (o : VOp) (s : State) : Host.Outcome State Fault Refusal := vecFlt2 o (fun _ a b => resMul a b) s
/-- FDIV. -/
def execFdiv (o : VOp) (s : State) : Host.Outcome State Fault Refusal := vecFlt2 o (fun _ a b => resDiv a b) s
/-- FSQRT. -/
def execFsqrt (o : VOp) (s : State) : Host.Outcome State Fault Refusal := vecFlt1 o (fun _ a => resSqrt a) s
/-- FRCP. -/
def execFrcp (o : VOp) (s : State) : Host.Outcome State Fault Refusal := vecFlt1 o (fun _ a => resRcp a) s
/-- FRSQ. -/
def execFrsq (o : VOp) (s : State) : Host.Outcome State Fault Refusal := vecFlt1 o (fun _ a => resRsq a) s
/-- FRINT. -/
def execFrint (o : VOp) (s : State) : Host.Outcome State Fault Refusal := vecFlt1 o resRint s

/-- FFMA (R168). -/
def execFfma (o : VOp) (s : State) : Host.Outcome State Fault Refusal :=
  onWave o.g { vr := regsOf o.ty o.a.toNat ++ o.b.vregs o.ty ++ regsOf o.ty o.c.toNat, vw := regsOf o.ty o.d.toNat,
               sr := o.b.sregs, pr := o.g.pregs } s fun h =>
    h.fltLanes s o.g o.ty o.sat o.d.toNat (h.rnd o.rnd) fun how l j =>
      let a := h.fltV o.ty o.a l j
      let b := h.fltB o.ty o.b l j
      let c := h.fltV o.ty o.c l j
      deliver o.ty how (modeFtz h.w.mode) [a, b, c] (resFma how.mode a b c)

/-- R168: the exponent operand of fldexp. -/
def Here.ldexpN (h : Here) (t : Ty) (l j : Nat) : SrcV → Int
  | .imm v => v.toInt
  | b => asSigned t.width (h.srcF t l j b)

/-- FLDEXP (R168). -/
def execFldexp (o : VOp) (s : State) : Host.Outcome State Fault Refusal :=
  onWave o.g { vr := regsOf o.ty o.a.toNat ++ o.b.vregs o.ty, vw := regsOf o.ty o.d.toNat, sr := o.b.sregs,
               pr := o.g.pregs } s fun h =>
    h.fltLanes s o.g o.ty o.sat o.d.toNat (h.rnd o.rnd) fun how l j =>
      let a := h.fltV o.ty o.a l j
      deliver o.ty how (modeFtz h.w.mode) [a] (resLdexp a (h.ldexpN o.ty l j o.b))

/-- R169: fmin and fmax round nothing. -/
def vecMinMax (isMax : Bool) (o : VOp) (s : State) : Host.Outcome State Fault Refusal :=
  onWave o.g { vr := regsOf o.ty o.a.toNat ++ o.b.vregs o.ty, vw := regsOf o.ty o.d.toNat, sr := o.b.sregs,
               pr := o.g.pregs } s fun h =>
    h.fltLanes s o.g o.ty .none o.d.toNat .rne fun _ l j =>
      minMaxF isMax (h.fltV o.ty o.a l j) (h.fltB o.ty o.b l j)

/-- FMIN. -/
def execFmin (o : VOp) (s : State) : Host.Outcome State Fault Refusal := vecMinMax false o s
/-- FMAX. -/
def execFmax (o : VOp) (s : State) : Host.Outcome State Fault Refusal := vecMinMax true o s

/-- FCLASS (R170): no DAZ, no flag. -/
def execFclass (o : VOp) (s : State) : Host.Outcome State Fault Refusal :=
  vecInt1 o (fun a => (classF o.ty a : Nat)) s

/-- FDOT2 (R171): two 16-bit products, one binary32 result. -/
def execFdot2 (o : VOp) (s : State) : Host.Outcome State Fault Refusal :=
  onWave o.g { vr := o.a.toNat :: o.b.vregs o.ty, vw := [o.d.toNat], sr := o.b.sregs, pr := o.g.pregs } s fun h =>
    h.fltLanes s o.g .f32 o.sat o.d.toNat (h.rnd o.rnd) fun how l _ =>
      let a0 := h.fltV o.ty o.a l 0
      let a1 := h.fltV o.ty o.a l 1
      let b0 := h.fltB o.ty o.b l 0
      let b1 := h.fltB o.ty o.b l 1
      deliver .f32 how (modeFtz h.w.mode) [a0, a1, b0, b1] (resDot2 how.mode a0 a1 b0 b1)

/-- FCMP (R172). -/
def execFcmp (o : FCmp) (s : State) : Host.Outcome State Fault Refusal :=
  onWave o.g { vr := regsOf o.ty o.a.toNat ++ o.b.vregs o.ty, sr := o.b.sregs, pr := o.g.pregs, pw := [o.d.toNat] } s fun h =>
    let out (l : Nat) := cmpF o.cc (h.fltV o.ty o.a l 0) (h.fltB o.ty o.b l 0)
    h.arith s (h.part o.g) (fun l => (out l).2) h.f.z fun w =>
      w.writeP o.d.toNat (h.part o.g) (lanesMask ((lanesOf (h.part o.g)).filter fun l => (out l).1))

end Sys2Proof.Machine
end

