-- ==== Sys2Proof/Machine/Convert.lean ====
section
/-!
DEFINITION. Class 0x5 but for the activation table: special functions, conversions, DX blocks, fdp4 (R173, R177 to R182).
-/
namespace Sys2Proof.Machine

/-- FEXP2 (R173). -/
def execFexp2 (o : VOp) (s : State) : Host.Outcome State Fault Refusal := vecFlt1 o (fun _ a => resExp2 a) s
/-- FLOG2 (R173). -/
def execFlog2 (o : VOp) (s : State) : Host.Outcome State Fault Refusal := vecFlt1 o (fun _ a => resLog2 a) s
/-- FSIN (R173). -/
def execFsin (o : VOp) (s : State) : Host.Outcome State Fault Refusal := vecFlt1 o (fun _ a => resTrig true a) s
/-- FCOS (R173). -/
def execFcos (o : VOp) (s : State) : Host.Outcome State Fault Refusal := vecFlt1 o (fun _ a => resTrig false a) s

/-- R177: the mode of a conversion; one that is always exact rounds nothing (R43). -/
def Cvt.mode (o : Cvt) (h : Here) : Rnd := if alwaysExact o.dst o.src then .rne else h.rnd o.rnd

/-- R47: one element of a conversion. -/
def Cvt.elem (o : Cvt) (h : Here) (how : How) (x : Nat) : Nat × Flags :=
  convert o.dst o.src how (modeDaz h.w.mode) (modeFtz h.w.mode) o.sat x

/-- CVT (R178). -/
def execCvt (o : Cvt) (s : State) : Host.Outcome State Fault Refusal :=
  let ws := o.src.width
  let wd := o.dst.width
  let e := 32 / min (max ws wd) 32
  let so := if ws ≤ wd then o.q.toNat * e else 0
  let dn := if wd ≤ ws then o.q.toNat * e else 0
  onWave o.g { vr := regsOf o.src o.a.toNat ++ (if wd < ws ∧ wd < 32 then [o.d.toNat] else []),
               vw := regsOf o.dst o.d.toNat, pr := o.g.pregs } s fun h =>
    let z := nextZ (Cvt.mode o h) h.f.z
    let out (l j : Nat) := Cvt.elem o h (howOf (Cvt.mode o h) z l e j) (h.w.elem ws o.a.toNat l (so + j))
    h.arith s (h.part o.g) (fun l => orFlags ((List.range e).map fun j => (out l j).2)) z fun w =>
      w.writeElems wd o.d.toNat (h.part o.g) fun l k =>
        if dn ≤ k ∧ k < dn + e then (out l (k - dn)).1 else h.w.elem wd o.d.toNat l k

/-- PACK (R179): sub-element idx of D comes from register `A + idx/n`, where n source elements fit a lane. -/
def execPack (o : Cvt) (s : State) : Host.Outcome State Fault Refusal :=
  let ws := o.src.width
  let wd := o.dst.width
  let n := 32 / ws
  let e := 32 / wd
  onWave o.g { vr := (List.range (ws / wd)).map (o.a.toNat + ·), vw := [o.d.toNat], pr := o.g.pregs } s fun h =>
    let z := nextZ (Cvt.mode o h) h.f.z
    let out (l j : Nat) := Cvt.elem o h (howOf (Cvt.mode o h) z l e j) (h.w.elem ws (o.a.toNat + j / n) l (j % n))
    h.arith s (h.part o.g) (fun l => orFlags ((List.range e).map fun j => (out l j).2)) z fun w =>
      w.writeElems wd o.d.toNat (h.part o.g) fun l j => (out l j).1

/-- UNPACK (R179): sub-element idx of A goes to register `D + idx/n`, where n destination elements fit a lane. -/
def execUnpack (o : Cvt) (s : State) : Host.Outcome State Fault Refusal :=
  let ws := o.src.width
  let wd := o.dst.width
  let n := 32 / wd
  let e := 32 / ws
  onWave o.g { vr := [o.a.toNat], vw := (List.range (wd / ws)).map (o.d.toNat + ·), pr := o.g.pregs } s fun h =>
    let z := nextZ (Cvt.mode o h) h.f.z
    let out (l j : Nat) := Cvt.elem o h (howOf (Cvt.mode o h) z l e j) (h.w.elem ws o.a.toNat l j)
    h.arith s (h.part o.g) (fun l => orFlags ((List.range e).map fun j => (out l j).2)) z fun w =>
      (List.range (wd / ws)).foldl (fun w r =>
        w.writeElems wd (o.d.toNat + r) (h.part o.g) fun l i => (out l (n * r + i)).1) w

/-- R180: register (after the first), lane and sub-element of element n of a float block. -/
def dxPlace (flt : Ty) (n : Nat) : Nat × Nat × Nat :=
  if flt = Ty.f32 then (n / 96, n % 96, 0) else (n / 192, n % 192 / 2, n % 2)

/-- R38: DX elements of a lane. -/
def dxPer (dx : Ty) : Nat := if dx = Ty.dx8 then 4 else 8

/-- R38: lanes of a block. -/
def dxLanes (dx : Ty) : Nat := if dx = Ty.dx8 then 8 else 4

/-- R38: lane and low bit of the scales of block b under group g. -/
def dxScaleAt (g b : Nat) : Nat × Nat := (6 * g + b / 2, 16 * (b % 2))

/-- R180: the blocks that are processed: those whose lowest destination lane takes part. -/
def dxBlocks (dx : Ty) (m : Lanes) : List Nat :=
  (List.range (96 / dxLanes dx)).filter fun b => m.getLsbD (dxLanes dx * b)

/-- The lanes of some blocks. -/
def dxMask (dx : Ty) (bs : List Nat) : Lanes :=
  lanesMask (bs.flatMap fun b => (List.range (dxLanes dx)).map (dxLanes dx * b + ·))

/-- DXQ (R39, R180). -/
def execDxq (o : DxOp) (s : State) : Host.Outcome State Fault Refusal :=
  let per := dxPer o.dst
  let grp := o.grp.toNat
  onWave o.g { nm := (List.range (dxRegs o.dst o.src)).map (o.a.toNat + ·) ++ [o.d.toNat, o.c.toNat],
               pr := o.g.pregs } s fun h => do
    let bs := dxBlocks o.dst (h.part o.g)
    let at_ (n : Nat) := dxPlace o.src n
    let m := dxMask o.dst bs
    let sc := lanesMask (bs.map fun b => (dxScaleAt grp b).1)
    h.ecc s ((bs.flatMap fun b => (List.range 32).map fun i => laneCode (o.a.toNat + (at_ (32 * b + i)).1) (at_ (32 * b + i)).2.1) ++
      partCodes o.d.toNat m ++ partCodes o.c.toNat sc)
    let mode := h.rnd o.rnd
    let z := nextZ mode h.f.z
    let src (n : Nat) := decodeF o.src (modeDaz h.w.mode)
      (h.w.elem o.src.width (o.a.toNat + (at_ n).1) (at_ n).2.1 (at_ n).2.2)
    let blk (b : Nat) := quantBlock o.dst (fun i => howOf mode z ((32 * b + i) / per) per ((32 * b + i) % per))
      ((List.range 32).map fun i => src (32 * b + i))
    h.arith s m (fun l => (blk (l / dxLanes o.dst)).2.2.2) z fun w =>
      (w.writeV o.d.toNat m fun l =>
        packLane (32 / per) fun k => (blk (l / dxLanes o.dst)).2.2.1.getD (l % dxLanes o.dst * per + k) 0).writeV
        o.c.toNat sc fun l => packLane 16 fun half =>
          let b := 2 * (l - 6 * grp) + half
          if bs.contains b then (blk b).1 + 256 * (blk b).2.1 else h.w.elem 16 o.c.toNat l half

/-- DXD (R40, R181). -/
def execDxd (o : DxOp) (s : State) : Host.Outcome State Fault Refusal :=
  let per := dxPer o.src
  let grp := o.grp.toNat
  let wd := o.dst.width
  let regs := dxRegs o.src o.dst
  onWave o.g { nm := [o.a.toNat, o.c.toNat], vw := (List.range regs).map (o.d.toNat + ·), pr := o.g.pregs } s fun h => do
    let m := h.part o.g
    let elN (r l j : Nat) : Nat := if wd = 32 then 96 * r + l else 192 * r + 2 * l + j
    h.ecc s ((lanesOf m).flatMap fun l => (List.range regs).flatMap fun r => (List.range (32 / wd)).flatMap fun j =>
      [laneCode o.a.toNat (elN r l j / per), laneCode o.c.toNat (dxScaleAt grp (elN r l j / 32)).1])
    let mode := if o.dst = Ty.f16 then h.rnd o.rnd else .rne
    let z := nextZ mode h.f.z
    let out (r l j : Nat) : FVal × Flags :=
      let n := elN r l j
      let sc := bits (h.w.readV o.c.toNat (dxScaleAt grp (n / 32)).1) (dxScaleAt grp (n / 32)).2 16
      match decodeDx o.src (sc % 256) (sc / 256) (h.w.elem (32 / per) o.a.toNat (n / per) (n % per)) with
      | .fin neg x e =>
        if o.dst = Ty.f16 then roundTo .f16 (howOf mode z l 2 j) (modeFtz h.w.mode) ⟨neg, x, e⟩ else (.fin neg x e, 0)
      | v => (v, flNV)
    h.arith s m (fun l => orFlags ((List.range regs).map fun r =>
        orFlags ((List.range (32 / wd)).map fun j => (out r l j).2))) z fun w =>
      (List.range regs).foldl (fun w r => w.writeElems wd (o.d.toNat + r) m fun l j => encodeF o.dst (out r l j).1) w

/-- R182: the four fused steps of one lane of fdp4. -/
def fdp4Steps (mode : Rnd) (z : W32) (l : Nat) (ftz : Bool) (a b : Nat → FVal) : List Nat → FVal → Flags → FVal × Flags
  | [], d, fl => (d, fl)
  | j :: js, d, fl =>
    let r := deliver .f32 (howOf mode z l 4 j) ftz [a j, b j, d] (resFma mode (a j) (b j) d)
    fdp4Steps mode z l ftz a b js r.1 (fl ||| r.2)

/-- FDP4 (R182). -/
def execFdp4 (o : VOp) (s : State) : Host.Outcome State Fault Refusal :=
  onWave o.g { vr := [o.a.toNat, o.c.toNat] ++ o.b.vregs o.ty, vw := [o.d.toNat], pr := o.g.pregs } s fun h =>
    let mode := h.rnd o.rnd
    let z := nextZ mode h.f.z
    let out (l : Nat) := fdp4Steps mode z l (modeFtz h.w.mode) (fun j => h.fltV o.ty o.a l j) (fun j => h.fltB o.ty o.b l j)
      [0, 1, 2, 3] (h.fltV .f32 o.c l 0) 0
    h.arith s (h.part o.g) (fun l => (out l).2) z fun w =>
      w.writeV o.d.toNat (h.part o.g) fun l => BitVec.ofNat 32 (encodeF .f32 (saturateF .f32 o.sat (out l).1))

end Sys2Proof.Machine
end

