-- ==== Sys2Proof/Machine/Directory.lean ====
section
/-!
DEFINITION. The events of the caches and of the directory (R233, R261, R271 to R275), of translation (R324) and of host accesses
(R467). The requests themselves stand in Memory; an instruction makes those it needs.
-/
namespace Sys2Proof.Machine

/-- A directory event names a die of the package and a line of memory. -/
def State.onLine (s : State) (die line : Nat) (k : State) : Host.Outcome State Fault Refusal :=
  if !memExists (128 * line) then .fault .noMemory else if 8 ≤ die then .next s else .next k

/-- GETS (R272). -/
def execGetS (die line : Nat) (s : State) : Host.Outcome State Fault Refusal := s.onLine die line (s.doGetS die line)

/-- GETM (R272). -/
def execGetM (die line : Nat) (s : State) : Host.Outcome State Fault Refusal := s.onLine die line (s.doGetM die line)

/-- WRITE_MERGE (R272): the words of the mask are merged into the home copy. -/
def execWriteMerge (line : Nat) (mask : W32) (data : MemLine) (s : State) : Host.Outcome State Fault Refusal :=
  let f (a : Nat) : Byte := byteOf data (a - 128 * line)
  s.onLine 0 line (if mask = 0xFFFFFFFF then s.homeWrite (128 * line) 128 f
    else ((List.range 32).filter fun i => mask.getLsbD i).foldl (fun s i => s.homeWrite (128 * line + 4 * i) 4 f) (s.recall line))

/-- HOME_ATOMIC (R211, R272): one lane of an atomic, or a flag read, on the home copy; on a poisoned line it is not performed (R270). -/
def execHomeAtomic (pa : Nat) (op : Option AtOp) (ty : Ty) (v : W64) (s : State) : Host.Outcome State Fault Refusal :=
  if pa % (ty.width / 8) ≠ 0 then .next s
  else if s.poisoned (pa / 128) then s.onLine 0 (pa / 128) (s.consume pa none)
  else s.onLine 0 (pa / 128) (s.atomicAt pa (ty.width / 8) fun old => op.map fun o => atomNew o ty old (v.toNat % 2 ^ ty.width)).1

/-- R272, R273: an entry that names a die no more, unless windows of that die still hold words of the line. -/
def State.forget (s : State) (die line : Nat) : State :=
  match s.mem.dir.get? line with
  | some e =>
    let bit : BitVec 8 := (1#8) <<< die
    s.setMem (s.setEntry s.mem line (if e.owner = some die then none else e.owner) ((e.sharers &&& ~~~bit) ||| (s.winDies line false &&& bit)))
  | none => s

/-- PUTM (R272): an owner writes its data home and keeps no copy. (DESIGN CHOICE, log 9.) -/
def execPutM (die line : Nat) (s0 : State) : Host.Outcome State Fault Refusal :=
  let s := s0.recoverLine line
  match s.mem.l2.get? (l2Key die line) with
  | some c =>
    if c.st = Moesi.m ∨ c.st = Moesi.o then .next ((s.setMem (s.mem.recallFrom line [die])).forget die line) else .next s
  | none => .next s

/-- FORWARDED_REQUEST (R272): the owner answers a shared request with its data, O after M and S after E; without the line it
answers "none" and the entry names it no more, as for a probe that is dropped (R274). (DEDUCED, log 36.) -/
def execForwardedRequest (line : Nat) (s0 : State) : Host.Outcome State Fault Refusal :=
  let s := s0.recoverLine line
  match s.mem.dir.get? line with
  | some e =>
    match e.owner with
    | some o =>
      if !s.probeOk line o then .next ((s.probeDrop line o).forget o line)
      else
        match s.mem.l2.get? (l2Key o line) with
        | some c =>
          match c.st with
          | .m => .next (s.setMem { s.mem with l2 := s.mem.l2.put (l2Key o line) { c with st := .o } })
          | .e => .next (s.setMem (s.setEntry { s.mem with l2 := s.mem.l2.put (l2Key o line) { c with st := .s } } line none
              (e.sharers ||| ((1#8) <<< o))))
          | _ => .next s
        | none => .next (s.forget o line)
    | none => .next s
  | none => .next s

/-- INVALIDATE_WITH_WRITEBACK (R273): a holder gives up its copy, and its windows the Clean words of the line; a probe that is dropped
counts as answered "none" (R274). -/
def execInvalidateWithWriteback (die line : Nat) (s0 : State) : Host.Outcome State Fault Refusal :=
  let s := s0.recoverLine line
  if !s.probeOk line die then .next ((s.probeDrop line die).forget die line)
  else
    let s1 := s.setMem (s.mem.recallFrom line [die])
    .next ({ s1 with crews := s1.crews.map fun (x : Nat × Crew) =>
      if x.2.clus / 64 = die then (x.1, x.2.backInvalidate line) else x }.forget die line)

/-- DIRECTORY_RECOVERY (R275). -/
def execDirectoryRecovery (line : Nat) (s : State) : Host.Outcome State Fault Refusal := .next (s.recoverLine line)

/-- SILENT_EVICTION (R271): an E or S copy leaves without a message. (DESIGN CHOICE, log 9.) -/
def execSilentEviction (die line : Nat) (s : State) : Host.Outcome State Fault Refusal :=
  match s.mem.l2.get? (l2Key die line) with
  | some c =>
    if c.st = Moesi.e ∨ c.st = Moesi.s then .next (s.setMem { s.mem with l2 := s.mem.l2.erase (l2Key die line) }) else .next s
  | none => .next s

/-- L1_LINE_EVICTION (R233). (DESIGN CHOICE, log 9.) -/
def execL1LineEviction (core line : Nat) (s : State) : Host.Outcome State Fault Refusal :=
  .next (s.setMem { s.mem with l1 := s.mem.l1.erase (l1Key core line) })

/-- R259, R260: the unit belongs to a crew's run. -/
def State.unitTaken (s : State) (clus unit : Nat) : Bool :=
  s.crews.any fun x => x.2.clus == clus && x.2.space.isNone && x.2.unit ≤ unit && unit < x.2.unit + x.2.nunits

/-- R261: a lent unit is taken back: its way is invalidated and its bytes are zero. (DEDUCED, log 36.) -/
def State.reclaim (s : State) (clus unit : Nat) : State :=
  let s1 := s.setMem (s.mem.dropL1 (8 * clus + unit / 8))
  { s1 with stores := { s1.stores with
      astore := s1.stores.astore.clear (2 ^ 22 * clus + 65536 * unit) 65536
      bad := s1.stores.bad.filter fun b => !(b.1 == 0 && b.2 / 2 ^ 14 == 2 ^ 6 * clus + unit) } }

/-- UNIT_RECLAIM (R261). -/
def execUnitReclaim (clus unit : Nat) (s : State) : Host.Outcome State Fault Refusal :=
  if 64 ≤ unit ∨ s.unitTaken clus unit then .next s else .next (s.reclaim clus unit)

/-- PAGE_WALK (R324, R328): the leaf is cached, or the walk fails; a leaf on a retired frame is marked. -/
def execPageWalk (core ctx : Nat) (va : W64) (k : Access) (s : State) : Host.Outcome State Fault Refusal :=
  match s.translate core ctx va.toNat k with
  | (_, .error .absent) => .fault .noMemory
  | (s1, .error .memecc) => .next (s1.countWalks ctx [va.toNat])
  | (s1, _) => .next s1

/-- HOST_MEMORY_ACCESS (R242, R325, R467): a read, or a write of some bytes, by the host; it does not translate. A write to a page
under protection has its copy made first (R367). (DEDUCED, log 36.) -/
def execHostMemoryAccess (pa : Nat) (write : Option (List Byte)) (s : State) : Host.Outcome State Fault Refusal :=
  match write with
  | none =>
    if !memExists pa then .fault .noMemory
    else
      let s1 := s.doGetS 0 (pa / 128)
      .next (if s1.poisoned (pa / 128) then s1.consume pa none else s1)
  | some l =>
    if !memExists pa ∨ !memExists (pa + l.length - 1) then .fault .noMemory
    else .next ((s.foreignWrite pa l.length).putBytes pa l)

end Sys2Proof.Machine
end

