-- ==== Sys2Proof/Machine/Dispatcher.lean ====
section
/-!
DEFINITION. Room on cores, the placement of crews (R370), eviction and restore of waves, instances and whole crews (R340, R399, R400).
The choice among candidates stands in Schedule.
-/
namespace Sys2Proof.Machine

/-- The free wave slots of a core, lowest first. -/
def State.freeSlots (s : State) (core : Nat) : List Nat :=
  (List.range 24).filter fun n => !s.waves.any fun x => x.2.core == core && x.2.holds && x.2.slot == n

/-- Granules of a core that no wave holds (R17). -/
def State.freeGrans (s : State) (core : Nat) : Nat :=
  96 - ((s.waves.filter fun x => x.2.core == core && x.2.holds).map fun x => x.2.gran).sum

/-- R28: the sequencer of a core runs no instance. -/
def State.seqFree (s : State) (core : Nat) : Bool := !s.seqs.any fun x => x.2.core == core && x.2.status == .live

/-- R396: a context whose work is placed and restored. -/
def State.running (s : State) (ctx : Nat) : Bool := (s.ctx ctx).st == .active || (s.ctx ctx).st == .faulted

/-- Units of a launch's run. -/
def Launch.units (l : Launch) : Nat := l.runLen / 65536

/-- R370: a placement of one crew: the core in the cluster of each wave. -/
structure Place where
  clus : Nat
  unit : Nat
  cores : List Nat
  deriving DecidableEq, Repr, Inhabited

/-- Cores of a cluster that the waves of a placement occupy. -/
def Place.occupied (p : Place) : List Nat := (List.range 8).filter (p.cores.contains ·)

/-- R388, R400: a wait recorded in a saved wave is over. (DEDUCED, log 7.) -/
def State.waitOver (s : State) (w : Wave) (wk : Nat) (x : Wait) : Bool :=
  let ctx := s.ctxOf w
  match x with
  | .time t => t ≤ s.clk
  | .barrier off ph => s.objPh (s.crew w.crew).clus off == ph
  | .group g ph => match (s.crew w.crew).groups.get? g with
    | some y => y.ph == ph
    | none => true
  | .batch n => s.batchDone wk n
  | .qhead q n => (s.queue ctx q).reached n
  | .qspace q i => (i - (s.queue ctx q).head).toNat < (s.queue ctx q).size
  | .scope n => n == 0 || (s.scope ctx n).2.1 == 0
  | .flag a v => match (s.translate w.core ctx a.toNat .read).2 with
    | .ok pa => s.get64 pa != v
    | .error _ => true
  | _ => true

/-- R78, R388: the wait in the header of a saved wave. -/
def State.savedWait (s : State) (w : Wave) : Option Wait :=
  waitOf (s.getNat (w.save + 0x40) 1) (s.getNat (w.save + 0x41) 7) (s.get64 (w.save + 0x48))

/-- R78, R80: FRAG of the header: the slot of the fragment in the clear. -/
def State.savedSide (s : State) (w : Wave) : Bool := s.getNat (w.save + 3) 1 == 1

/-- R78: the fragment in the clear as the save area gives it. (DEDUCED, log 41.) -/
def State.savedFrag (s : State) (w : Wave) : Fragment :=
  let owned : Lanes := BitVec.ofNat 96 (s.getNat (w.save + 0x10) 12)
  let em : Lanes := BitVec.ofNat 96 ((List.range 3).foldl (fun n b => n + s.getNat (w.save + 0x100 + 8 * (60 + b)) 4 * 2 ^ (32 * b)) 0)
  let pc : Pc := BitVec.ofNat 56 (s.getNat (w.save + 8) 7)
  let old := (w.frag w.clear).getD {}
  let wait := (s.savedWait w).getD .none
  { id := old.id, pc, owned, mask := em &&& owned
    recon := if s.get64 (w.save + 0x20) = 0xFFFFFFFFFFFFFFFF then none else some ((s.get64 (w.save + 0x20)).setWidth 56)
    z := BitVec.ofNat 32 (s.getNat (w.save + 0x2C) 4), wait, ended := if old.wait = wait ∧ old.pc = pc then old.ended else none
    landing := old.landing, enq := old.enq && old.pc == pc && !old.landing }

/-- R72: the other fragment, from the sealed block; its line is fetched again. -/
def Fragment.reload (f : Fragment) : Fragment := { f with fetch := f.fetch.saved, age := 0, aged := false, yielded := false }

/-- R77 to R80: the registers of a saved wave as its save area gives them. (DEDUCED, log 41.) -/
def State.loadWave (s : State) (w : Wave) : Wave :=
  let a := w.save
  let n64 (o : Nat) : W64 := s.get64 (a + o)
  let side := s.savedSide w
  { ({ w with fa := none, fb := none }.setFrag side (some (s.savedFrag w))).setFrag (!side)
      ((w.frag (!w.clear)).map Fragment.reload) with
    status := .resident
    stack := w.stack.map fun x => (x.1.reload, x.2)
    s := Cells.update [] 0 60 fun r => n64 (0x100 + 8 * r)
    p := Cells.update [] 0 15 fun r => BitVec.ofNat 96 (s.getNat (a + 0x300 + 16 * r) 12)
    v := Cells.update [] 0 (96 * w.n) fun x => BitVec.ofNat 32 (s.getNat (a + 0x400 + 384 * (x / 96) + 4 * (x % 96)) 4)
    mode := (n64 0x28).setWidth 32, flags := (n64 0x30).setWidth 7, budget := n64 0x38
    openB := BitVec.ofNat 32 (s.getNat (a + 0x50) 4), lastB := BitVec.ofNat 32 (s.getNat (a + 0x54) 4)
    issuedB := side, ready := false, mend := [] }

/-- R400: an evicted wave is a candidate: with the recorded waits that are over, it would not be waiting (R383). -/
def State.wakeable (s : State) (k : Nat) (w : Wave) : Bool :=
  !((s.loadWave w).mapFrags fun f => if s.waitOver w k f.wait || f.ended.isSome then { f with wait := .none } else f).isWaiting

/-- R396, R400: a saved wave that the dispatcher may restore, evicting for it or not. -/
def State.waveCandidate (s : State) (k : Nat) (w : Wave) : Bool :=
  (w.status == .evicted || (w.status == .adjourned && w.ready)) && (s.crew w.crew).space.isNone && s.running (s.ctxOf w) && w.save != 0 &&
    (w.status == .adjourned || s.wakeable k w)

/-- R377: a retry runs on the core that faulted while that is in service. -/
def State.coreFor (s : State) (w : Wave) (core : Nat) : Bool :=
  match w.watch with
  | some (_, _, c) => core == c || !s.coreUp c
  | none => true

/-- R400: the core has room for the wave. -/
def State.waveFits (s : State) (w : Wave) (core : Nat) : Bool :=
  core / 8 == w.core / 8 && s.coreUp core && s.coreFor w core && !(s.freeSlots core).isEmpty && w.gran ≤ s.freeGrans core

/-- R400, R401: an evicted wave is a candidate: its waits are over, or room is free for it without eviction. -/
def State.waveStands (s : State) (k : Nat) (w : Wave) : Bool :=
  w.status == .evicted && (s.crew w.crew).space.isNone && s.running (s.ctxOf w) && w.save != 0 &&
    (s.wakeable k w || (List.range 8).any fun i => s.waveFits w (8 * (w.core / 8) + i))

/-- R401: a wave keeps new crews of equal or lower priority off its cluster. -/
def State.keptFor (s : State) (l : Launch) (clus : Nat) : Bool :=
  s.waves.any fun x => x.2.core / 8 == clus && s.waveStands x.1 x.2 && l.rank ≤ (s.launchOf x.2).rank &&
    s.waves.any fun y => y.2.crew == x.2.crew && y.2.holds

/-- R370: room for the crew of a launch. -/
def State.fits (s : State) (l : Launch) (p : Place) : Bool :=
  s.usable l p.clus && !s.keptFor l p.clus && p.cores.length == l.wavesN && p.cores.all (· < 8) &&
    (p.occupied.all fun k =>
      let core := 8 * p.clus + k
      let n := p.cores.count k
      s.coreUp core && n ≤ (s.freeSlots core).length && n * l.granN ≤ s.freeGrans core && (l.seqPc == 0 || s.seqFree core)) &&
    p.unit + l.units ≤ 64 && (List.range l.units).all fun u => !s.unitTaken p.clus (p.unit + u)

/-- R370: the array that receives the bases overlaps what it must not. (DESIGN CHOICE, log 42.) -/
def Launch.cbaseBad (l : Launch) (q : Queue) : Bool :=
  let a := l.pk 0x60 8
  let n := 4 * l.crewsN
  (l.wset.any fun r => meets a n r.1 r.2) || meets a n q.ring (128 * q.size) || meets a n (l.pk 0x38 8) 1

/-- R370: the base of a crew's run goes to CBASE. (DESIGN CHOICE, log 42.) -/
def State.writeBase (s : State) (key : Nat) (p : Place) (k : State → Host.Outcome State Fault Refusal) :
    Host.Outcome State Fault Refusal :=
  let l := s.launch key
  let a := l.pk 0x60 8 + 4 * l.placed
  if l.pk 0x60 8 = 0 then k s
  else
    match s.dispAccess l.die l.ctx a .write with
    | (_, .absent) => .fault .noMemory
    | (s1, .wait) => .next s1
    | (s1, .bad c) => .next (s1.parkLaunch key c 0 a a)
    | (s1, .ok pa) =>
      let free := l.cbaseBad (s1.queue l.ctx l.q)
      let b := if free then (List.range 4).map fun i => Config.cbaseByte (4 * s1.draw + i) else leBytes 4 (65536 * p.unit)
      k ((if free then s1.drawn else s1).putBytes pa b |>.noteWrite (some key) pa 4)

/-- R393: the budget that a launch gives. -/
def Launch.budget (l : Launch) : W64 :=
  let b := l.pk 0x48 8
  if b = 0 then 0xFFFFFFFFFFFFFFFF else BitVec.ofNat 64 b

/-- R56, R436: s0 to s3 of a new wave. -/
def Launch.scalars (l : Launch) : Cells 64 :=
  match l.task with
  | some h => (Cells.write [] 0 h).update 1 3 fun i => l.args.getD (i - 1) 0
  | none => Cells.write [] 0 (BitVec.ofNat 64 (l.pk 0x38 8))

/-- R56, R382: one new wave of a crew. -/
def State.newWave (s : State) (ck : Nat) (l : Launch) (core wid : Nat) : Option State :=
  match s.allocPark l.ctx (saveSize l.granN) 512 with
  | none => none
  | some (s1, a) =>
    let w : Wave := { core, slot := (s1.freeSlots core).headD 0, crew := ck, wid, status := .resident, gran := l.granN, save := a, s := l.scalars,
                      budget := l.budget,
                      fa := some { id := s1.draw, pc := BitVec.ofNat 56 l.entry, owned := BitVec.allOnes 96, mask := BitVec.allOnes 96 } }
    some (s1.drawn.putWave s1.waves.nextKey w)

/-- R277: one new instance. -/
def State.newInst (s : State) (ck : Nat) (l : Launch) (core : Nat) : Option State :=
  match s.allocPark l.ctx 0x22000 4096 with
  | none => none
  | some (s1, a) =>
    let i : Inst := { core, crew := ck, pc := BitVec.ofNat 56 l.seqPc, mode := BitVec.ofNat 64 (l.pk 0x58 8), budget := l.budget, save := a
                      opening := { pc := BitVec.ofNat 56 l.seqPc, mode := BitVec.ofNat 64 (l.pk 0x58 8) } }
    some (s1.putInst s1.seqs.nextKey i)

/-- Several things made one after another, all or none. -/
def allOf (f : State → Nat → Option State) : State → List Nat → Option State
  | s, [] => some s
  | s, x :: xs => match f s x with
    | some s1 => allOf f s1 xs
    | none => none

/-- R370, R424: the waves and instances of a new crew, none if their save areas do not fit. -/
def State.populate (s : State) (ck : Nat) (l : Launch) (p : Place) : Option State :=
  match allOf (fun s wid => s.newWave ck l (8 * p.clus + p.cores.getD wid 0) wid) s (List.range p.cores.length) with
  | none => none
  | some s1 => if l.seqPc = 0 then some s1 else allOf (fun s k => s.newInst ck l (8 * p.clus + k)) s1 p.occupied

/-- R232, R370: what the dispatcher has read and written happens before every access of a new crew, so no core of it serves an older line. -/
def State.freshCores (s : State) (p : Place) : State :=
  s.setMem (p.occupied.foldl (fun m k => m.dropL1 (8 * p.clus + k)) s.mem)

/-- R428: the record that a fault task serves is being handled. -/
def State.startTask (s : State) (key : Nat) : State :=
  match s.records.find? fun x => x.2.task == some key with
  | some (k, r) =>
    if r.st = .parked then { (s.setRecState k 1) with records := s.records.put k { r with st := .handling } } else s
  | none => s

/-- R370: a crew of a running launch is placed, once its base has been written, or nothing changes. -/
def State.placeCrew (s0 : State) (key : Nat) (p : Place) : Host.Outcome State Fault Refusal :=
  let s := s0.tidyCluster p.clus
  let l := s.launch key
  if l.st ≠ .running ∨ l.parked ∨ l.crewsN ≤ l.placed ∨ !s.running l.ctx ∨ !s.fits l p then .next s0
  else
    let ck := s.crews.nextKey
    let groups : Table Group := (l.groups.zipIdx.filter fun (x : BitVec 64 × Nat) => x.1 != 0).map fun (x : BitVec 64 × Nat) =>
      (x.2, Group.start x.1)
    let c : Crew := { launch := key, idx := l.placed, clus := p.clus, unit := p.unit, nunits := l.units, groups }
    let make (s : State) : Option State :=
      let s1 := (List.range l.units).foldl (fun s u => s.reclaim p.clus (p.unit + u)) s
      { s1 with crews := s1.crews.put ck c }.populate ck l p
    if (make s).isNone then .next s0
    else s.writeBase key p fun s1 => match make s1 with
      | none => .next s1
      | some s2 => .next (((s2.freshCores p).setLaunch key fun l => { l with placed := l.placed + 1 }).startTask key)

/-- LAUNCH_DISPATCH (R368, R369). -/
def execLaunchDispatch (key : Nat) (s : State) : Host.Outcome State Fault Refusal :=
  match s.launches.get? key with
  | some l =>
    if (l.st = .ready ∨ l.st = .dispatching) ∧ !l.parked ∧ s.running l.ctx then s.tryDispatch key else .next s
  | none => .next s

/-- CREW_PLACEMENT (R370). -/
def execCrewPlacement (l clus unit : Nat) (cores : List Nat) (s : State) : Host.Outcome State Fault Refusal :=
  s.placeCrew l ⟨clus, unit, cores⟩

/-- R78, R80: FMT, GRAN and FRAG of the header are values under which the sealed block stands in its place. (DESIGN CHOICE, log 5.) (DEDUCED, log 41.) -/
def State.headOk (s : State) (w : Wave) : Bool :=
  s.getNat w.save 1 == 1 && s.getNat (w.save + 1) 1 == w.gran && s.getNat (w.save + 3) 1 ≤ 1

/-- R80: the sealed block and the divergence stack are as they were written, and the wait of the header is one of R388. (DESIGN CHOICE, log 5; DEDUCED, log 41.) -/
def State.sealOk (s : State) (k : Nat) (w : Wave) : Bool :=
  let lo := w.save + 0x400 + 384 * w.n
  ((List.range 512).all fun i => s.mem.byteAt (lo + i) == Config.hiddenByte w.sealTag i) &&
    (w.stack.zipIdx.all fun (x : (Fragment × Nat) × Nat) => (List.range 32).all fun i =>
      s.mem.byteAt (w.stackAt (w.stack.length - 1 - x.2) + i) == Config.hiddenByte x.1.2 i) &&
    !s.spoilt.contains k && s.headOk w && (s.savedWait w).isSome && !(linesOf w.save (saveSize w.gran)).any fun l => s.poisoned l

/-- R80, R388: a restore that finds the sealed block changed adjourns the wave with SEAL; a malformed PC lands nowhere. -/
def State.sealFault (s : State) (k : Nat) (w : Wave) (c : W64) : State :=
  let pc := s.get64 (w.save + 8)
  let s1 := s.putBytes (w.save + 2) [4]
  { s1.putWave k { w with status := .adjourned, ready := false } with
    detached := s1.detached ++ [{ work := .wave k, ctx := s.ctxOf w, die := w.core / 512, report := {
      causes := c, pc := pc, faddr := if c = cSEAL then 0 else pc
      amask := (s.savedFrag w).mask } }] }

/-- R241, R382, R400: a saved wave is loaded on a core; the restore is an acquire at .crw. -/
def State.restoreWave (s : State) (k : Nat) (w : Wave) (core slot : Nat) : State :=
  if !s.sealOk k w then s.sealFault k w cSEAL
  else if !pcForm (s.get64 (w.save + 8)) then s.sealFault k w cBADTARGET
  else
    let w1 := { s.loadWave w with core, slot }
    w1.ids.foldl (fun s id => s.acquire core id w.crew .crw) (s.putWave k w1)

/-- R382: the loading of a wave is done. -/
def State.loaded (s : State) (k : Nat) : State :=
  { s with waves := s.waves.modify k fun w => if w.status = .resident then { w with status := .live } else w }

/-- WAVE_RESTORE (R400): on a core of the cluster with room; a wave that still waits needs no eviction for it either. -/
def execWaveRestore (k core slot : Nat) (s : State) : Host.Outcome State Fault Refusal :=
  match s.waves.get? k with
  | some w =>
    if (w.status = .evicted ∨ (w.status = .adjourned ∧ w.ready)) ∧ (s.crew w.crew).space = none ∧ s.running (s.ctxOf w) ∧
        s.waveFits w core ∧ (s.freeSlots core).contains slot
    then .next (s.restoreWave k w core slot)
    else .next s
  | none => .next s

/-- R383, R389: the wave may be saved now. (DEDUCED, log 40.) -/
def State.evictable (s : State) (k : Nat) (w : Wave) : Bool :=
  w.status == .live && !w.mustWait s k && [w.fa, w.fb].all fun f => match f with
    | some f => f.fetch != .runoff && f.fetch != .wrap
    | none => true

/-- R389, R399: a wave is evicted; a wait that is not recorded is entered again on restore. -/
def State.evictWave (s : State) (k : Nat) : State :=
  match s.waves.get? k with
  | some w =>
    (s.putWave k w.calmed).saveWave k w.fa.isNone .evicted
  | none => s

/-- R79: an instance that may park now. -/
def Inst.parkable (i : Inst) : Bool := i.status == .live && i.ops == [] && i.fetch != .runoff && i.fetch != .wrap

/-- R79, R399: an instance parks. -/
def State.parkInst (s : State) (k : Nat) : State :=
  match s.seqs.get? k with
  | some i => (s.putInst k { i with wait := .none, fetch := .none }).saveInst k .evicted
  | none => s

/-- R79: the state of a saved instance as its save area gives it; the launch fixes its mode (R277). -/
def State.loadInst (s : State) (i : Inst) : Inst :=
  let a := i.save
  let w32 (o : Nat) : W32 := BitVec.ofNat 32 (s.getNat (a + o) 4)
  { i with
    status := .live, fetch := .none, wait := .none, ready := false
    pc := BitVec.ofNat 56 (s.getNat (a + 8) 7)
    depth := s.getNat (a + 1) 1 % 4
    flags := (s.get64 (a + 0x18)).setWidth 7
    ctr := (List.range 3).map fun l => w32 (0x20 + 4 * l)
    start := (List.range 3).map fun l => BitVec.ofNat 56 (s.getNat (a + 0x30 + 8 * l) 7)
    chunk := w32 0x48
    rowmask := s.get64 (a + 0x50)
    base := Cells.update [] 0 16 fun n => BitVec.ofNat 48 (s.getNat (a + 0x100 + 32 * n) 6)
    stride := Cells.update [] 0 48 fun x => w32 (0x100 + 32 * (x / 3) + 8 + 4 * (x % 3))
    carry := Cells.update [] 0 1024 fun x => if x % 2 = 0 then w32 (0x300 + 4 * x) ^^^ 0x3F800000 else w32 (0x300 + 4 * x)
    acc := Cells.update [] 0 32768 fun x => w32 (0x2000 + 4 * x) }

/-- R400: a parked or disposed instance is restored on its core. -/
def State.restoreInst (s : State) (k : Nat) (i : Inst) : State :=
  if !pcForm (s.get64 (i.save + 8)) then
    { s with
      seqs := s.seqs.put k { i with status := .adjourned, ready := false }
      detached := s.detached ++ [{ work := .inst k, ctx := (s.launch (s.crew i.crew).launch).ctx, die := i.core / 512, report := {
        causes := cBADTARGET, pc := s.get64 (i.save + 8), faddr := s.get64 (i.save + 8)
        body := leBytes 8 i.budget.toNat ++ leBytes 4 i.ttask.toNat } }] }
  else s.putInst k (s.loadInst i)

/-- R377, R400: the core on which an instance goes on: its own, or, where that has left service, the lowest one of the cluster whose sequencer
is free. (DEDUCED, log 40.) -/
def State.instCore (s : State) (i : Inst) : Option Nat :=
  if s.coreUp i.core then some i.core
  else ((List.range 8).map (8 * (i.core / 8) + ·)).find? fun c => s.coreUp c && s.seqFree c

/-- R400: an instance that the dispatcher may restore. -/
def State.instCandidate (s : State) (i : Inst) : Bool :=
  (i.status == .evicted || (i.status == .adjourned && i.ready)) && (s.crew i.crew).space.isNone &&
    s.running (s.launch (s.crew i.crew).launch).ctx && (s.instCore i).isSome

/-- The instance on the core where it goes on. -/
def State.restoreOn (s : State) (k : Nat) (i : Inst) : State := s.restoreInst k { i with core := (s.instCore i).getD i.core }

/-- SEQUENCER_RESTORE (R400). -/
def execSequencerRestore (k : Nat) (s : State) : Host.Outcome State Fault Refusal :=
  match s.seqs.get? k with
  | some i => if s.instCandidate i ∧ s.seqFree ((s.instCore i).getD i.core) then .next (s.restoreOn k i) else .next s
  | none => .next s

/-- R340: the cores that a crew occupies whose stores its context owns. -/
def State.ownedCores (s : State) (ck : Nat) (c : Crew) : List Nat :=
  ((List.range 8).map (8 * c.clus + ·)).filter fun core =>
    s.crewOn ck core && (s.stores.owner.read core).toNat == (s.launch c.launch).ctx + 1

/-- R340: the crew's copies have completed or parked, its waves and instances can be saved, and nothing of the link places into its
run. -/
def State.settled (s : State) (ck : Nat) : Bool :=
  (s.copies.all fun x => x.2.crew != ck || (List.range x.2.segs.length).all fun i => x.2.done.contains i || x.2.parked.contains i) &&
    (s.waves.all fun x => x.2.crew != ck || !x.2.holds || s.evictable x.1 x.2) &&
    (s.seqs.all fun x => x.2.crew != ck || x.2.status != .live || x.2.parkable) &&
    !s.link.qps.any fun x => (x.2.sends ++ x.2.recvs).any fun o => o.uses ck

/-- R265: every Dirty word is written back; one whose write-back fails stays Dirty. -/
def State.flushCrew (ck core : Nat) : State → List Nat → Except Fault (Option State)
  | s, [] => .ok (some s)
  | s, key :: keys =>
    match State.wbCheck core ck s [key] with
    | (s1, .ok ps) => State.flushCrew ck core (State.wbWrite ck s1 ps) keys
    | (s1, .error (.bad _ _)) => State.flushCrew ck core s1 keys
    | (_, .error .wait) => .ok none
    | (_, .error .absent) => .error .noMemory

/-- R340: bytes of a crew space. -/
def Crew.spaceLen (c : Crew) (cores : Nat) : Nat := alignUp (c.runLen + 0x80000 + 0x43000 * cores) 65536

/-- R265: the bits of the words of windows as bytes, four words to a byte. -/
def wordImage (ws : Cells 2) : Cells 8 :=
  ws.foldl (fun (c : Cells 8) (x : Nat × BitVec 2) =>
    c.write (x.1 / 4) (c.read (x.1 / 4) ||| ((x.2.setWidth 8 : BitVec 8) <<< (2 * (x.1 % 4))))) []

/-- R265: the words that such bytes name as Dirty: the others are Invalid. -/
def dirtyImage (c : Cells 8) : Cells 2 :=
  c.foldl (fun (ws : Cells 2) (x : Nat × Byte) =>
    (List.range 4).foldl (fun (ws : Cells 2) i => if x.2.extractLsb' (2 * i) 2 = 3 then ws.write (4 * x.1 + i) 3 else ws) ws) []

/-- R340: offset in a crew space of what it holds of its n-th core. -/
def Crew.coreAt (c : Crew) (n : Nat) : Nat := c.runLen + 0x80000 + 0x43000 * n

/-- R340: what a crew space receives: the run, the bits of the windows' words, and of each core the W-store, the banks and the number of the
current one. The layout is the model's own. (DESIGN CHOICE, log 5.) -/
def State.crewImage (s : State) (c : Crew) (cores : List Nat) : Cells 8 :=
  let t := s.stores
  let at_ (o : Nat) (m : Cells 8) (x : Cells 8) : Cells 8 := x.foldl (fun (m : Cells 8) (y : Nat × Byte) => m.write (o + y.1) y.2) m
  let m0 : Cells 8 := at_ c.runLen (t.astore.slice (2 ^ 22 * c.clus + c.base) c.runLen) (wordImage c.words)
  cores.zipIdx.foldl (fun (m : Cells 8) (x : Nat × Nat) => Cells.write ((at_ (c.coreAt x.2 + 0x40000) (at_ (c.coreAt x.2) m (t.wstore.slice (2 ^ 18 * x.1) (2 ^ 18)))
    (t.act.slice (2 ^ 13 * x.1) (2 ^ 13)))) (c.coreAt x.2 + 0x42000) ((t.bank.read x.1).setWidth 8)) m0

/-- R340: the crew space receives its image, and the crew is without its units. -/
def State.saveCrew (s0 : State) (ck a : Nat) (c : Crew) (cores waves seqs : List Nat) : State :=
  let s := s0.putImage a (c.spaceLen cores.length) (s0.crewImage (s0.crew ck) cores)
  let mine (b : Nat × Nat) : Bool :=
    (b.1 == 0 && meets (4 * (b.2 % 2 ^ 20)) 4 c.base c.runLen && b.2 / 2 ^ 20 == c.clus) ||
      (b.1 == 1 && cores.contains (b.2 / 2 ^ 15)) || (b.1 == 2 && cores.contains (b.2 / 2 ^ 10))
  let c1 : Crew := { s.crew ck with
    space := some a, words := (s.crew ck).words.filter fun x => x.2 == 3, phys := [], fills := []
    imgCores := cores, imgBad := s.stores.bad.filter mine, imgWaves := waves, imgSeqs := seqs }
  { s with crews := s.crews.put ck c1 }.tidyCluster c.clus

/-- R340: a crew is evicted whole, or nothing changes yet; `.error` if an access meets no memory. -/
def State.evictCrew (s : State) (ck : Nat) : Except Fault State :=
  match s.crews.get? ck with
  | none => .ok s
  | some c =>
    if c.space.isSome ∨ !s.settled ck then .ok s
    else
      match State.flushCrew ck (8 * c.clus) s (c.dirty c.openWins) with
      | .error x => .error x
      | .ok none => .ok s
      | .ok (some s1) =>
        let cores := s1.ownedCores ck c
        match s1.allocPark (s1.launch c.launch).ctx (c.spaceLen cores.length) 65536 with
        | none => .ok s
        | some (s2, a) =>
          let ws := (s2.waves.filter fun x => x.2.crew == ck && x.2.status == .live).map (·.1)
          let is := (s2.seqs.filter fun x => x.2.crew == ck && x.2.status == .live).map (·.1)
          let s3 := is.foldl (fun s k => s.parkInst k) (ws.foldl (fun s k => s.evictWave k) s2)
          .ok (s3.saveCrew ck a c cores ws is)

/-- R257, R340: the crew can return to its place. -/
def State.crewFits (s : State) (c : Crew) : Bool :=
  let ws := c.imgWaves.filterMap fun k => s.waves.get? k
  ((List.range c.nunits).all fun u => !s.unitTaken c.clus (c.unit + u)) &&
    (c.imgCores.all fun core => s.stores.owner.read core == 0) &&
    ((List.range 8).all fun i =>
      let core := 8 * c.clus + i
      let mine := ws.filter fun w => w.core == core
      mine == [] || (mine.length ≤ (s.freeSlots core).length && (mine.map (·.gran)).sum ≤ s.freeGrans core)) &&
    c.imgSeqs.all fun k => match s.seqs.get? k with
      | some i => s.seqFree i.core
      | none => true

/-- R340: the stores of a crew come back from its crew space, as its bytes are now. -/
def State.loadCrew (s : State) (ck a : Nat) (c : Crew) : State :=
  let (s0, m) := s.getImage a (c.spaceLen c.imgCores.length)
  let t := s0.stores
  let own : BitVec 8 := BitVec.ofNat 8 ((s.launch c.launch).ctx + 1)
  let cores := c.imgCores.zipIdx
  let s1 := { s0 with
    stores := { t with
      astore := t.astore.splice (2 ^ 22 * c.clus + c.base) c.runLen m
      wstore := cores.foldl (fun t x => t.splice (2 ^ 18 * x.1) (2 ^ 18) (m.slice (c.coreAt x.2) (2 ^ 18))) t.wstore
      act := cores.foldl (fun t x => t.splice (2 ^ 13 * x.1) (2 ^ 13) (m.slice (c.coreAt x.2 + 0x40000) (2 ^ 13))) t.act
      bank := cores.foldl (fun t x => t.write x.1 ((m.read (c.coreAt x.2 + 0x42000)).setWidth 1)) t.bank
      owner := c.imgCores.foldl (fun m x => m.write x own) t.owner
      bad := t.bad ++ c.imgBad }
    crews := s0.crews.put ck { c with space := none, words := dirtyImage (m.slice c.runLen 0x80000), imgCores := [], imgBad := []
                                      imgWaves := [], imgSeqs := [] } }
  (List.range 8).foldl (fun s i => s.acquire (8 * c.clus + i) 0 ck .crw) s1

/-- R340: a whole crew returns: its units and stores, then its waves and instances on their own cores. -/
def State.restoreCrew (s : State) (ck : Nat) (c : Crew) : State :=
  let s1 := (List.range c.nunits).foldl (fun s u => s.reclaim c.clus (c.unit + u)) s
  let s2 := match c.space with
    | some a => (s1.loadCrew ck a c).freePark (s.launch c.launch).ctx a
    | none => s1
  let s3 := c.imgWaves.foldl (fun s k => match s.waves.get? k with
    | some w => if w.status = .evicted then s.restoreWave k w w.core ((s.freeSlots w.core).headD 0) else s
    | none => s) s2
  c.imgSeqs.foldl (fun s k => match s.seqs.get? k with
    | some i => if i.status = .evicted then s.restoreOn k i else s
    | none => s) s3

/-- CREW_RESTORE (R338, R340). -/
def execCrewRestore (ck : Nat) (s0 : State) : Host.Outcome State Fault Refusal :=
  match s0.crews.get? ck with
  | some c =>
    let s := s0.tidyCluster c.clus
    if c.space.isSome ∧ s.running (s.launch c.launch).ctx ∧ s.crewFits c then .next (s.restoreCrew ck c) else .next s0
  | none => .next s0

end Sys2Proof.Machine
end

