-- ==== Sys2Proof/Machine/Disposal.lean ====
section
/-!
DEFINITION. The instructions on adjournment records and the dispositions (R431 to R435, R441 to R447), the dispositions of remote
handlers (R438, R439), and the end of a context (R338).
-/
namespace Sys2Proof.Machine

/-- R446: the four dispositions. -/
inductive Disp where
  | resume | retry
  | redirect (t : W64)
  | kill
  deriving DecidableEq, Repr

/-- R438: DISP. -/
def Disp.code : Disp → Nat
  | .resume => 1
  | .retry => 2
  | .redirect _ => 3
  | .kill => 4

def Disp.target : Disp → W64
  | .redirect t => t
  | _ => 0

/-- R438: the disposition that a message names. -/
def dispOf (code : Nat) (t : W64) : Option Disp :=
  match code with
  | 1 => some .resume
  | 2 => some .retry
  | 3 => some (.redirect t)
  | 4 => some .kill
  | _ => none

/-- R427: the record that a handle names, if the handle is current. (DEDUCED, log 44.) -/
def State.pkCurrent (s : State) (hdl : W64) : Option (Nat × Record) :=
  let key := recKey (bits hdl 0 6) (bits hdl 6 12)
  match s.records.get? key with
  | some r => if s.recGen key = hdl.extractLsb' 32 32 then some (key, r) else none
  | none => none

/-- R442, checks 1 and 2. -/
def Here.pkNamed (h : Here) (s : State) (hdl : W64) : Bool :=
  bits hdl 21 11 == 0 && (s.ctxOf h.w == 0 || s.ctxOf h.w == bits hdl 0 6) && bits hdl 6 12 < (s.ctx (bits hdl 0 6)).ns

/-- R431, R439, R440: bytes of a record's save-area window, and where it stands. -/
def State.pkWindow (s : State) (r : Record) : Nat × Nat :=
  if r.remote || r.nest then (0, 0)
  else
    match r.work with
    | .wave k => match s.waves.get? k with
      | some w => (0x400 + 384 * w.n, w.save)
      | none => (0, 0)
    | .inst k => match s.seqs.get? k with
      | some i => (0x22000, i.save)
      | none => (0, 0)
    | _ => (0, 0)

/-- R431: physical address of an offset of a record's space, if it lies there. -/
def State.pkAddr (s : State) (key : Nat) (r : Record) (o : Nat) : Option Nat :=
  let (n, a) := s.pkWindow r
  if o ≤ 0x3F8 then some (s.recPa key + o)
  else if 0x1000 ≤ o ∧ o - 0x1000 + 8 ≤ n then some (a + (o - 0x1000))
  else none

/-- R432: offset of a wave's save area that may be patched with the value. -/
def waveField (o : Nat) (v : W64) : Bool :=
  if o < 0x100 then (o == 0x08 && pcForm v) || (o == 0x28 && modeOk v) || (o == 0x30 && bits v 7 57 == 0) || o == 0x38
  else if 0x300 ≤ o ∧ o < 0x400 then o % 16 != 8 || bits v 32 32 == 0
  else true

/-- R433: offset of a sequencer's save area that may be patched. -/
def instField (o : Nat) : Bool := o != 0 && o != 0x10 && !(0x30 ≤ o && o < 0x48)

/-- R433 to R435: offset of a record that may be patched with the value. -/
def State.recordField (s : State) (key : Nat) (r : Record) (o : Nat) (v : W64) : Bool :=
  match r.kind with
  | 2 => o == 0x80
  | 3 => (o == 0x80 || o == 0x88) && v.toNat % 1024 + s.getNat (s.recPa key + 0x90) 4 ≤ 1024
  | 4 => o == 0x88
  | 5 => 0x88 ≤ o && o ≤ 0xF8
  | _ => false

/-- R444: the offset is patchable for the kind, and the value passes its check. (DEDUCED, log 44.) -/
def State.patchable (s : State) (key : Nat) (r : Record) (o : Nat) (v : W64) : Bool :=
  if o ≤ 0x3F8 then s.recordField key r o v
  else match r.work with
    | .wave _ => waveField (o - 0x1000) v
    | .inst _ => instField (o - 0x1000)
    | _ => false

/-- The frame of the seven forms: the handle is checked (R442), whatever the mask. (DEDUCED, log 44.) -/
def onRecord (a : BitVec 6) (sr : List Nat) (s : State) (k : Here → Option (Nat × Record) → Except Abort State) :
    Host.Outcome State Fault Refusal :=
  onWave Guard.none { sr := a.toNat :: sr } s fun h =>
    if !h.pkNamed s (h.s a) then .error (.trap (h.report cPROT) s) else k h (s.pkCurrent (h.s a))

/-- R442, checks 3 and 4: the offset, and the address it reaches in a current record. -/
def Here.pkAt (h : Here) (s : State) (o : W64) (cur : Option (Nat × Record)) : Except Abort (Option (Nat × Record × Nat)) :=
  if o.toNat % 8 ≠ 0 then .error (.trap (h.lanesReport cMISAL h.f.mask fun _ => o) s)
  else
    match cur with
    | none => .ok none
    | some (key, r) =>
      match s.pkAddr key r o.toNat with
      | some pa => .ok (some (key, r, pa))
      | none => .error (.trap { h.report cPROT with faddr := o } s)

/-- R441: the offset operand. -/
def Here.pkOff (h : Here) (b : BitVec 6) (imm : W32) : W64 := h.s b + imm.signExtend 64

/-- PKRD (R443). -/
def execPkrd (d a b : BitVec 6) (imm : W32) (s : State) : Host.Outcome State Fault Refusal :=
  onRecord a [b.toNat] s fun h cur => do
    let o := h.pkOff b imm
    let x ← h.pkAt s o cur
    let v := match x with
      | some (_, _, pa) => s.get64 pa
      | none => if o = 0 then (h.s a).extractLsb' 32 32 ++ 0x200#32 else 0
    h.ok s fun w => w.writeS h.side d.toNat v

/-- The form ends with a status. -/
def Here.status (h : Here) (s : State) (d : BitVec 6) (n : Nat) : State :=
  h.done (h.marked s) fun w => w.writeS h.side d.toNat (BitVec.ofNat 64 n)

/-- R76: pkwr writes 8 bytes of a saved wave: a code word that has been written whole can be read again. -/
def Wave.mended (w : Wave) (o : Nat) : Wave :=
  let cs := [waveCode w.n o, waveCode w.n (o + 4)]
  let mend := ((waveCode w.n o, o % 128 / 8) :: w.mend).dedup
  { w with mend, bad := w.bad.filter fun c => !(cs.contains c && (1000 ≤ c || decide (16 ≤ (mend.filter fun x => x.1 == c).length))) }

/-- R76: the same for the work behind a record, through its window. (DEDUCED, log 44.) -/
def State.mended (s : State) (o : Nat) : Work → State
  | .wave k => { s with waves := s.waves.modify k fun w => w.mended o }
  | .inst k => { s with seqs := s.seqs.modify k fun i => { i with bad := i.bad.filter fun c => instCode o != some c } }
  | _ => s

/-- PKWR (R444). -/
def execPkwr (d a b c : BitVec 6) (imm : W32) (s : State) : Host.Outcome State Fault Refusal :=
  onRecord a [b.toNat, c.toNat] s fun h cur => do
    let o := h.pkOff b imm
    match ← h.pkAt s o cur with
    | none => .ok (h.status s d 1)
    | some (key, r, pa) =>
      if !s.patchable key r o.toNat (h.s c) then .ok (h.status s d 2)
      else
        let s1 := s.put64 pa (h.s c)
        .ok (h.status (if 0x1000 ≤ o.toNat then s1.mended (o.toNat - 0x1000) r.work else s1) d 0)

/-- R429: CAUSE. -/
def State.recCause (s : State) (key : Nat) : W64 := s.get64 (s.recPa key + 8)

/-- PKCLR (R445). -/
def execPkclr (d a b : BitVec 6) (s : State) : Host.Outcome State Fault Refusal :=
  onRecord a [b.toNat] s fun h cur =>
    match cur with
    | none => .ok (h.status s d 1)
    | some (key, _) =>
      if (h.s b).getLsbD 26 && (s.recCause key).getLsbD 26 then .ok (h.status s d 4)
      else .ok (h.status (s.put64 (s.recPa key + 8) (s.recCause key &&& ~~~(h.s b &&& 0x7FFFFFF#64))) d 0)

/-- R374: the record is of a marker, or of a step of a queue: no launch that a redirect could start. -/
def State.noLaunch (s : State) (key : Nat) : Bool :=
  s.getNat (s.recPa key + 0x100) 1 % 16 == 0xD || s.getNat (s.recPa key + 0x80) 1 == 2

/-- R352, R454: nothing of the work is left: a malformed packet, or a send whose attempts ran out. -/
def State.workless (s : State) (key : Nat) (r : Record) : Bool :=
  let pa := s.recPa key
  match r.kind with
  | 4 => match r.work with
    | .link qk send n => ((s.qp qk).op send n).isNone
    | .held _ => false
    | _ => s.getNat (pa + 0x82) 1 != 3 && s.getNat (pa + 0xA8) 1 == 3
  | 5 => s.getNat (pa + 0x100) 1 % 16 == 0xC
  | _ => false

/-- R446: the table refuses the disposition. (DEDUCED, log 44.) -/
def State.pkRefuses (s : State) (key : Nat) (r : Record) (d : Disp) : Bool :=
  match d with
  | .kill => false
  | .redirect _ => 6 == r.kind || (s.recCause key).getLsbD 26 || r.nest || s.workless key r || r.kind == 3 || r.kind == 4 ||
      (r.kind == 5 && s.noLaunch key)
  | _ => 6 == r.kind || (s.recCause key).getLsbD 26 || r.nest || s.workless key r

/-- R446: the status of a disposition of a current record. -/
def State.pkStatus (s : State) (key : Nat) (r : Record) (d : Disp) : Nat :=
  if s.pkRefuses key r d then 4
  else
    match d with
    | .resume => if s.recCause key = 0 then 0 else 3
    | .redirect t => if pcForm t then 0 else 5
    | _ => 0

/-- R377: what a retry of a record with REGECC or IFETCH watches. -/
def State.watchOf (s : State) (key core : Nat) (d : Disp) : Option (W64 × Pc × Nat) :=
  let c := s.recCause key &&& (cREGECC ||| cIFETCH)
  if d = .retry ∧ c ≠ 0 then some (c, (s.get64 (s.recPa key + 0x28)).setWidth 56, core) else none

/-- R446: a wave restarts: it becomes a candidate (R396). (DEDUCED, log 26.) -/
def State.restartWave (s : State) (key k : Nat) (d : Disp) : State :=
  match s.waves.get? k with
  | none => s
  | some w =>
    let id := ((w.frag w.clear).map (·.id)).getD 0
    let w0 := match s.watchOf key w.core d with
      | some x => { w with watch := some x, watchId := id }
      | none => if w.watchId = id then { w with watch := none } else w
    let w1 := { w0 with ready := true, retry := d == .retry }
    match d with
    | .redirect t =>
      ((s.put64 (w.save + 8) t).putBytes (w.save + 0x40) (List.replicate 16 0)).putWave k
        (w1.setFrag w.clear ((w.frag w.clear).map fun f => { f with landing := true, ended := none, enq := false }))
    | _ => s.putWave k w1

/-- R283, R433, R446: a tile task restarts. -/
def State.restartInst (s : State) (key k : Nat) (d : Disp) : State :=
  match s.seqs.get? k with
  | none => s
  | some i =>
    let i1 := { i with ready := true, retry := d == .retry, watch := s.watchOf key i.core d, landing := d.code == 3
                       budget := s.get64 (s.recPa key + 0x80) }
    match d with
    | .redirect t => (s.put64 (i.save + 8) t).putInst k i1
    | _ => s.putInst k i1

/-- R218, R434, R446: a segment runs again, with SRC and DST as its record holds them. -/
def State.restartSeg (s : State) (key c i : Nat) (d : Disp) : State :=
  let x := (s.getNat (s.recPa key + 0x80) 8, s.getNat (s.recPa key + 0x88) 8)
  { s with copies := s.copies.modify c fun (y : Copy) =>
      { y with
        patched := if x = y.place i then y.patched.erase i else y.patched.put i x
        parked := y.parked.filter (· != i)
        retry := if d = .retry then i :: y.retry else y.retry.filter (· != i) } }

/-- R446, R459: a link operation runs again: a send from its first packet, a receive from where it is. -/
def State.restartLink (s : State) (key qk : Nat) (send : Bool) (n : W32) (d : Disp) : Host.Outcome State Fault Refusal :=
  let a := s.getNat (s.recPa key + 0x88) 8
  let s1 := s.setQp qk fun q => q.setOp send n fun o =>
    { o with addr := a, patched := o.patched || a != o.addr, parked := false, retry := d == .retry, att := 0 }
  if send then s1.sendMessage qk n
  else
    match (s1.qp qk).op false n with
    | some o => match o.tlen with
      | some t => .next (if o.bytes = t.toNat then s1.recvDone qk o 1 t else s1)
      | none => .next s1
    | none => .next s1

/-- R460: a held mdrainx is sent again; while its queue pair takes no more sends it parks anew. (DEDUCED, log 45.) -/
def State.restartHeld (s : State) (k : Nat) (d : Disp) : Host.Outcome State Fault Refusal :=
  match s.link.held.get? k with
  | none => .next s
  | some (qk, o) =>
    let o1 := { o with parked := false, retry := d == .retry }
    let s1 := { s with link := { s.link with held := s.link.held.erase k } }
    match s1.startDrainx qk o1 with
    | some r => r
    | none => .next (s1.holdDrainx k qk o1)

/-- R374, R435: the packet with which the failed step is repeated. (DEDUCED, log 45.) -/
def State.packetFor (s : State) (key : Nat) (l : Launch) (d : Disp) : BitVec 1024 :=
  let kept := packetBytes l.packet
  let image := s.getBytes (s.recPa key + 0x80) 128
  let new := match d with
    | .resume => kept.take 8 ++ image.drop 8
    | .redirect t => kept.take 8 ++ leBytes 8 t.toNat ++ kept.drop 16
    | _ => kept
  -- a launch that holds its scope already keeps it
  BitVec.ofNat 1024 (leNat (if l.held then new.set 0x24 (kept.getD 0x24 0) else new))

/-- R347, R374: the failed step of a launch or of a marker is repeated; a group table that a patch names is read. (DEDUCED, log 45.) -/
def State.restartLaunch (s : State) (key l : Nat) (d : Disp) : State :=
  let s1 := s.setLaunch l fun x =>
    let p := s.packetFor key x d
    { x with packet := p, parked := false, groups := if bits p (8 * 0x30) 64 = x.pk 0x30 8 then x.groups else []
             prio := if x.marker then x.prio else bits p (8 * 0x1E) 8
             deadline := if x.marker then x.deadline else BitVec.ofNat 64 (bits p (8 * 0x50) 64) }
  if (s1.launch l).marker then s1.admitMarker l
  else if (s1.launch l).st = .accepted then s1.takeIn l
  else s1

/-- R446: the effect of an accepted disposition on the work of a record of this device. (DEDUCED, log 45.) -/
def State.disposeWork (s : State) (key : Nat) (w : Work) (d : Disp) : Host.Outcome State Fault Refusal :=
  if d = .kill then .next (s.killWork w)
  else
    match w with
    | .wave k => .next (s.restartWave key k d)
    | .inst k => .next (s.restartInst key k d)
    | .seg c i => .next (s.restartSeg key c i d)
    | .link qk send n => s.restartLink key qk send n d
    | .held k => s.restartHeld k d
    | .launch l => .next (s.restartLaunch key l d)
    | .queue ctx q => .next (s.setQueue ctx q fun Q => if Q.st = .error then { Q with st := .ready } else Q)
    | .packet _ _ | .event => .next s

/-- R439: the disposition message of a proxy; a queue pair that is not ready sends none. -/
def State.replyTo (s : State) (key : Nat) (r : Record) (d : Disp) : Host.Outcome State Fault Refusal :=
  match r.sent with
  | none => .next s
  | some qk =>
    let m := messageHead 2 d.code ⟨0, 0, 0, 0, 0, 0, 0, 0⟩ r.handle d.target ++ s.getBytes (s.recPa key) 1024
    match (s.closeRecord key).postMessage qk m with
    | some x => x
    | none => .next (s.closeRecord key)

/-- R428, R446: an accepted disposition: the record is disposed of, and its work goes on as the table says. -/
def State.dispose (s : State) (key : Nat) (r : Record) (d : Disp) : Host.Outcome State Fault Refusal :=
  if r.remote then s.replyTo key r d
  else if r.nest then .next (s.closeRecord key)
  else (s.closeRecord key).disposeWork key r.work d

/-- R446, R447: a disposition form: a release at .sys, the status, then the effect. (DEDUCED, log 45.) -/
def onDisposition (d a : BitVec 6) (sr : List Nat) (disp : Here → Disp) (s : State) : Host.Outcome State Fault Refusal :=
  match s.here with
  | none => .refused .noFragment
  | some h =>
    match h.settle s (h.check s h.f.mask { sr := a.toNat :: sr } >>= fun _ =>
        if !h.pkNamed s (h.s a) then .error (.trap (h.report cPROT) s) else h.release s .sys) with
    | .error x => h.finish (.error x)
    | .ok s1 =>
      match s1.pkCurrent (h.s a) with
      | none => .next (h.status s1 d 1)
      | some (key, r) =>
        let n := s1.pkStatus key r (disp h)
        if n = 0 then (h.status s1 d 0).dispose key r (disp h) else .next (h.status s1 d n)

/-- PKRES (R446). -/
def execPkres (d a : BitVec 6) (s : State) : Host.Outcome State Fault Refusal := onDisposition d a [] (fun _ => .resume) s
/-- PKRET (R446). -/
def execPkret (d a : BitVec 6) (s : State) : Host.Outcome State Fault Refusal := onDisposition d a [] (fun _ => .retry) s
/-- PKREDIR (R446). -/
def execPkredir (d a b : BitVec 6) (s : State) : Host.Outcome State Fault Refusal :=
  onDisposition d a [b.toNat] (fun h => .redirect (h.s b)) s
/-- PKKILL (R446). -/
def execPkkill (d a : BitVec 6) (s : State) : Host.Outcome State Fault Refusal := onDisposition d a [] (fun _ => .kill) s

/-- R439: the patchable fields of an image applied to the home record, each with its check, and its CAUSE. (DEDUCED, log 43.) -/
def State.applyImage (s : State) (key : Nat) (r : Record) (image : List Byte) : State :=
  let f (o : Nat) : W64 := BitVec.ofNat 64 (leNat ((image.drop o).take 8))
  let s1 := ((List.range 16).map (0x80 + 8 * ·)).foldl (fun (s : State) o =>
    if s.recordField key r o (f o) then s.put64 (s.recPa key + o) (f o) else s) s
  s1.put64 (s1.recPa key + 8) (f 8)

/-- R439, R446: a disposition message at its home; one whose handle is stale is dropped and counted. (DEDUCED, log 45.) -/
def State.remoteDisposition (s : State) (qk : Nat) (m : List Byte) : Host.Outcome State Fault Refusal :=
  let hdl : W64 := BitVec.ofNat 64 (leNat ((m.drop 8).take 8))
  match (s.pkCurrent hdl).filter fun x => x.2.sent == some qk && !x.2.remote with
  | none => .next (s.count 10)
  | some (key, r) =>
    match dispOf (leNat ((m.drop 1).take 1)) (BitVec.ofNat 64 (leNat ((m.drop 0x20).take 8))) with
    | none => .next s
    | some d =>
      let s1 := s.applyImage key r (m.drop 0x40)
      if s1.pkStatus key r d = 0 then s1.dispose key r d else .next s1

/-- DISPOSITION_MESSAGE (R439). -/
def execDispositionMessage (qk : Nat) (n : W32) (s : State) : Host.Outcome State Fault Refusal :=
  match s.takeMessage qk n with
  | none => .next s
  | some (_, s1, r) =>
    match r with
    | .error .absent => .fault .noMemory
    | .error (.bad _ _) => .next s1
    | .ok m => if m.take 1 = [2] then s1.remoteDisposition qk m else .next s

/-- R338, R349, R452: what a context leaves at its end: launches killed, records disposed of as kills, queue pairs flushed to reset,
queues disabled. (DEDUCED, log 39.) -/
def State.destroyCtx (s : State) (c : Nat) : State :=
  let ls : List Nat := (s.launches.filter fun x => x.2.ctx == c).map (·.1)
  let s1 := ls.foldl (fun s k => s.killLaunch k) s
  let rs : List Nat := (s1.records.filter fun x => x.2.ctx == c).map (·.1)
  let held : List Nat := (s1.records.filter fun x => x.2.ctx == c).filterMap fun x => match x.2.work with | .launch l => some l | _ => none
  let s2 := held.foldl (fun s l => s.killParked l) (rs.foldl (fun s k => s.closeRecord k) s1)
  let qs : List Nat := (s2.link.qps.filter fun x => x.2.st != .reset && x.2.ctx == c).map (·.1)
  let s3 := qs.foldl (fun s k => s.flush k .reset) s2
  { s3 with queues := s3.queues.filter fun x => x.1 / 64 != c }

/-- CONTEXT_DESTROY (R338). -/
def execContextDestroy (c : Nat) (s : State) : Host.Outcome State Fault Refusal :=
  let st := (s.ctx c).st
  if 1 ≤ c ∧ c < 64 ∧ st ≠ .free ∧ st ≠ .destroying then
    .next ((((s.takeCmd c).destroyCtx c)).setCtx c fun x => { x with st := .destroying })
  else .next (s.refuseCmd c)

end Sys2Proof.Machine
end

