-- ==== Sys2Proof/Machine/Geometry.lean ====
section
/-!
DEFINITION. Class 0xC: exact geometric predicates (R308 to R318).
-/
namespace Sys2Proof.Machine

/-- The expansion of a determinant along its last column, terms added from the top row down (R315); `d` stands for an entry
that is not there. -/
def detBy {α : Type} (add mul : α → α → α) (neg : α → α) (d : α) : Nat → List (List α) → α
  | 0, _ => d
  | n + 1, m =>
    if n = 0 then (m.getD 0 []).getD 0 d
    else
      let term (i : Nat) : α :=
        let c := detBy add mul neg d n (m.eraseIdx i)
        mul ((m.getD i []).getD n d) (if (i + n) % 2 = 0 then c else neg c)
      (List.range n).foldl (fun x i => add x (term (i + 1))) (term 0)

/-- A polynomial in ε: coefficients under rising exponents, none of them 0. -/
abbrev Poly := List (Nat × Int)

def Poly.insert (p : Poly) (e : Nat) (c : Int) : Poly :=
  match p with
  | [] => if c = 0 then [] else [(e, c)]
  | (f, d) :: rest =>
    if e = f then (if c + d = 0 then rest else (f, c + d) :: rest)
    else if e < f then (if c = 0 then (f, d) :: rest else (e, c) :: (f, d) :: rest)
    else (f, d) :: Poly.insert rest e c

def Poly.add (p q : Poly) : Poly := p.foldl (fun r t => r.insert t.1 t.2) q

def Poly.neg (p : Poly) : Poly := p.map fun t => (t.1, -t.2)

def Poly.mul (p q : Poly) : Poly :=
  p.foldl (fun r t => q.foldl (fun r u => r.insert (t.1 + u.1) (t.2 * u.2)) r) []

/-- The sign of a number. -/
def signInt (x : Int) : Int := if x = 0 then 0 else if x < 0 then -1 else 1

/-- The sign for small positive ε (R313). -/
def Poly.sign (p : Poly) : Int :=
  match p with
  | [] => 0
  | t :: _ => signInt t.2

/-- Points of a lane: coordinates as binary64 data. -/
abbrev Points := List (List FVal)

/-- The common exponent of some data, not above 0: every coordinate is an integer of this unit, and so is 1. -/
def commonExp (ps : Points) : Int := ps.flatten.foldl (fun q v => min q v.exact.e) 0

/-- Coordinates as integers in the common unit. -/
def intPoints (ps : Points) : List (List Int) := ps.map fun p => p.map fun v => v.exact.units (commonExp ps)

/-- R310: rows of differences, with the lifted entry where the predicate has one, over any ring. -/
def rowsBy {α : Type} (add mul : α → α → α) (neg : α → α) (d : α) (lift : Bool) (ps : List (List α)) : List (List α) :=
  let last := ps.getLast?.getD []
  ps.dropLast.map fun p =>
    let ds := (List.range p.length).map fun c => add (p.getD c d) (neg (last.getD c d))
    if lift then
      ds ++ [match ds with
        | [] => d
        | x :: xs => xs.foldl (fun s y => add s (mul y y)) (mul x x)]
    else ds

/-- The exact determinant in the common unit. -/
def detInt (lift : Bool) (ps : List (List Int)) : Int :=
  let m := rowsBy (· + ·) (· * ·) (- ·) 0 lift ps
  detBy (· + ·) (· * ·) (- ·) 0 m.length m

/-- R313: coordinate c of the point of rank k, perturbed; `one` is 1 in the common unit. -/
def perturb (one : Int) (m k c : Nat) (x : Int) : Poly := Poly.add (if x = 0 then [] else [(0, x)]) [(2 ^ (m * k + c), one)]

/-- R313: ranks of the points by index, then operand order. -/
def rankOf (idx : List Nat) (i : Nat) : Nat :=
  ((List.range idx.length).filter fun j =>
    idx.getD j 0 < idx.getD i 0 || (idx.getD j 0 == idx.getD i 0 && j < i)).length

/-- R313, step 3: the sign of the perturbed determinant; `ranks` gives the rank of each point. -/
def detPerturbed (lift : Bool) (one : Int) (ps : List (List Int)) (ranks : List Nat) : Int :=
  let q := ps.zipIdx.map fun (p : List Int × Nat) =>
    p.1.zipIdx.map fun (x : Int × Nat) => perturb one p.1.length (ranks.getD p.2 0) x.2 x.1
  let m := rowsBy Poly.add Poly.mul Poly.neg [] lift q
  (detBy Poly.add Poly.mul Poly.neg [] m.length m).sign

/-- R315: one operation of stage 0. -/
def fAdd (mode : Rnd) (a b : FVal) : FVal := (deliver .f64 { mode } false [a, b] (resAdd mode a b)).1

def fMul (mode : Rnd) (a b : FVal) : FVal := (deliver .f64 { mode } false [a, b] (resMul a b)).1

def FVal.mag : FVal → FVal
  | .nan _ f => .nan false f
  | .inf _ => .inf false
  | .fin _ m e => .fin false m e

def FVal.isFinite (v : FVal) : Bool := !v.isNaN && !v.isInf

/-- R315: D0 and P0. -/
def stage0 (lift : Bool) (ps : Points) : FVal × FVal :=
  let z : FVal := .fin false 0 0
  let m := rowsBy (fAdd .rne) (fMul .rne) FVal.negate z lift ps
  let diffs := (rowsBy (fAdd .rne) (fMul .rne) FVal.negate z false ps).map fun r => r.map FVal.mag
  let bounds := diffs.map fun r =>
    if lift then
      r ++ [match r with
        | [] => z
        | x :: xs => xs.foldl (fun s y => fAdd .rup s (fMul .rup y y)) (fMul .rup x x)]
    else r
  (detBy (fAdd .rne) (fMul .rne) FVal.negate z m.length m, detBy (fAdd .rup) (fMul .rup) id z bounds.length bounds)

/-- A magnitude is above `2^k` times another. -/
def above (d p : FVal) (k : Int) : Bool := d.isInf || magLt p.exact.m (p.exact.e + k) d.exact.m d.exact.e

/-- R315: stage and sign of a determinant that is decided by its value; `k` is log₂ K. -/
def decideStage (lift : Bool) (k : Int) (ps : Points) (degree : Nat) : Nat × Int :=
  let (d0, p0) := stage0 lift ps
  let det := detInt lift (intPoints ps)
  let sg := signInt det
  let big := p0.isFinite && !magLt p0.exact.m p0.exact.e 1 (-800)
  if d0.isFinite && big && above d0 p0 k then (0, if d0.isZero then 0 else if d0.neg then -1 else 1)
  else
    let d1 := (roundTo .f64 { mode := .rne } false ⟨det < 0, det.natAbs, (degree : Int) * commonExp ps⟩).1
    if big && above d1 p0 (k - 52) then (1, sg) else (2, sg)

/-- R310, R311, R313: the four determinant predicates: stage and value of a lane. -/
def detLane (lift : Bool) (k : Int) (degree : Nat) (tb : Bool) (ps : Points) (idx : List Nat) : Nat × Int :=
  let r := decideStage lift k ps degree
  if r.2 ≠ 0 ∨ !tb then r
  else
    let is := intPoints ps
    if !is.Nodup then (2, 0x40000000)
    else (2, detPerturbed lift (2 ^ (-(commonExp ps)).toNat) is ((List.range is.length).map (rankOf idx)))

/-- Lexicographic order of points of one line. -/
def lexLe (p q : List Int) : Bool :=
  p.getD 0 0 < q.getD 0 0 || (p.getD 0 0 == q.getD 0 0 && p.getD 1 0 ≤ q.getD 1 0)

def lexMin (p q : List Int) : List Int := if lexLe p q then p else q
def lexMax (p q : List Int) : List Int := if lexLe p q then q else p

/-- The point lies on the segment, given that the three are collinear. -/
def onSegment (p a b : List Int) : Bool := lexLe (lexMin a b) p && lexLe p (lexMax a b)

/-- R314, without .tb: from exact coordinates and the four orientations. -/
def segCode (p0 p1 p2 p3 : List Int) (o1 o2 o3 o4 : Int) : Int :=
  if o1 = 0 ∧ o2 = 0 ∧ o3 = 0 ∧ o4 = 0 then
    let lo := lexMax (lexMin p0 p1) (lexMin p2 p3)
    let hi := lexMin (lexMax p0 p1) (lexMax p2 p3)
    if lo = hi then 2 else if lexLe lo hi then 3 else 0
  else if o1 * o2 < 0 ∧ o3 * o4 < 0 then 1
  else if (o1 = 0 ∧ onSegment p2 p0 p1) ∨ (o2 = 0 ∧ onSegment p3 p0 p1) ∨ (o3 = 0 ∧ onSegment p0 p2 p3) ∨
      (o4 = 0 ∧ onSegment p1 p2 p3) then 2
  else 0

/-- R314, R315: segx: stage and value of a lane. -/
def segLane (tb : Bool) (ps : Points) (idx : List Nat) : Nat × Int :=
  let p (i : Nat) := ps.getD i []
  let is := intPoints ps
  let q (i : Nat) := is.getD i []
  let tri (a b c : Nat) : Nat × Int := decideStage false (-49) [p a, p b, p c] 2
  let r1 := tri 0 1 2
  let r2 := tri 0 1 3
  let r3 := tri 2 3 0
  let r4 := tri 2 3 1
  let st := max (max r1.1 r2.1) (max r3.1 r4.1)
  if tb then
    if !is.Nodup then (2, 0x40000000)
    else
      let one : Int := 2 ^ (-(commonExp ps)).toNat
      let o (r : Nat × Int) (a b c : Nat) : Int :=
        if r.2 ≠ 0 then r.2 else detPerturbed false one [q a, q b, q c] [rankOf idx a, rankOf idx b, rankOf idx c]
      (st, if o r1 0 1 2 ≠ o r2 0 1 3 ∧ o r3 2 3 0 ≠ o r4 2 3 1 then 1 else 0)
  else (st, segCode (q 0) (q 1) (q 2) (q 3) r1.2 r2.2 r3.2 r4.2)

/-- R309: register of coordinate c of point i. -/
def coordReg (ty : Ty) (m a i c : Nat) : Nat := a + (if ty = Ty.f64 then 2 else 1) * (m * i + c)

/-- R309: the registers that a predicate reads. -/
def geoRegs (o : GeoOp) (n m : Nat) : List Nat :=
  ((List.range (n * m)).flatMap fun x => regsOf o.ty (coordReg o.ty m o.a.toNat (x / m) (x % m))) ++
    if o.tb then (List.range n).map fun i => o.b.toNat + i else []

/-- R309: the points and indices of a lane. -/
def Here.geoPoints (h : Here) (o : GeoOp) (n m l : Nat) : Points :=
  (List.range n).map fun i => (List.range m).map fun c =>
    decodeF o.ty false (h.w.elem o.ty.width (coordReg o.ty m o.a.toNat i c) l 0)

def Here.geoIdx (h : Here) (o : GeoOp) (n l : Nat) : List Nat := (List.range n).map fun i => (h.w.readV (o.b.toNat + i) l).toNat

/-- R316: lanes of the core's unit that await a stage. -/
def State.escalated (s : State) (core : Nat) : Nat :=
  ((s.stores.preds.filter fun x => x.1 == core).map fun x => (lanesOf (x.2.stage1 ||| x.2.stage2)).length).sum

/-- R316, R318: the fragment goes on with a predicate in flight, under a fresh token. -/
def Here.issued (h : Here) (s : State) (t : Nat) : State :=
  (h.done s fun w => w.setFrag h.side (some { (w.frag h.side).getD h.f with preds := h.f.preds ++ [t] })).drawn

/-- R312, R316: a predicate is captured at issue; it writes nothing before its commit. -/
def onGeo (o : GeoOp) (n m : Nat) (lane : Bool → Points → List Nat → Nat × Int) (s : State) : Host.Outcome State Fault Refusal :=
  onWave o.g { vr := geoRegs o n m, vw := [o.d.toNat], pr := o.g.pregs } s fun h =>
    let part := h.part o.g
    let bad := (lanesOf part).filter fun l => !(h.geoPoints o n m l).flatten.all FVal.isFinite
    if Config.escalationEntries < s.escalated h.w.core + 96 then .error (h.hazard s)
    else if bad ≠ [] ∧ !o.code then .error (.trap (h.report cGEONF (lanesMask bad)) s)
    else
      let res : List (Nat × Nat × Int) := ((lanesOf part).filter fun l => !bad.contains l).map fun l =>
        (l, lane o.tb (h.geoPoints o n m l) (h.geoIdx o n l))
      let at_ (k : Nat) : Lanes := lanesMask ((res.filter fun x => x.2.1 == k).map (·.1))
      let value (l : Nat) : W32 := match res.find? fun x => x.1 == l with
        | some x => BitVec.ofInt 32 x.2.2
        | none => 0x80000000
      let p : Pred := { wave := h.key, d := o.d.toNat, token := s.draw, lanes := part, marked := lanesMask bad,
                        res := (lanesOf part).foldl (fun c l => c.write l (value l)) [], stage1 := at_ 1, stage2 := at_ 2 }
      .ok (h.issued { s with stores := { s.stores with preds := s.stores.preds ++ [(h.w.core, p)] } } p.token)

/-- ORIENT2 (R310). -/
def execOrient2 (o : GeoOp) (s : State) : Host.Outcome State Fault Refusal := onGeo o 3 2 (detLane false (-49) 2) s
/-- ORIENT3 (R310). -/
def execOrient3 (o : GeoOp) (s : State) : Host.Outcome State Fault Refusal := onGeo o 4 3 (detLane false (-48) 3) s
/-- INCIRC (R310). -/
def execIncirc (o : GeoOp) (s : State) : Host.Outcome State Fault Refusal := onGeo o 4 2 (detLane true (-47) 4) s
/-- INSPH (R310). -/
def execInsph (o : GeoOp) (s : State) : Host.Outcome State Fault Refusal := onGeo o 5 3 (detLane true (-46) 5) s
/-- SEGX (R314). -/
def execSegx (o : GeoOp) (s : State) : Host.Outcome State Fault Refusal := onGeo o 4 2 segLane s

/-- R316: the last stage that a lane of a predicate needs. -/
def Pred.last (p : Pred) : Nat := if p.stage2 ≠ 0 then 2 else if p.stage1 ≠ 0 then 1 else 0

/-- R316: the predicates of a core that may resolve next: those behind no older one that needs no later stage. (DEDUCED, log 32.) -/
def resolvable (core : Nat) : List (Nat × Pred) → List (Nat × Pred) → List (Nat × Pred)
  | _, [] => []
  | old, x :: xs =>
    if x.1 ≠ core then resolvable core old xs
    else if old.any fun y => y.2.last ≤ x.2.last then resolvable core (x :: old) xs
    else x :: resolvable core (x :: old) xs

/-- R316: a predicate's last lane has resolved: it commits in one step. -/
def State.commitPred (s : State) (x : Nat × Pred) : State :=
  { s with waves := s.waves.modify x.2.wave fun w => w.commitPred x.2,
           stores := { s.stores with preds := s.stores.preds.erase x } }

/-- PREDICATE_COMMIT (R316): a predicate in the core's unit whose last lane resolves; which, is free where several may. (DEDUCED, log 32.) -/
def execPredicateCommit (core : Nat) (s : State) : Host.Outcome State Fault Refusal :=
  match resolvable core [] s.stores.preds with
  | [] => .next s
  | [x] => .next (s.commitPred x)
  | x :: xs => .next (s.drawn.commitPred ((x :: xs).getD (Config.choice s.draw % (xs.length + 1)) x))

/-- R318: a stage count. -/
def Wave.stage (w : Wave) (n : Nat) : W32 := if n = 0 then w.st0 else if n = 1 then w.st1 else w.st2

/-- GSTAT (R318). -/
def execGstat (clr : Bool) (d : BitVec 6) (n : BitVec 2) (s : State) : Host.Outcome State Fault Refusal :=
  onWave Guard.none {} s fun h =>
    if s.stores.preds.any fun x => x.2.wave == h.key && h.f.preds.contains x.2.token then .error (h.hazard s)
    else
      h.ok s fun w =>
        let w1 := w.writeS h.side d.toNat ((w.stage n.toNat).setWidth 64)
        if clr then
          match n.toNat with
          | 0 => { w1 with st0 := 0 }
          | 1 => { w1 with st1 := 0 }
          | _ => { w1 with st2 := 0 }
        else w1

end Sys2Proof.Machine
end

