-- ==== Sys2Proof/Machine/HostPort.lean ====
section
/-!
DEFINITION. The writes of the host to BAR0 (R468, R470 to R473, R480).
-/
namespace Sys2Proof.Machine

/-- R472: a command of context-control entry `c`; a value that is no command is refused. -/
def contextCommand (c cmd : Nat) (s : State) : Host.Outcome State Fault Refusal :=
  match cmd with
  | 1 => execContextCreate c (s.health.ctxDesc.read c).toNat s
  | 2 => execContextActivate c s
  | 3 => execContextSuspend c s
  | 4 => execContextResume c s
  | 5 => execContextDestroy c s
  | 6 => execContextClearFault c s
  | _ => .next (s.refuseCmd c)

/-- R473: register `r` of entry `q` in the queue page of context `c`. -/
def queueWrite (c q r : Nat) (v : W64) (s : State) : Host.Outcome State Fault Refusal :=
  match r, v.toNat with
  | 0x00, _ => execDoorbell c q v s
  | 0x20, 1 => execQueueEnable c q s
  | 0x20, 2 => execQueueStop c q s
  | 0x20, 3 => execQueueStart c q s
  | 0x20, 4 => execQueueDisable c q s
  | _, _ => .next (s.refuse (queueReg c q r))

/-- R480: offset `o` of the measurement area: a word of the nonce, or the request. -/
def measureWrite (o : Nat) (v : W64) (s : State) : Host.Outcome State Fault Refusal :=
  if 0x200 ≤ o ∧ o < 0x220 then
    let n := leBytes 32 s.health.nonce.toNat
    .next (s.setHealth fun h => { h with
      nonce := BitVec.ofNat 256 (leNat (n.take (o - 0x200) ++ leBytes 8 v.toNat ++ n.drop (o - 0x1F8))) })
  else if o = 0x220 then execAttestationRequest s.health.nonce v s
  else .next (s.refuse (0x800000 + o))

/-- CONTROL_REGISTER_WRITE (R468, R470 to R473, R480): the host writes `size` bytes at an offset of BAR0. What no register takes is
refused. (DEDUCED, log 37.) -/
def execControlRegisterWrite (off size : Nat) (v : W64) (s : State) : Host.Outcome State Fault Refusal :=
  if size ≠ 8 ∨ off % 8 ≠ 0 then .next (s.refuse off)
  else if off = 0x3030 then execC0descWrite v s
  else if 0x3000 ≤ off ∧ off < 0x3100 then .next (s.writeControl (off - 0x3000) v)
  else if 0x4000 ≤ off ∧ off < 0x5000 then execPartitionWrite ((off - 0x4000) / 512) (off % 512) v s
  else if 0x10000 ≤ off ∧ off < 0x14000 ∧ off % 256 = 8 then .next (s.writeDesc ((off - 0x10000) / 256) v)
  else if 0x10000 ≤ off ∧ off < 0x14000 ∧ off % 256 = 0 then contextCommand ((off - 0x10000) / 256) v.toNat s
  else if 0x400000 ≤ off ∧ off < 0x440000 then queueWrite ((off - 0x400000) / 4096) (off % 4096 / 64) (off % 64) v s
  else if 0x800000 ≤ off ∧ off < 0x801000 then measureWrite (off - 0x800000) v s
  else .next (s.refuse off)

end Sys2Proof.Machine
end

