-- ==== Sys2Proof/Machine/Lane.lean ====
section
/-!
DEFINITION. Class 0x6: lane and predicate instructions (R183 to R190).
-/
namespace Sys2Proof.Machine

/-- VMOV (R184). -/
def execVmov (o : LaneOp) (s : State) : Host.Outcome State Fault Refusal :=
  onWave o.g { vr := regsOf o.ty o.a.toNat, vw := regsOf o.ty o.d.toNat, pr := o.g.pregs } s fun h =>
    h.ok s fun w => w.writeElems o.ty.width o.d.toNat (h.part o.g) fun l _ => h.w.elem o.ty.width o.a.toNat l 0

/-- VBCAST (R184). -/
def execVbcast (g : Guard) (ty : Ty) (d : BitVec 8) (a : BitVec 6) (s : State) : Host.Outcome State Fault Refusal :=
  onWave g { vw := regsOf ty d.toNat, sr := [a.toNat], pr := g.pregs } s fun h =>
    h.ok s fun w => w.writeElems ty.width d.toNat (h.part g) fun _ _ => (h.s a).toNat % 2 ^ ty.width

/-- R184: byte k of the result of vperm. -/
def permByte (sel lo hi : W32) (k : Nat) : Nat :=
  let s := bits sel (8 * k) 8
  if 128 ≤ s then 0
  else if s % 8 < 4 then bits lo (8 * (s % 8)) 8
  else bits hi (8 * (s % 8 - 4)) 8

/-- VPERM (R184). -/
def execVperm (o : LaneOp) (s : State) : Host.Outcome State Fault Refusal :=
  onWave o.g { vr := [o.a.toNat, o.b.toNat, o.c.toNat], vw := [o.d.toNat], pr := o.g.pregs } s fun h =>
    h.ok s fun w => w.writeV o.d.toNat (h.part o.g) fun l =>
      packLane 8 fun k => permByte (h.w.readV o.b.toNat l) (h.w.readV o.a.toNat l) (h.w.readV o.c.toNat l) k

/-- R185: a shuffle by a source lane for each lane; none gives 0. -/
def shuffle (o : LaneOp) (vr : List Nat) (src : Here → Nat → Option Nat) (s : State) : Host.Outcome State Fault Refusal :=
  onWave o.g { vr, nm := regsOf o.ty o.a.toNat, vw := regsOf o.ty o.d.toNat, pr := o.g.pregs } s fun h => do
    h.ecc s ((lanesOf (h.part o.g)).flatMap fun l => match src h l with
      | some k => (regsOf o.ty o.a.toNat).map fun r => laneCode r k
      | none => [])
    h.ok s fun w => w.writeElems o.ty.width o.d.toNat (h.part o.g) fun l _ =>
      match src h l with
      | some k => h.w.elem o.ty.width o.a.toNat k 0
      | none => 0

/-- VSHFL_UP (R185). -/
def execVshflUp (o : LaneOp) (n : BitVec 7) (s : State) : Host.Outcome State Fault Refusal :=
  shuffle o [] (fun _ l => some (if n.toNat ≤ l then l - n.toNat else l)) s

/-- VSHFL_DOWN (R185). -/
def execVshflDown (o : LaneOp) (n : BitVec 7) (s : State) : Host.Outcome State Fault Refusal :=
  shuffle o [] (fun _ l => some (if l + n.toNat < 96 then l + n.toNat else l)) s

/-- VSHFL_XOR (R185). -/
def execVshflXor (o : LaneOp) (n : BitVec 7) (s : State) : Host.Outcome State Fault Refusal :=
  shuffle o [] (fun _ l => some (if l ^^^ n.toNat < 96 then l ^^^ n.toNat else l)) s

/-- VSHFL_IDX (R185). -/
def execVshflIdx (o : LaneOp) (s : State) : Host.Outcome State Fault Refusal :=
  shuffle o [o.b.toNat] (fun h l => let k := (h.w.readV o.b.toNat l).toNat; if k < 96 then some k else none) s

/-- R186: an element of a reduction: bits for integers and raw types, a datum for floats. -/
inductive RedVal where
  | int (x : Nat)
  | flt (v : FVal)
  deriving DecidableEq, Repr, Inhabited

/-- R186: the bit pattern of an element. -/
def RedVal.bits (t : Ty) : RedVal → Nat
  | .int x => x
  | .flt v => encodeF t v

/-- R186: the identities. -/
def redIdentity (op : RedOp) (t : Ty) : RedVal :=
  if t.isF then
    match op with
    | .min => .flt (.inf false)
    | .max => .flt (.inf true)
    | _ => .flt (.fin false 0 0)
  else
    match op with
    | .min => .int (lowBits t.width (tyMax t))
    | .max => .int (lowBits t.width (tyMin t))
    | .and => .int (2 ^ t.width - 1)
    | _ => .int 0

/-- R186: one combine with its flags. -/
def redCombine (op : RedOp) (t : Ty) (how : How) (ftz : Bool) (x y : RedVal) : RedVal × Flags :=
  match x, y with
  | .flt a, .flt b =>
    match op with
    | .min => let r := flushF t ftz (minMaxF false a b); (.flt r.1, r.2)
    | .max => let r := flushF t ftz (minMaxF true a b); (.flt r.1, r.2)
    | _ => let r := deliver t how ftz [a, b] (resSum how.mode a b); (.flt r.1, r.2)
  | .int a, .int b =>
    (.int (match op with
      | .add => narrow t .none (intAdd t a b)
      | .min => narrow t .none (intMin t a b)
      | .max => narrow t .none (intMax t a b)
      | .and => a &&& b
      | .or => a ||| b
      | .xor => a ^^^ b), 0)
  | x, _ => (x, 0)

/-- R186: the mode of every partial result: a mode of 6 rounds to nearest, and Z is not stepped. -/
def Here.redHow (h : Here) (o : RedScan) : How :=
  let m := h.rnd o.rnd
  { mode := if m = Rnd.sr then .rne else m }

/-- R186: DAZ applies to inputs. -/
def Here.redElem (h : Here) (t : Ty) (a : BitVec 8) (l : Nat) : RedVal :=
  let x := h.w.elem t.width a.toNat l 0
  if t.isF then .flt (decodeF t (modeDaz h.w.mode) x) else .int x

/-- R186: a node of the tree over `2^n` slots from slot `i·2^n`: its value, and the flags that each lane raised (R51). -/
def redTree (op : RedOp) (t : Ty) (how : How) (ftz : Bool) (m : Lanes) (f : Nat → RedVal) :
    Nat → Nat → Option RedVal × List (Lanes × Flags)
  | 0, i => (if i < 96 ∧ m.getLsbD i then some (f i) else none, [])
  | n + 1, i =>
    let x := redTree op t how ftz m f n (2 * i)
    let y := redTree op t how ftz m f n (2 * i + 1)
    match x.1, y.1 with
    | some a, some b =>
      let r := redCombine op t how ftz a b
      let sub := m &&& (((1#96 <<< (2 ^ (n + 1))) - 1) <<< (i * 2 ^ (n + 1)))
      (some r.1, (sub, r.2) :: (x.2 ++ y.2))
    | some a, none => (some a, x.2)
    | none, b => (b, y.2)

/-- VRED (R186). -/
def execVred (o : RedScan) (s : State) : Host.Outcome State Fault Refusal :=
  onWave o.g { vr := regsOf o.ty o.a.toNat, pr := o.g.pregs } s fun h =>
    let m := h.part o.g
    let r := redTree o.op o.ty (h.redHow o) (modeFtz h.w.mode) m (h.redElem o.ty o.a) 7 0
    h.arith s m (fun l => orFlags ((r.2.filter fun x => x.1.getLsbD l).map (·.2))) h.f.z fun w =>
      w.writeS h.side (o.d.toNat % 64) (fillS o.ty ((r.1.getD (redIdentity o.op o.ty)).bits o.ty))

/-- R187: the scan over some lanes in order: for each lane its result and the flags of its combine. -/
def scanLanes (o : RedScan) (how : How) (ftz : Bool) (seg : Nat → Bool) (f : Nat → RedVal) :
    List Nat → RedVal → List (Nat × RedVal × Flags)
  | [], _ => []
  | l :: ls, acc0 =>
    let acc := if o.seg && seg l then redIdentity o.op o.ty else acc0
    let r := redCombine o.op o.ty how ftz acc (f l)
    (l, if o.ex then acc else r.1, r.2) :: scanLanes o how ftz seg f ls r.1

/-- VSCAN (R187). -/
def execVscan (o : RedScan) (s : State) : Host.Outcome State Fault Refusal :=
  onWave o.g { vr := regsOf o.ty o.a.toNat, vw := regsOf o.ty o.d.toNat,
               pr := o.g.pregs ++ (if o.seg then [o.pc.toNat] else []) } s fun h =>
    let m := h.part o.g
    let r := scanLanes o (h.redHow o) (modeFtz h.w.mode) (fun l => (h.w.readP o.pc.toNat).getLsbD l)
      (h.redElem o.ty o.a) (lanesOf m) (redIdentity o.op o.ty)
    let at_ (l : Nat) := (r.find? fun x => x.1 == l).getD (l, .int 0, 0)
    h.arith s m (fun l => (at_ l).2.2) h.f.z fun w =>
      w.writeElems o.ty.width o.d.toNat m fun l _ => (at_ l).2.1.bits o.ty

/-- R188: the register that a lane names. -/
def Here.relReg (h : Here) (base b : BitVec 8) (l : Nat) : Int := base.toNat + (h.w.readV b.toNat l).toInt

/-- R188: every participating lane's number is checked before any write. -/
def Here.relCheck (h : Here) (s : State) (m : Lanes) (base b : BitVec 8) : Except Abort Unit :=
  let bad := (lanesOf m).filter fun l => h.relReg base b l < 0 || (h.w.n : Int) ≤ h.relReg base b l
  if bad = [] then .ok () else .error (.trap (h.report cREGIDX (lanesMask bad)) s)

/-- VMOVREL (R188). -/
def execVmovrel (o : LaneOp) (s : State) : Host.Outcome State Fault Refusal :=
  onWave o.g { vr := [o.b.toNat], nm := [o.a.toNat], vw := [o.d.toNat], pr := o.g.pregs, indexed := true } s fun h => do
    let m := h.part o.g
    h.relCheck s m o.a o.b
    let reg (l : Nat) := (h.relReg o.a o.b l).toNat
    h.ecc s ((lanesOf m).map fun l => laneCode (reg l) l)
    h.ok s fun w => w.writeV o.d.toNat m fun l => h.w.readV (reg l) l

/-- VSTREL (R188): each lane writes its own register. -/
def execVstrel (o : LaneOp) (s : State) : Host.Outcome State Fault Refusal :=
  onWave o.g { vr := [o.a.toNat, o.b.toNat], nm := [o.d.toNat], pr := o.g.pregs, indexed := true } s fun h => do
    let m := h.part o.g
    h.relCheck s m o.d o.b
    let reg (l : Nat) := (h.relReg o.d o.b l).toNat
    let mask (r : Nat) := lanesMask ((lanesOf m).filter fun l => reg l == r)
    let regs := ((lanesOf m).map reg).dedup
    h.ecc s (regs.flatMap fun r => partCodes r (mask r))
    h.ok s fun w => regs.foldl (fun w r => w.writeV r (mask r) fun l => h.w.readV o.a.toNat l) w

/-- A predicate written from a test of each participating lane. -/
def Here.setLanes (h : Here) (s : State) (m : Lanes) (d : BitVec 4) (f : Nat → Bool) : Except Abort State :=
  h.ok s fun w => w.writeP d.toNat m (lanesMask ((lanesOf m).filter f))

/-- VCMP (R189). -/
def execVcmp (g : Guard) (cc : ICond) (ty : Ty) (d : BitVec 4) (a b : BitVec 8) (s : State) :
    Host.Outcome State Fault Refusal :=
  onWave g { vr := regsOf ty a.toNat ++ regsOf ty b.toNat, pr := g.pregs, pw := [d.toNat] } s fun h =>
    h.setLanes s (h.part g) d fun l => cmpI cc ty (h.w.elem ty.width a.toNat l 0) (h.w.elem ty.width b.toNat l 0)

/-- VSEL (R184). -/
def execVsel (g : Guard) (ty : Ty) (d a b : BitVec 8) (c : BitVec 4) (s : State) : Host.Outcome State Fault Refusal :=
  onWave g { nm := regsOf ty a.toNat ++ regsOf ty b.toNat, vw := regsOf ty d.toNat, pr := c.toNat :: g.pregs } s fun h => do
    let m := h.part g
    let src (l : Nat) := if (h.w.readP c.toNat).getLsbD l then a.toNat else b.toNat
    h.ecc s ((lanesOf m).flatMap fun l => (regsOf ty (src l)).map fun r => laneCode r l)
    h.ok s fun w => w.writeElems ty.width d.toNat m fun l _ => h.w.elem ty.width (src l) l 0

/-- PLOP (R190). -/
def execPlop (g : Guard) (d a b : BitVec 4) (t : BitVec 4) (s : State) : Host.Outcome State Fault Refusal :=
  onWave g { pr := [a.toNat, b.toNat] ++ g.pregs, pw := [d.toNat] } s fun h =>
    h.setLanes s (h.part g) d fun l => t.getLsbD
      ((if (h.w.readP a.toNat).getLsbD l then 2 else 0) + (if (h.w.readP b.toNat).getLsbD l then 1 else 0))

/-- PPOPC (R190). -/
def execPpopc (g : Guard) (d : BitVec 6) (a : BitVec 4) (s : State) : Host.Outcome State Fault Refusal :=
  onWave g { pr := a.toNat :: g.pregs } s fun h =>
    h.ok s fun w => w.writeS h.side d.toNat (BitVec.ofNat 64 (lanesOf (h.part g &&& h.w.readP a.toNat)).length)

/-- PFIRST (R190). -/
def execPfirst (g : Guard) (d a : BitVec 4) (s : State) : Host.Outcome State Fault Refusal :=
  onWave g { pr := a.toNat :: g.pregs, pw := [d.toNat] } s fun h =>
    h.setLanes s (h.part g) d fun l => l == lowest (h.part g &&& h.w.readP a.toNat)

/-- PBALLOT (R190). -/
def execPballot (g : Guard) (d : BitVec 6) (a : BitVec 4) (b : BitVec 2) (s : State) : Host.Outcome State Fault Refusal :=
  onWave g { pr := a.toNat :: g.pregs } s fun h =>
    h.ok s fun w => w.writeS h.side d.toNat
      (((h.part g &&& h.w.readP a.toNat).extractLsb' (32 * b.toNat) 32).setWidth 64)

/-- PFROM (R190). -/
def execPfrom (g : Guard) (d : BitVec 4) (a : BitVec 6) (b : BitVec 2) (s : State) : Host.Outcome State Fault Refusal :=
  onWave g { sr := [a.toNat], pr := g.pregs, pw := [d.toNat] } s fun h =>
    let m := h.part g &&& beatMask b.toNat
    h.setLanes s m d fun l => (h.s a).getLsbD (l - 32 * b.toNat)

/-- VLID (R184). -/
def execVlid (g : Guard) (d : BitVec 8) (s : State) : Host.Outcome State Fault Refusal :=
  onWave g { vw := [d.toNat], pr := g.pregs } s fun h =>
    h.ok s fun w => w.writeV d.toNat (h.part g) fun l => BitVec.ofNat 32 l

end Sys2Proof.Machine
end

