-- ==== Sys2Proof/Machine/Retire.lean ====
section
/-!
DEFINITION. The end of fragments, waves and instances (R137, R149, R265, R291, R382, R384).
-/
namespace Sys2Proof.Machine

/-- R265: no other wave of the crew is left. -/
def State.lastWave (s : State) (k : Nat) (w : Wave) : Bool :=
  s.waves.all fun x => x.1 == k || x.2.crew != w.crew || x.2.status == .retired

/-- R208, R265: a wclose on each of some windows in turn. (DESIGN CHOICE, log 53.) -/
def Here.closeEach (h : Here) (s : State) : List Nat → Except Abort State
  | [] => .ok s
  | k :: ks => do
    let s1 ← h.writeBack s [k]
    h.closeEach (s1.setCrew h.w.crew (·.closeWin k)) ks

/-- R265: the windows of a crew are closed on behalf of its last wave, the lowest first (DESIGN CHOICE, log 53); those closed before a failing
one stay closed. -/
def Here.closeWindows (h : Here) (s : State) : Except Abort State :=
  if s.lastWave h.key h.w then h.closeEach s (s.crew h.w.crew).openWins else .ok s

/-- R137, R382, R408: the wave has no lanes left. -/
def Here.retire (h : Here) (s : State) : Except Abort State := do
  let s1 ← h.closeWindows s
  .ok (((s1.passes h.w.core h.w.watch).putWave h.key { h.w with status := .retired, fa := none, fb := none, watch := none }).leaveGroups h.w.crew h.w.wid)

/-- R137: the fragment of a wave ends. -/
def Here.endFragment (h : Here) (s : State) : Except Abort State :=
  if (h.w.frag (!h.side)).isSome then .ok (s.putWave h.key (h.w.setFrag h.side none))
  else
    match s.popFrag h.w with
    | some (.error a) => .error (.trap { h.report cMEMECC with faddr := BitVec.ofNat 64 a } (s.consume a none))
    | some (.ok (g, w1)) => .ok (s.putWave h.key { w1 with fa := some g, fb := none })
    | none => h.retire s

/-- R277, R303: an instance ends once everything that it has issued is complete; its tile task closes. -/
def SeqHere.finishInst (h : SeqHere) (s : State) : Except Abort State :=
  if s.instQuiet h then .ok ((((s.passes h.i.core h.i.watch).closeTile h.key).freeInst h.key).sweep) else .error (.hold s)

/-- END (R149). -/
def execEndF (s : State) : Host.Outcome State Fault Refusal :=
  if s.onSeqStream then onSeq s fun h => h.finishInst s
  else onWave Guard.none {} s fun h => h.endFragment s

/-- WAVE_RETIRE (R384): a retired wave whose predicates have committed frees its slot. -/
def execWaveRetire (w : Nat) (s : State) : Host.Outcome State Fault Refusal :=
  match s.waves.get? w with
  | some x =>
    if x.status = .retired ∧ !(s.stores.preds.any fun p => p.2.wave == w) then .next (s.freeWave w).sweep else .next s
  | none => .next s

end Sys2Proof.Machine
end

