-- ==== Sys2Proof/Machine/Scalar.lean ====
section
/-!
DEFINITION. Classes 0x1 and 0x2: scalar integer, bit, move, address, special-register and scalar floating-point instructions
(R153 to R162).
-/
namespace Sys2Proof.Machine

/-- R153: a class 0x1 instruction: exact result, narrowing, extension to 64 bits. -/
def scalarInt (o : SInt) (f : Nat → Nat → Nat → Int) (s : State) : Host.Outcome State Fault Refusal :=
  onWave Guard.none { sr := [o.a.toNat, o.c.toNat] ++ o.b.sregs } s fun h =>
    h.ok s fun w => w.writeS h.side o.d.toNat
      (fillS o.ty (narrow o.ty o.sat (f (h.s o.a).toNat (h.srcS o.ty o.b) (h.s o.c).toNat)))

/-- R153: the two-source form; C is 0 and names no operand. -/
def scalarInt2 (o : SInt) (f : Nat → Nat → Int) (s : State) : Host.Outcome State Fault Refusal :=
  onWave Guard.none { sr := o.a.toNat :: o.b.sregs } s fun h =>
    h.ok s fun w => w.writeS h.side o.d.toNat
      (fillS o.ty (narrow o.ty o.sat (f (h.s o.a).toNat (h.srcS o.ty o.b))))

/-- ADD. -/
def execAdd (o : SInt) (s : State) : Host.Outcome State Fault Refusal := scalarInt2 o (intAdd o.ty) s
/-- SUB. -/
def execSub (o : SInt) (s : State) : Host.Outcome State Fault Refusal := scalarInt2 o (intSub o.ty) s
/-- MUL. -/
def execMul (o : SInt) (s : State) : Host.Outcome State Fault Refusal := scalarInt2 o (intMul o.ty) s
/-- MULH. -/
def execMulh (o : SInt) (s : State) : Host.Outcome State Fault Refusal := scalarInt2 o (intMulh o.ty) s
/-- MAD. -/
def execMad (o : SInt) (s : State) : Host.Outcome State Fault Refusal := scalarInt o (intMad o.ty) s
/-- DIV (R154). -/
def execDiv (o : SInt) (s : State) : Host.Outcome State Fault Refusal := scalarInt2 o (intDiv o.ty) s
/-- REM (R154). -/
def execRem (o : SInt) (s : State) : Host.Outcome State Fault Refusal := scalarInt2 o (intRem o.ty) s
/-- AND. -/
def execAnd (o : SInt) (s : State) : Host.Outcome State Fault Refusal := scalarInt2 o (intAnd o.ty) s
/-- OR. -/
def execOr (o : SInt) (s : State) : Host.Outcome State Fault Refusal := scalarInt2 o (intOr o.ty) s
/-- XOR. -/
def execXor (o : SInt) (s : State) : Host.Outcome State Fault Refusal := scalarInt2 o (intXor o.ty) s
/-- SHL. -/
def execShl (o : SInt) (s : State) : Host.Outcome State Fault Refusal := scalarInt2 o (intShl o.ty) s
/-- SHR. -/
def execShr (o : SInt) (s : State) : Host.Outcome State Fault Refusal := scalarInt2 o (intShr o.ty) s
/-- SAR. -/
def execSar (o : SInt) (s : State) : Host.Outcome State Fault Refusal := scalarInt2 o (intSar o.ty) s
/-- MIN. -/
def execMin (o : SInt) (s : State) : Host.Outcome State Fault Refusal := scalarInt2 o (intMin o.ty) s
/-- MAX. -/
def execMax (o : SInt) (s : State) : Host.Outcome State Fault Refusal := scalarInt2 o (intMax o.ty) s

/-- A scalar result computed from scalars. -/
def scalarMove (d : BitVec 6) (srcs : List (BitVec 6)) (f : Here → W64) (s : State) : Host.Outcome State Fault Refusal :=
  onWave Guard.none { sr := srcs.map (·.toNat) } s fun h => h.ok s fun w => w.writeS h.side d.toNat (f h)

/-- CLZ (R156). -/
def execClz (ty : Ty) (d a : BitVec 6) (s : State) : Host.Outcome State Fault Refusal :=
  scalarMove d [a] (fun h => BitVec.ofNat 64 (clzOf ty.width (h.s a).toNat)) s

/-- POPC (R156). -/
def execPopc (ty : Ty) (d a : BitVec 6) (s : State) : Host.Outcome State Fault Refusal :=
  scalarMove d [a] (fun h => BitVec.ofNat 64 (popcOf ty.width (h.s a).toNat)) s

/-- BREV (R156). -/
def execBrev (ty : Ty) (d a : BitVec 6) (s : State) : Host.Outcome State Fault Refusal :=
  scalarMove d [a] (fun h => BitVec.ofNat 64 (brevOf ty.width (h.s a).toNat)) s

/-- BFE (R156). -/
def execBfe (ty : Ty) (d a : BitVec 6) (pos : BitVec 6) (len : BitVec 7) (s : State) : Host.Outcome State Fault Refusal :=
  scalarMove d [a] (fun h => BitVec.ofInt 64 (fieldOf 64 ty.isS (h.s a).toNat pos.toNat len.toNat)) s

/-- BFI (R156). -/
def execBfi (d a b : BitVec 6) (pos : BitVec 6) (len : BitVec 7) (s : State) : Host.Outcome State Fault Refusal :=
  scalarMove d [a, b] (fun h => BitVec.ofNat 64 (fieldSet 64 (h.s a).toNat (h.s b).toNat pos.toNat len.toNat)) s

/-- CMP (R157): a float comparison may raise invalid (R160). -/
def execCmp (cc : ICond) (ty : Ty) (d a b : BitVec 6) (s : State) : Host.Outcome State Fault Refusal :=
  onWave Guard.none { sr := [a.toNat, b.toNat] } s fun h =>
    if ty.isF then
      let r := cmpF cc.float (h.fltS ty a) (h.fltS ty b)
      h.arithS s r.2 h.f.z fun w => w.writeS h.side d.toNat (if r.1 then 1 else 0)
    else
      h.ok s fun w => w.writeS h.side d.toNat (if cmpI cc ty (h.s a).toNat (h.s b).toNat then 1 else 0)

/-- SEL (R157). -/
def execSel (d a b c : BitVec 6) (s : State) : Host.Outcome State Fault Refusal :=
  scalarMove d [a, b, c] (fun h => if h.s c != 0 then h.s a else h.s b) s

/-- MOV (R158). -/
def execMov (d a : BitVec 6) (s : State) : Host.Outcome State Fault Refusal := scalarMove d [a] (fun h => h.s a) s

/-- MOVI (R158). -/
def execMovi (d : BitVec 6) (e : W32) (s : State) : Host.Outcome State Fault Refusal :=
  scalarMove d [] (fun _ => sext64 e) s

/-- MOVH (R158). -/
def execMovh (d : BitVec 6) (e : W32) (s : State) : Host.Outcome State Fault Refusal :=
  scalarMove d [d] (fun h => pair64 ((h.s d).setWidth 32) e) s

/-- LEA (R158). -/
def execLea (d a b : BitVec 6) (sh : BitVec 3) (disp : BitVec 24) (s : State) : Host.Outcome State Fault Refusal :=
  scalarMove d [a, b] (fun h => h.s a + (h.s b <<< sh.toNat) + disp.signExtend 64) s

/-- R66: the value of a special register for the executing fragment. -/
def Here.special (h : Here) (s : State) : SReg → W64
  | .lane => BitVec.ofNat 64 (lowest h.f.mask)
  | .wslot => BitVec.ofNat 64 h.w.slot
  | .wid => BitVec.ofNat 64 h.w.wid
  | .crew => BitVec.ofNat 64 (s.crew h.w.crew).idx
  | .core => BitVec.ofNat 64 (h.w.core % 8)
  | .clus => BitVec.ofNat 64 (h.w.core / 8 % 64)
  | .die => BitVec.ofNat 64 (h.w.core / 512)
  | .clk => s.clk
  | .ctx => BitVec.ofNat 64 (s.ctxOf h.w)
  | .mode => h.w.modeOf h.side
  | .flags => h.w.flags.setWidth 64
  | .alloc => BitVec.ofNat 64 h.w.n

/-- SRD (R159). -/
def execSrd (d : BitVec 6) (x : SReg) (s : State) : Host.Outcome State Fault Refusal :=
  scalarMove d [] (fun h => h.special s x) s

/-- SWR_MODE (R68, R159). -/
def execSwrMode (a : BitVec 6) (s : State) : Host.Outcome State Fault Refusal :=
  onWave Guard.none { sr := [a.toNat] } s fun h =>
    let v := h.s a
    if modeOk v then
      h.ok s fun w => ({ w with mode := v.setWidth 32 }).setFrag h.side (some { h.f with z := v.extractLsb' 32 32 })
    else .error (.trap (h.report cILL) s)

/-- SWR_FLAGS (R69, R159). -/
def execSwrFlags (a : BitVec 6) (s : State) : Host.Outcome State Fault Refusal :=
  onWave Guard.none { sr := [a.toNat] } s fun h =>
    if bits (h.s a) 7 57 = 0 then h.ok s fun w => { w with flags := (h.s a).setWidth 7 }
    else .error (.trap (h.report cILL) s)

/-- CVTS (R161): W of lane 0 when it rounds stochastically. -/
def execCvts (src : Ty) (o : SFlt) (s : State) : Host.Outcome State Fault Refusal :=
  onWave Guard.none { sr := [o.a.toNat] } s fun h =>
    let mode := if alwaysExact o.ty src then Rnd.rne else h.rnd o.rnd
    let z := nextZ mode h.f.z
    let r := convert o.ty src (howOf mode z 0 1 0) (modeDaz h.w.mode) (modeFtz h.w.mode) o.sat
      ((h.s o.a).toNat % 2 ^ src.width)
    h.arithS s r.2 z fun w => w.writeS h.side o.d.toNat (fillS o.ty r.1)

/-- R162: the sf group. -/
def scalarFlt (o : SFlt) (n : Nat) (f : Rnd → FVal → FVal → FVal → FRes) (s : State) : Host.Outcome State Fault Refusal :=
  onWave Guard.none { sr := ([o.a, o.b, o.c].take n).map (·.toNat) } s fun h =>
    let mode := h.rnd o.rnd
    let z := nextZ mode h.f.z
    let a := h.fltS o.ty o.a
    let b := h.fltS o.ty o.b
    let c := h.fltS o.ty o.c
    let r := deliver o.ty (howOf mode z 0 1 0) (modeFtz h.w.mode) ([a, b, c].take n) (f mode a b c)
    h.arithS s r.2 z fun w => w.writeS h.side o.d.toNat
      (BitVec.ofNat 64 (encodeF o.ty (saturateF o.ty o.sat r.1)))

/-- SFADD. -/
def execSfadd (o : SFlt) (s : State) : Host.Outcome State Fault Refusal := scalarFlt o 2 (fun m a b _ => (resAdd m a b).zeroSum (m == .rdn)) s
/-- SFMUL. -/
def execSfmul (o : SFlt) (s : State) : Host.Outcome State Fault Refusal := scalarFlt o 2 (fun _ a b _ => resMul a b) s
/-- SFFMA. -/
def execSffma (o : SFlt) (s : State) : Host.Outcome State Fault Refusal := scalarFlt o 3 (fun m a b c => (resFma m a b c).zeroSum (m == .rdn)) s

end Sys2Proof.Machine
end

