-- ==== Sys2Proof/Machine/Schedule.lean ====
section
/-!
DEFINITION. The choice of a dispatcher among its candidates, and the evictions that it makes for one (R396 to R401).
-/
namespace Sys2Proof.Machine

/-- R396: candidates. -/
inductive Cand where
  | launch (k : Nat)
  | wave (k : Nat)
  | inst (k : Nat)
  | crew (k : Nat)
  deriving DecidableEq, Repr

/-- Lexicographic order of two lists. -/
def orderLe : List Nat → List Nat → Bool
  | [], _ => true
  | _ :: _, [] => false
  | a :: as, b :: bs => a < b || (a == b && orderLe as bs)

/-- A list with one more entry, kept in the order of its keys; equal keys keep their order. -/
def insertBy {α : Type} (key : α → List Nat) (x : α) : List α → List α
  | [] => [x]
  | y :: ys => if orderLe (key x) (key y) && key x != key y then x :: y :: ys else y :: insertBy key x ys

def sortBy {α : Type} (key : α → List Nat) (l : List α) : List α := l.foldl (fun r x => insertBy key x r) []

/-- The launch of a candidate. -/
def State.candLaunch (s : State) : Cand → Launch
  | .launch k => s.launch k
  | .wave k => match s.waves.get? k with
    | some w => s.launchOf w
    | none => {}
  | .inst k => match s.seqs.get? k with
    | some i => s.launch (s.crew i.crew).launch
    | none => {}
  | .crew k => s.launch (s.crew k).launch

/-- R396: a launch with a crew to place, or to be checked. -/
def State.launchCandidate (s : State) (l : Launch) : Bool :=
  !l.parked && !l.marker && s.running l.ctx &&
    (l.st == .ready || l.st == .dispatching || (l.st == .running && l.placed < l.crewsN))

/-- R400: a saved wave whose wait is not over is one only for room that is free. -/
def State.waveListed (s : State) (w : Wave) : Bool :=
  (w.status == .evicted || (w.status == .adjourned && w.ready)) && (s.crew w.crew).space.isNone && s.running (s.ctxOf w)

/-- R396: the candidates of a die's dispatcher. -/
def State.candidates (s : State) (die : Nat) : List Cand :=
  (((s.launches.filter fun x => s.launchCandidate x.2).map fun x => Cand.launch x.1) ++
    ((s.waves.filter fun x => s.waveListed x.2).map fun x => Cand.wave x.1) ++
    ((s.seqs.filter fun x => s.instCandidate x.2).map fun x => Cand.inst x.1) ++
    ((s.crews.filter fun x => x.2.space.isSome && s.running (s.launch x.2.launch).ctx).map fun x => Cand.crew x.1)).filter
    fun c => (s.candLaunch c).die == die

/-- R397: V_c on a die. (DEDUCED, log 40.) -/
def State.share (s : State) (die ctx : Nat) : Nat :=
  ((s.ctx ctx).vb.read die).toNat + ((s.ctx ctx).vc.read die).toNat * 1024 / max 1 (s.ctx ctx).weight

/-- R397: the contexts, 0 apart, that have candidates on a die. -/
def State.candCtxs (s : State) (die : Nat) : List Nat :=
  match s.candidates die with
  | [] => []
  | cs => (List.range 64).filter fun c => c != 0 && cs.any fun x => (s.candLaunch x).ctx == c

/-- R397: V_c of a context that gains a candidate is raised to the least of the contexts that have candidates already. -/
def State.raiseShare (s : State) (die : Nat) (cs : List Nat) (c : Nat) : State :=
  match (((cs.filter fun d => d != c && (s.ctx d).had.getLsbD die)).map fun d => s.share die d).min? with
  | some m => if m ≤ s.share die c then s else s.setCtx c fun x => { x with vb := x.vb.write die (BitVec.ofNat 64 m), vc := x.vc.write die 0 }
  | none => s

/-- R397: the contexts that have gained and lost candidates on a die; of several that gain together, the lowest is first. (DEDUCED, log 40.) -/
def State.seeGains (s : State) (die : Nat) : State :=
  let cs := s.candCtxs die
  let bit : BitVec 8 := (1#8) <<< die
  let s1 := cs.foldl (fun s c => if (s.ctx c).had.getLsbD die then s
    else (s.raiseShare die cs c).setCtx c fun x => { x with had := x.had ||| bit }) s
  { s1 with ctxs := s1.ctxs.map fun x => if x.2.had.getLsbD die ∧ !cs.contains x.1 then (x.1, { x.2 with had := x.2.had &&& ~~~bit }) else x }

/-- R397: the same on every die. -/
def State.seeAllGains (s : State) : State := (List.range 8).foldl State.seeGains s

/-- R395: a deadline as it orders: 0 after every other. -/
def lateness (d : W64) : Nat := if d = 0 then 2 ^ 64 else d.toNat

/-- R397: the order of candidates. -/
def State.candKey (s : State) (die : Nat) (c : Cand) : List Nat :=
  let l := s.candLaunch c
  [if l.ctx = 0 then 0 else 1, if l.ctx = 0 then 0 else s.share die l.ctx, l.ctx, 8 - l.prio, lateness l.deadline, l.age,
    match c with | .launch _ => 1 | _ => 0]

/-- R398, R399: the waves of a core that work of a rank may evict, in the order in which they go. -/
def State.victims (s : State) (core rank : Nat) : List (Nat × Wave) :=
  sortBy (fun x => [if x.2.isReady then 1 else 0, (s.launchOf x.2).rank, x.2.level.toNat, 2 ^ 64 - lateness (s.launchOf x.2).deadline,
      63 - x.2.wid])
    (s.waves.filter fun x => x.2.core == core && s.evictable x.1 x.2 && (s.launchOf x.2).rank < rank)

/-- R399: a plan: its cost (waves and granules evicted, cores used, ready waves evicted), the core of each wave placed, the waves
evicted. -/
structure Plan where
  cost : List Nat := [0, 0, 0, 0]
  cores : List Nat := []
  out : List Nat := []
  deriving DecidableEq, Repr, Inhabited

def addCost (a b : List Nat) : List Nat := List.zipWith (· + ·) a b

/-- R399: fewest first; then the lowest cores. -/
def Plan.key (p : Plan) : List Nat := p.cost ++ p.cores

def Plan.best (x y : Option Plan) : Option Plan :=
  match x, y with
  | some a, some b => if orderLe a.key b.key then some a else some b
  | some a, none => some a
  | none, y => y

/-- What it takes to place n waves of `gran` granules on a core. -/
def State.corePlan (s : State) (core rank gran n : Nat) : Option Plan :=
  if n = 0 then some {}
  else
    let vs := s.victims core rank
    let sum (j : Nat) : Nat := ((vs.take j).map fun x => x.2.gran).sum
    match (List.range (vs.length + 1)).find? fun j =>
        n ≤ (s.freeSlots core).length + j && n * gran ≤ s.freeGrans core + sum j with
    | some j => some ⟨[j, sum j, 1, ((vs.take j).filter fun x => x.2.isReady).length], List.replicate n (core % 8), (vs.take j).map (·.1)⟩
    | none => none

/-- One core more: the best plan for each number of waves up to `n`. -/
def State.addCore (s : State) (core rank gran n : Nat) (ok : Bool) (t : List (Option Plan)) : List (Option Plan) :=
  (List.range (n + 1)).map fun m => (List.range (m + 1)).foldl (fun best j =>
    if j ≠ 0 ∧ !ok then best
    else
      match t.getD (m - j) none, s.corePlan core rank gran j with
      | some a, some b => Plan.best best (some ⟨addCost a.cost b.cost, a.cores ++ b.cores, a.out ++ b.out⟩)
      | _, _ => best) none

/-- R399: the best way to make room for n waves on a cluster, on the cores that may take them. -/
def State.planCores (s : State) (clus rank gran n : Nat) (ok : Nat → Bool) : Option Plan :=
  let start : List (Option Plan) := some {} :: List.replicate n none
  (((List.range 8).map (8 * clus + ·)).foldl (fun t core => s.addCore core rank gran n (ok core && s.coreUp core) t) start).getD n none

/-- R399: the core's sequencer is free, or an instance there can park for work of the rank. -/
def State.seqRoom (s : State) (core rank : Nat) : Bool :=
  s.seqs.all fun x => x.2.core != core || x.2.status != .live ||
    (x.2.parkable && (s.launch (s.crew x.2.crew).launch).rank < rank)

/-- R399: a placement with all that leaves for it. -/
structure Room where
  place : Place
  plan : Plan
  crews : List Nat
  deriving DecidableEq, Repr, Inhabited

def Room.key (r : Room) : List Nat := r.plan.cost ++ [r.place.clus] ++ r.plan.cores ++ [r.place.unit]

/-- R399: the room at one unit of a cluster: the crews over it leave whole, then waves as needed. -/
def State.roomAt (s : State) (l : Launch) (clus unit : Nat) : Option Room :=
  let hit := s.crews.filter fun x => x.2.clus == clus && x.2.space.isNone && l.units != 0 &&
    meets x.2.unit x.2.nunits unit l.units
  if 64 < unit + l.units ∨ hit.any fun x => l.rank ≤ (s.launch x.2.launch).rank then none
  else
    let ks := hit.map (·.1)
    let gone := s.waves.filter fun x => ks.contains x.2.crew && x.2.holds
    let s1 := { s with waves := s.waves.filter fun x => !ks.contains x.2.crew, seqs := s.seqs.filter fun x => !ks.contains x.2.crew }
    (s1.planCores clus l.rank l.granN l.wavesN fun core => l.seqPc == 0 || s1.seqRoom core l.rank).map fun p =>
      { place := ⟨clus, unit, p.cores⟩, crews := ks
        plan := { p with cost := addCost p.cost [gone.length, (gone.map fun x => x.2.gran).sum, 0, (gone.filter fun x => x.2.isReady).length] } }

/-- R398, R399, R401: the best room for the next crew of a launch. (DEDUCED, log 40.) -/
def State.findRoom (s : State) (l : Launch) : Option Room :=
  let clusters := (List.range 512).filter fun c => s.usable l c && !s.keptFor l c
  let units := if l.units = 0 then [0] else List.range (65 - l.units)
  (clusters.flatMap fun c => units.filterMap fun u => s.roomAt l c u).foldl (fun best r =>
    match best with
    | some b => if orderLe b.key r.key then some b else some r
    | none => some r) none

/-- Whole crews evicted; none if an access meets no memory. -/
def State.evictAll (s : State) : List Nat → Except Fault State
  | [] => .ok s
  | k :: ks => match s.evictCrew k with
    | .ok s1 => s1.evictAll ks
    | .error x => .error x

/-- R398: a crew is placed, with the evictions that it takes; a crew that cannot be saved yet keeps the candidate waiting. -/
def State.placeWith (s : State) (key : Nat) (r : Room) : Host.Outcome State Fault Refusal :=
  match s.evictAll r.crews with
  | .error x => .fault x
  | .ok s1 =>
    if r.crews.any fun k => (s1.crew k).space.isNone then .next s1
    else
      let s2 := r.plan.out.foldl (fun s k => s.evictWave k) s1
      let parked := s2.seqs.filter fun x => x.2.status == .live && x.2.core / 8 == r.place.clus && r.place.occupied.contains (x.2.core % 8)
      let s3 := if (s2.launch key).seqPc = 0 then s2 else parked.foldl (fun s x => s.parkInst x.1) s2
      s3.placeCrew key r.place

/-- R340, R398: a crew that was evicted whole returns to its place, with the evictions that it takes: crews over its units and on cores whose
stores it needs, then waves and instances; none if even they would not make room. (DEDUCED, log 40.) -/
def State.returnCrew (s : State) (ck : Nat) : Option (Host.Outcome State Fault Refusal) :=
  let c := s.crew ck
  let rank := (s.launch c.launch).rank
  let below (k : Nat) : Bool := (s.launch (s.crew k).launch).rank < rank
  let ws := c.imgWaves.filterMap fun k => s.waves.get? k
  let hit := (s.crews.filter fun x => x.2.clus == c.clus && x.2.space.isNone && x.1 != ck &&
    (meets x.2.unit x.2.nunits c.unit c.nunits || c.imgCores.any fun core => s.crewOn x.1 core && s.stores.owner.read core != 0)).map (·.1)
  if !hit.all below then none
  else
    match s.evictAll hit with
    | .error x => some (.fault x)
    | .ok s1 =>
      let s2 := (List.range 8).foldl (fun s i =>
        let core := 8 * c.clus + i
        let mine := ws.filter fun w => w.core == core
        match if mine = [] then none else s.corePlan core rank ((mine.head?.map (·.gran)).getD 1) mine.length with
        | some p => p.out.foldl (fun s k => s.evictWave k) s
        | none => s) s1
      let s3 := (s2.seqs.filter fun x => x.2.parkable && below x.2.crew && c.imgSeqs.any fun k => (s2.seqs.get? k).map (·.core) == some x.2.core).foldl
        (fun s x => s.parkInst x.1) s2
      let s4 := s3.tidyCluster c.clus
      if s4.crewFits c then some (.next (s4.restoreCrew ck c))
      else if hit.any fun k => (s1.crew k).space.isNone then some (.next s1)
      else none

/-- R397: what the dispatcher does for a candidate; none if it is passed over. -/
def State.serveCand (s : State) : Cand → Option (Host.Outcome State Fault Refusal)
  | .launch k =>
    let l := s.launch k
    if l.st = .running then
      match s.findRoom l with
      | some r => if (s.populate s.crews.nextKey l r.place).isSome then some (s.placeWith k r) else none
      | none => none
    else
      match s.tryDispatch k with
      | .next s1 => if (s1.launch k).st = .running ∨ (s1.launch k).parked then some (.next s1) else none
      | r => some r
  | .wave k =>
    match s.waves.get? k with
    | none => none
    | some w =>
      match s.planCores (w.core / 8) (s.launchOf w).rank w.gran 1 (s.coreFor w) with
      | some p =>
        if p.out ≠ [] ∧ !s.waveCandidate k w then none
        else
          let s1 := p.out.foldl (fun s k => s.evictWave k) s
          let core := 8 * (w.core / 8) + p.cores.headD 0
          some (.next (s1.restoreWave k w core ((s1.freeSlots core).headD 0)))
      | none => none
  | .inst k =>
    match s.seqs.get? k with
    | none => none
    | some i =>
      let core := (s.instCore i).getD i.core
      if !s.seqRoom core (s.candLaunch (.inst k)).rank then none
      else
        let rivals := s.seqs.filter fun x => x.2.core == core && x.2.status == .live
        some (.next ((rivals.foldl (fun s x => s.parkInst x.1) s).restoreOn k i))
  | .crew k => s.returnCrew k

/-- The first candidate that is not passed over. -/
def State.firstServed (s : State) : List Cand → Host.Outcome State Fault Refusal
  | [] => .next s
  | c :: cs => match s.serveCand c with
    | some r => r
    | none => s.firstServed cs

/-- DISPATCHER_CHOICE (R397). -/
def execDispatcherChoice (die : Nat) (s : State) : Host.Outcome State Fault Refusal :=
  s.firstServed (sortBy (s.candKey die) (s.candidates die))

/-- R338, R398, R399: a crew has to go: its context is suspended, or the room that the dispatcher finds for a running launch's next crew is
where it stands. (DEDUCED, log 40.) -/
def State.crewYields (s : State) (ck : Nat) : Bool :=
  (s.ctx (s.launch (s.crew ck).launch).ctx).st == .suspended ||
    s.launches.any fun x => x.2.st == .running && s.launchCandidate x.2 && ((s.findRoom x.2).map (·.crews.contains ck)).getD false

/-- CREW_EVICTION (R338, R340, R398). -/
def execCrewEviction (ck : Nat) (s : State) : Host.Outcome State Fault Refusal :=
  if s.crewYields ck then
    match s.evictCrew ck with
    | .ok s1 => .next s1
    | .error x => .fault x
  else .next s

/-- R79, R399: an instance has to park: its context is suspended, or the dispatcher has chosen its core for a crew with a sequencer, or for an
instance of higher priority. -/
def State.instYields (s : State) (i : Inst) : Bool :=
  let l := s.launch (s.crew i.crew).launch
  (s.ctx l.ctx).st == .suspended ||
    (s.seqs.any fun x => s.instCandidate x.2 && x.2.core == i.core && l.rank < (s.launch (s.crew x.2.crew).launch).rank) ||
    s.launches.any fun x => x.2.st == .running && s.launchCandidate x.2 && x.2.seqPc != 0 && l.rank < x.2.rank &&
      ((s.findRoom x.2).map fun r => i.core / 8 == r.place.clus && r.place.occupied.contains (i.core % 8)).getD false

/-- SEQUENCER_PARK (R79, R399). -/
def execSequencerPark (k : Nat) (s : State) : Host.Outcome State Fault Refusal :=
  match s.seqs.get? k with
  | some i => if i.parkable ∧ s.instYields i then .next (s.parkInst k) else .next s
  | none => .next s

end Sys2Proof.Machine
end

