-- ==== Sys2Proof/Machine/Dispatch.lean ====
section
/-!
DEFINITION. One arm per constructor of `Instr`: a direct call of its meaning.
-/
namespace Sys2Proof.Machine

def exec (i : Instr) (s : State) : Host.Outcome State Fault Refusal :=
  match i with
  | .nop => Sys2Proof.Machine.execNop s
  | .br t => Sys2Proof.Machine.execBr t s
  | .brcNeS a t => Sys2Proof.Machine.execBrcNeS a t s
  | .brcEqS a t => Sys2Proof.Machine.execBrcEqS a t s
  | .brcAnyP b t => Sys2Proof.Machine.execBrcAnyP b t s
  | .brcAllP b t => Sys2Proof.Machine.execBrcAllP b t s
  | .brcNoneP b t => Sys2Proof.Machine.execBrcNoneP b t s
  | .brv b t j => Sys2Proof.Machine.execBrv b t j s
  | .join => Sys2Proof.Machine.execJoin s
  | .call d t => Sys2Proof.Machine.execCall d t s
  | .calli d a => Sys2Proof.Machine.execCalli d a s
  | .ret a => Sys2Proof.Machine.execRet a s
  | .jmp a e => Sys2Proof.Machine.execJmp a e s
  | .endF => Sys2Proof.Machine.execEndF s
  | .yield => Sys2Proof.Machine.execYield s
  | .brk e => Sys2Proof.Machine.execBrk e s
  | .sleep e => Sys2Proof.Machine.execSleep e s
  | .timeWaitExpiry w b => Sys2Proof.Machine.execTimeWaitExpiry w b s
  | .rgn a m => Sys2Proof.Machine.execRgn a m s
  | .add o => Sys2Proof.Machine.execAdd o s
  | .sub o => Sys2Proof.Machine.execSub o s
  | .mul o => Sys2Proof.Machine.execMul o s
  | .mulh o => Sys2Proof.Machine.execMulh o s
  | .mad o => Sys2Proof.Machine.execMad o s
  | .div o => Sys2Proof.Machine.execDiv o s
  | .rem o => Sys2Proof.Machine.execRem o s
  | .and o => Sys2Proof.Machine.execAnd o s
  | .or o => Sys2Proof.Machine.execOr o s
  | .xor o => Sys2Proof.Machine.execXor o s
  | .shl o => Sys2Proof.Machine.execShl o s
  | .shr o => Sys2Proof.Machine.execShr o s
  | .sar o => Sys2Proof.Machine.execSar o s
  | .min o => Sys2Proof.Machine.execMin o s
  | .max o => Sys2Proof.Machine.execMax o s
  | .clz ty d a => Sys2Proof.Machine.execClz ty d a s
  | .popc ty d a => Sys2Proof.Machine.execPopc ty d a s
  | .brev ty d a => Sys2Proof.Machine.execBrev ty d a s
  | .bfe ty d a pos len => Sys2Proof.Machine.execBfe ty d a pos len s
  | .bfi d a b pos len => Sys2Proof.Machine.execBfi d a b pos len s
  | .cmp cc ty d a b => Sys2Proof.Machine.execCmp cc ty d a b s
  | .sel d a b c => Sys2Proof.Machine.execSel d a b c s
  | .mov d a => Sys2Proof.Machine.execMov d a s
  | .movi d e => Sys2Proof.Machine.execMovi d e s
  | .movh d e => Sys2Proof.Machine.execMovh d e s
  | .lea d a b sh disp => Sys2Proof.Machine.execLea d a b sh disp s
  | .srd d x => Sys2Proof.Machine.execSrd d x s
  | .swrMode a => Sys2Proof.Machine.execSwrMode a s
  | .swrFlags a => Sys2Proof.Machine.execSwrFlags a s
  | .cvts src o => Sys2Proof.Machine.execCvts src o s
  | .sfadd o => Sys2Proof.Machine.execSfadd o s
  | .sfmul o => Sys2Proof.Machine.execSfmul o s
  | .sffma o => Sys2Proof.Machine.execSffma o s
  | .vadd o => Sys2Proof.Machine.execVadd o s
  | .vsub o => Sys2Proof.Machine.execVsub o s
  | .vmul o => Sys2Proof.Machine.execVmul o s
  | .vmulh o => Sys2Proof.Machine.execVmulh o s
  | .vmad o => Sys2Proof.Machine.execVmad o s
  | .vdiv o => Sys2Proof.Machine.execVdiv o s
  | .vand o => Sys2Proof.Machine.execVand o s
  | .vor o => Sys2Proof.Machine.execVor o s
  | .vxor o => Sys2Proof.Machine.execVxor o s
  | .vshl o => Sys2Proof.Machine.execVshl o s
  | .vshr o => Sys2Proof.Machine.execVshr o s
  | .vsar o => Sys2Proof.Machine.execVsar o s
  | .vmin o => Sys2Proof.Machine.execVmin o s
  | .vmax o => Sys2Proof.Machine.execVmax o s
  | .vabs o => Sys2Proof.Machine.execVabs o s
  | .vbfe o => Sys2Proof.Machine.execVbfe o s
  | .vbfi o => Sys2Proof.Machine.execVbfi o s
  | .vclz o => Sys2Proof.Machine.execVclz o s
  | .vpopc o => Sys2Proof.Machine.execVpopc o s
  | .fadd o => Sys2Proof.Machine.execFadd o s
  | .fsub o => Sys2Proof.Machine.execFsub o s
  | .fmul o => Sys2Proof.Machine.execFmul o s
  | .ffma o => Sys2Proof.Machine.execFfma o s
  | .fdiv o => Sys2Proof.Machine.execFdiv o s
  | .fsqrt o => Sys2Proof.Machine.execFsqrt o s
  | .frcp o => Sys2Proof.Machine.execFrcp o s
  | .frsq o => Sys2Proof.Machine.execFrsq o s
  | .fldexp o => Sys2Proof.Machine.execFldexp o s
  | .frint o => Sys2Proof.Machine.execFrint o s
  | .fmin o => Sys2Proof.Machine.execFmin o s
  | .fmax o => Sys2Proof.Machine.execFmax o s
  | .fclass o => Sys2Proof.Machine.execFclass o s
  | .fdot2 o => Sys2Proof.Machine.execFdot2 o s
  | .fcmp o => Sys2Proof.Machine.execFcmp o s
  | .fexp2 o => Sys2Proof.Machine.execFexp2 o s
  | .flog2 o => Sys2Proof.Machine.execFlog2 o s
  | .fsin o => Sys2Proof.Machine.execFsin o s
  | .fcos o => Sys2Proof.Machine.execFcos o s
  | .fact g rnd sat d a b => Sys2Proof.Machine.execFact g rnd sat d a b s
  | .actflip => Sys2Proof.Machine.execActflip s
  | .activationBankFlip core => Sys2Proof.Machine.execActivationBankFlip core s
  | .cvt o => Sys2Proof.Machine.execCvt o s
  | .pack o => Sys2Proof.Machine.execPack o s
  | .unpack o => Sys2Proof.Machine.execUnpack o s
  | .dxq o => Sys2Proof.Machine.execDxq o s
  | .dxd o => Sys2Proof.Machine.execDxd o s
  | .fdp4 o => Sys2Proof.Machine.execFdp4 o s
  | .vmov o => Sys2Proof.Machine.execVmov o s
  | .vbcast g ty d a => Sys2Proof.Machine.execVbcast g ty d a s
  | .vperm o => Sys2Proof.Machine.execVperm o s
  | .vshflUp o n => Sys2Proof.Machine.execVshflUp o n s
  | .vshflDown o n => Sys2Proof.Machine.execVshflDown o n s
  | .vshflXor o n => Sys2Proof.Machine.execVshflXor o n s
  | .vshflIdx o => Sys2Proof.Machine.execVshflIdx o s
  | .vred o => Sys2Proof.Machine.execVred o s
  | .vscan o => Sys2Proof.Machine.execVscan o s
  | .vmovrel o => Sys2Proof.Machine.execVmovrel o s
  | .vstrel o => Sys2Proof.Machine.execVstrel o s
  | .vcmp g cc ty d a b => Sys2Proof.Machine.execVcmp g cc ty d a b s
  | .vsel g ty d a b c => Sys2Proof.Machine.execVsel g ty d a b c s
  | .plop g d a b t => Sys2Proof.Machine.execPlop g d a b t s
  | .ppopc g d a => Sys2Proof.Machine.execPpopc g d a s
  | .pfirst g d a => Sys2Proof.Machine.execPfirst g d a s
  | .pballot g d a b => Sys2Proof.Machine.execPballot g d a b s
  | .pfrom g d a b => Sys2Proof.Machine.execPfrom g d a b s
  | .vlid g d => Sys2Proof.Machine.execVlid g d s
  | .ldg o => Sys2Proof.Machine.execLdg o s
  | .stg o => Sys2Proof.Machine.execStg o s
  | .ldl o => Sys2Proof.Machine.execLdl o s
  | .stl o => Sys2Proof.Machine.execStl o s
  | .lds ty hnt d a imm => Sys2Proof.Machine.execLds ty hnt d a imm s
  | .sts ty hnt c a imm => Sys2Proof.Machine.execSts ty hnt c a imm s
  | .pfg g am hnt a b imm => Sys2Proof.Machine.execPfg g am hnt a b imm s
  | .cinv a b imm => Sys2Proof.Machine.execCinv a b imm s
  | .wopen k => Sys2Proof.Machine.execWopen k s
  | .wclose k => Sys2Proof.Machine.execWclose k s
  | .wflush k => Sys2Proof.Machine.execWflush k s
  | .winv k => Sys2Proof.Machine.execWinv k s
  | .ldgs g ty hnt rf d a b imm => Sys2Proof.Machine.execLdgs g ty hnt rf d a b imm s
  | .windowFill crew k blk => Sys2Proof.Machine.execWindowFill crew k blk s
  | .atom o => Sys2Proof.Machine.execAtom o s
  | .atomc o => Sys2Proof.Machine.execAtomc o s
  | .red o => Sys2Proof.Machine.execRed o s
  | .atoml o => Sys2Proof.Machine.execAtoml o s
  | .fence ord sc => Sys2Proof.Machine.execFence ord sc s
  | .cpy o => Sys2Proof.Machine.execCpy o s
  | .cpys o => Sys2Proof.Machine.execCpys o s
  | .cpyg o => Sys2Proof.Machine.execCpyg o s
  | .cpyw o sparse => Sys2Proof.Machine.execCpyw o sparse s
  | .cpcommit d => Sys2Proof.Machine.execCpcommit d s
  | .cpwait a => Sys2Proof.Machine.execCpwait a s
  | .cpact a => Sys2Proof.Machine.execCpact a s
  | .copySegment copy seg => Sys2Proof.Machine.execCopySegment copy seg s
  | .mma o => Sys2Proof.Machine.execMma o s
  | .mmag o => Sys2Proof.Machine.execMmag o s
  | .mzero d => Sys2Proof.Machine.execMzero d s
  | .mload ty d xa rs => Sys2Proof.Machine.execMload ty d xa rs s
  | .mdrain o => Sys2Proof.Machine.execMdrain o s
  | .mdrainx ty rnd sat d q => Sys2Proof.Machine.execMdrainx ty rnd sat d q s
  | .mrsc ty d xa => Sys2Proof.Machine.execMrsc ty d xa s
  | .maffl d xa xb rs => Sys2Proof.Machine.execMaffl d xa xb rs s
  | .mscan d c => Sys2Proof.Machine.execMscan d c s
  | .mcarLoad d xa => Sys2Proof.Machine.execMcarLoad d xa s
  | .mcarStore d xa => Sys2Proof.Machine.execMcarStore d xa s
  | .mcarReset d => Sys2Proof.Machine.execMcarReset d s
  | .matrixCommit core => Sys2Proof.Machine.execMatrixCommit core s
  | .sloop n => Sys2Proof.Machine.execSloop n s
  | .sloopInd xa => Sys2Proof.Machine.execSloopInd xa s
  | .sendl => Sys2Proof.Machine.execSendl s
  | .sadr d off perCore => Sys2Proof.Machine.execSadr d off perCore s
  | .sinc d t e => Sys2Proof.Machine.execSinc d t e s
  | .sbarr off => Sys2Proof.Machine.execSbarr off s
  | .sbwait off ph l => Sys2Proof.Machine.execSbwait off ph l s
  | .scpy d a len kind ty => Sys2Proof.Machine.execScpy d a len kind ty s
  | .shint n => Sys2Proof.Machine.execShint n s
  | .rampDown core => Sys2Proof.Machine.execRampDown core s
  | .saud e => Sys2Proof.Machine.execSaud e s
  | .sfin off => Sys2Proof.Machine.execSfin off s
  | .auditReplay task clus sig => Sys2Proof.Machine.execAuditReplay task clus sig s
  | .auditVerdict task => Sys2Proof.Machine.execAuditVerdict task s
  | .orient2 o => Sys2Proof.Machine.execOrient2 o s
  | .orient3 o => Sys2Proof.Machine.execOrient3 o s
  | .incirc o => Sys2Proof.Machine.execIncirc o s
  | .insph o => Sys2Proof.Machine.execInsph o s
  | .segx o => Sys2Proof.Machine.execSegx o s
  | .predicateCommit core => Sys2Proof.Machine.execPredicateCommit core s
  | .gstat clr d n => Sys2Proof.Machine.execGstat clr d n s
  | .bari a b => Sys2Proof.Machine.execBari a b s
  | .bara d a k => Sys2Proof.Machine.execBara d a k s
  | .barx a b => Sys2Proof.Machine.execBarx a b s
  | .barw a b => Sys2Proof.Machine.execBarw a b s
  | .barwFlag d a b => Sys2Proof.Machine.execBarwFlag d a b s
  | .flagPoll w b => Sys2Proof.Machine.execFlagPoll w b s
  | .bart d a => Sys2Proof.Machine.execBart d a s
  | .grpa g => Sys2Proof.Machine.execGrpa g s
  | .grpe d g => Sys2Proof.Machine.execGrpe d g s
  | .grpvAnd d a g => Sys2Proof.Machine.execGrpvAnd d a g s
  | .grpvOr d a g => Sys2Proof.Machine.execGrpvOr d a g s
  | .grpvAdd d a g => Sys2Proof.Machine.execGrpvAdd d a g s
  | .qxfer d a k => Sys2Proof.Machine.execQxfer d a k s
  | .wprio d e => Sys2Proof.Machine.execWprio d e s
  | .enq d a q => Sys2Proof.Machine.execEnq d a q s
  | .enqPublish w b => Sys2Proof.Machine.execEnqPublish w b s
  | .qpost a q => Sys2Proof.Machine.execQpost a q s
  | .qwait d a q => Sys2Proof.Machine.execQwait d a q s
  | .fsopen d a => Sys2Proof.Machine.execFsopen d a s
  | .fsclose a => Sys2Proof.Machine.execFsclose a s
  | .fswait a => Sys2Proof.Machine.execFswait a s
  | .lpost o => Sys2Proof.Machine.execLpost o s
  | .lsend o => Sys2Proof.Machine.execLsend o s
  | .lpoll d a recv => Sys2Proof.Machine.execLpoll d a recv s
  | .lqpQuery d a => Sys2Proof.Machine.execLqpQuery d a s
  | .lqpReset d a => Sys2Proof.Machine.execLqpReset d a s
  | .lqpInit d a => Sys2Proof.Machine.execLqpInit d a s
  | .lqpReady d a => Sys2Proof.Machine.execLqpReady d a s
  | .pkrd d a b imm => Sys2Proof.Machine.execPkrd d a b imm s
  | .pkwr d a b c imm => Sys2Proof.Machine.execPkwr d a b c imm s
  | .pkclr d a b => Sys2Proof.Machine.execPkclr d a b s
  | .pkres d a => Sys2Proof.Machine.execPkres d a s
  | .pkret d a => Sys2Proof.Machine.execPkret d a s
  | .pkredir d a b => Sys2Proof.Machine.execPkredir d a b s
  | .pkkill d a => Sys2Proof.Machine.execPkkill d a s
  | .pgmap d a b c ctx sz => Sys2Proof.Machine.execPgmap d a b c ctx sz s
  | .pgunmap d a ctx sz => Sys2Proof.Machine.execPgunmap d a ctx sz s
  | .pginv a b ctx => Sys2Proof.Machine.execPginv a b ctx s
  | .shootdown id => Sys2Proof.Machine.execShootdown id s
  | .mdrd d e => Sys2Proof.Machine.execMdrd d e s
  | .mdwr a e => Sys2Proof.Machine.execMdwr a e s
  | .flrd d e => Sys2Proof.Machine.execFlrd d e s
  | .flclr d e => Sys2Proof.Machine.execFlclr d e s
  | .clkrd d => Sys2Proof.Machine.execClkrd d s
  | .ctxrd d sel ctx => Sys2Proof.Machine.execCtxrd d sel ctx s
  | .lineFetch w b => Sys2Proof.Machine.execLineFetch w b s
  | .fragmentAged w b => Sys2Proof.Machine.execFragmentAged w b s
  | .budgetExhausted seq w => Sys2Proof.Machine.execBudgetExhausted seq w s
  | .pageWalk core ctx va k => Sys2Proof.Machine.execPageWalk core ctx va k s
  | .snapshotCopy ctx va => Sys2Proof.Machine.execSnapshotCopy ctx va s
  | .getS die line => Sys2Proof.Machine.execGetS die line s
  | .getM die line => Sys2Proof.Machine.execGetM die line s
  | .writeMerge line mask data => Sys2Proof.Machine.execWriteMerge line mask data s
  | .homeAtomic pa op ty v => Sys2Proof.Machine.execHomeAtomic pa op ty v s
  | .putM die line => Sys2Proof.Machine.execPutM die line s
  | .forwardedRequest line => Sys2Proof.Machine.execForwardedRequest line s
  | .invalidateWithWriteback die line => Sys2Proof.Machine.execInvalidateWithWriteback die line s
  | .directoryRecovery line => Sys2Proof.Machine.execDirectoryRecovery line s
  | .hostMemoryAccess pa write => Sys2Proof.Machine.execHostMemoryAccess pa write s
  | .unitReclaim clus unit => Sys2Proof.Machine.execUnitReclaim clus unit s
  | .doorbell ctx q t => Sys2Proof.Machine.execDoorbell ctx q t s
  | .tailWrite ctx q t => Sys2Proof.Machine.execTailWrite ctx q t s
  | .slotReread ctx q => Sys2Proof.Machine.execSlotReread ctx q s
  | .packetConsume ctx q => Sys2Proof.Machine.execPacketConsume ctx q s
  | .markerComplete l => Sys2Proof.Machine.execMarkerComplete l s
  | .queueEnable ctx q => Sys2Proof.Machine.execQueueEnable ctx q s
  | .queueStop ctx q => Sys2Proof.Machine.execQueueStop ctx q s
  | .queueStart ctx q => Sys2Proof.Machine.execQueueStart ctx q s
  | .queueDisable ctx q => Sys2Proof.Machine.execQueueDisable ctx q s
  | .dispatcherChoice die => Sys2Proof.Machine.execDispatcherChoice die s
  | .launchDispatch l => Sys2Proof.Machine.execLaunchDispatch l s
  | .crewPlacement l clus unit cores => Sys2Proof.Machine.execCrewPlacement l clus unit cores s
  | .waveRetire w => Sys2Proof.Machine.execWaveRetire w s
  | .waveRestore w core slot => Sys2Proof.Machine.execWaveRestore w core slot s
  | .sequencerPark inst => Sys2Proof.Machine.execSequencerPark inst s
  | .sequencerRestore inst => Sys2Proof.Machine.execSequencerRestore inst s
  | .crewEviction c => Sys2Proof.Machine.execCrewEviction c s
  | .crewRestore c => Sys2Proof.Machine.execCrewRestore c s
  | .launchComplete l => Sys2Proof.Machine.execLaunchComplete l s
  | .launchReplay l => Sys2Proof.Machine.execLaunchReplay l s
  | .launchKill l => Sys2Proof.Machine.execLaunchKill l s
  | .adjournmentRecord n => Sys2Proof.Machine.execAdjournmentRecord n s
  | .taskMessage qp n => Sys2Proof.Machine.execTaskMessage qp n s
  | .dispositionMessage qp n => Sys2Proof.Machine.execDispositionMessage qp n s
  | .dataPacketReceive f => Sys2Proof.Machine.execDataPacketReceive f s
  | .acknowledgementReceive f => Sys2Proof.Machine.execAcknowledgementReceive f s
  | .holdReceive f => Sys2Proof.Machine.execHoldReceive f s
  | .sendTimeout qp msn => Sys2Proof.Machine.execSendTimeout qp msn s
  | .contextCreate c desc => Sys2Proof.Machine.execContextCreate c desc s
  | .contextActivate c => Sys2Proof.Machine.execContextActivate c s
  | .contextSuspend c => Sys2Proof.Machine.execContextSuspend c s
  | .contextResume c => Sys2Proof.Machine.execContextResume c s
  | .contextDestroy c => Sys2Proof.Machine.execContextDestroy c s
  | .contextClearFault c => Sys2Proof.Machine.execContextClearFault c s
  | .contextFree c => Sys2Proof.Machine.execContextFree c s
  | .c0descWrite v => Sys2Proof.Machine.execC0descWrite v s
  | .jbaseWrite v => Sys2Proof.Machine.execJbaseWrite v s
  | .qptabWrite v => Sys2Proof.Machine.execQptabWrite v s
  | .errstWrite v => Sys2Proof.Machine.execErrstWrite v s
  | .partitionWrite p off v => Sys2Proof.Machine.execPartitionWrite p off v s
  | .controlRegisterWrite off size v => Sys2Proof.Machine.execControlRegisterWrite off size v s
  | .attestationRequest nonce v => Sys2Proof.Machine.execAttestationRequest nonce v s
  | .ageingCheck island slack => Sys2Proof.Machine.execAgeingCheck island slack s
  | .powerUpdate watts cap lift => Sys2Proof.Machine.execPowerUpdate watts cap lift s
  | .coreQuarantine core => Sys2Proof.Machine.execCoreQuarantine core s
  | .reset verified images => Sys2Proof.Machine.execReset verified images s
  | .silentEviction die line => Sys2Proof.Machine.execSilentEviction die line s
  | .l1LineEviction core line => Sys2Proof.Machine.execL1LineEviction core line s
  | .deadlineMiss l => Sys2Proof.Machine.execDeadlineMiss l s

end Sys2Proof.Machine
end

