-- ==== Sys2Proof/Machine/Issue.lean ====
section
/-!
DEFINITION. The issue of one instruction or one pair by a fragment, and of one instruction by a sequencer (R98 to R100, R102,
R109, R136, R385, R394), and the turns.
-/
namespace Sys2Proof.Machine

/-- R98: destination and vector registers that a half reads, or none if it may not pair. -/
structure PairHalf where
  pred : Bool
  d : Nat
  guard : Option Nat
  reads : List Nat

/-- R98: a half that may pair, by its fields alone. -/
def pairHalf (f : Fields) : Option PairHalf :=
  let cls := bits f.op 4 4
  let fn := f.fn.toNat
  if cls != 3 && cls != 4 then none
  else if (match tyOf f.ty.toNat with | some t => t.width | none => 0) > 32 then none
  else if (cls == 3 && fn == 0x05) || (cls == 4 && (fn == 0x09 || fn == 0x0A)) then none
  else
    let unary := if cls == 3 then [0x0E, 0x11, 0x12].contains fn else [0x07, 0x08, 0x0A, 0x0B, 0x0C].contains fn
    let three := if cls == 3 then [0x04, 0x0F, 0x10].contains fn else fn == 0x03
    some { pred := cls == 4 && 0x10 ≤ fn && fn ≤ 0x17, d := f.d.toNat,
           guard := if f.g == 15 && f.gn == 0 then none else some f.g.toNat,
           reads := f.a.toNat :: ((if bits f.op 0 4 == 0 && !unary then [f.b.toNat] else []) ++
             (if three then [f.c.toNat] else [])) }

/-- R98: one half does not depend on the other's destination. -/
def PairHalf.indep (x y : PairHalf) : Bool := if y.pred then x.guard != some y.d else !x.reads.contains y.d

/-- R98: the pair is legal. -/
def pairOk (x y : Fields) : Bool :=
  match pairHalf x, pairHalf y with
  | some a, some b =>
    let regs := (a.reads ++ b.reads).dedup
    !(a.pred == b.pred && a.d == b.d) && a.indep b && b.indep a && regs.length ≤ 3 &&
      (regs.filter fun r => r % 2 == 0).length ≤ 2 && (regs.filter fun r => r % 2 == 1).length ≤ 2
  | _, _ => false

/-- The report with which a step adjourned a wave, if it did. -/
def newReport (k : Nat) (s s1 : State) : Option Report :=
  ((s1.detached.drop s.detached.length).find? fun d => d.work == .wave k).map (·.report)

/-- R100, R109: the causes of two halves together, at the first slot. A half that fails its decode checks stands before causes of
execution. Where both halves meet REGECC, DETAIL is the OR of theirs. (DESIGN CHOICE, log 49.) -/
def Report.merge (x y : Report) (pc : W64) : Report :=
  let ill (r : Report) : Bool := r.causes &&& cILL != 0
  if ill x then { x with pc }
  else if ill y then { y with pc }
  else { x with causes := x.causes ||| y.causes, fmask := x.fmask ||| y.fmask, detail := x.detail ||| y.detail, pc }

/-- One word of a wave's stream: decoded and executed, or ILL (R102, R108). -/
def issueWord (w : BitVec 96) (h : Here) (s : State) : Host.Outcome State Fault Refusal :=
  if !waveStream w then h.finish (h.settle s (.error (.trap (h.report cILL) s)))
  else
    match decode w with
    | .ok i => exec i s
    | .error _ => h.finish (h.settle s (.error (.trap (h.report cILL) s)))

/-- The fragment after a step stands where it did. -/
def Here.unmoved (h : Here) (s : State) : Bool := (s.fragment h.key h.side).map (·.f.pc) == some h.f.pc

/-- R43: Z as a word leaves it where nothing traps, for a fragment. -/
def Here.stepped (h : Here) (w : BitVec 96) (s : State) : W32 :=
  match issueWord w h (s.putWave h.key { h.w with bad := [], mode := h.w.mode &&& ~~~0x3E0#32 }) with
  | .next s1 => ((s1.fragment h.key h.side).map (·.f.z)).getD h.f.z
  | _ => h.f.z

/-- R43, R99: the state in which the causes of the second half are judged where the first has met one: Z has been stepped by it. -/
def Here.afterFirst (h : Here) (w : BitVec 96) (s : State) : State :=
  s.putWave h.key (h.w.setFrag h.side (some { h.f with z := h.stepped w s }))

/-- R99, R100: a pair takes its whole effect, first half first, or none; a half that is kept at issue keeps the whole pair there. -/
def issuePair (w1 w2 : BitVec 96) (h : Here) (s : State) : Host.Outcome State Fault Refusal :=
  if !pairOk (fieldsOf w1) (fieldsOf w2) then h.finish (h.settle s (.error (.trap (h.report cBADPAIR) s)))
  else
    match issueWord w1 h s with
    | .next s1 =>
      match newReport h.key s s1 with
      | some r1 =>
        match issueWord w2 h (h.afterFirst w1 s) with
        | .next s2 =>
          match newReport h.key s s2 with
          | some r2 => .next (s.adjourn h.key h.side (r1.merge r2 (h.f.pc.setWidth 64)))
          | none => if h.unmoved s2 then .next s else .next (s.adjourn h.key h.side r1)
        | x => x
      | none =>
        if h.unmoved s1 then .next s
        else
          match s1.fragment h.key h.side with
          | none => .next s1
          | some h1 =>
            match issueWord w2 h1 s1 with
            | .next s2 =>
              match newReport h.key s1 s2 with
              | some r2 => .next (s.adjourn h.key h.side { r2 with pc := h.f.pc.setWidth 64 })
              | none => if h1.unmoved s2 then .next s else .next s2
            | x => x
    | x => x

/-- R377: the watch of a retry that is over, at an issue from a PC. -/
def watchOver (watch : Option (W64 × Pc × Nat)) (pc : Pc) (core : Nat) : Bool :=
  match watch with
  | some (_, p, k) => p != pc || k != core
  | none => false

/-- The fragment has issued in a turn: it is gone, or it stands elsewhere, or it has entered a wait inside its instruction. A hold at
issue and the test of a wait are no issue (R383, R390). -/
def Here.hasIssued (h : Here) (s1 : State) : Bool :=
  match s1.fragment h.key h.side with
  | none => true
  | some g => g.f.pc != h.f.pc || g.f.fetch != h.f.fetch || g.f.owned != h.f.owned || g.f.enq != h.f.enq ||
      (g.f.wait != h.f.wait && g.f.wait != .none && g.f.wait != .hidden)

/-- R385, R386, R394: a fragment that has issued is the last of its wave and the latest of its core; every other one there has gone
one issue longer without. -/
def State.noteIssue (s : State) (h : Here) (yields : Bool) : State :=
  { s with waves := s.waves.map fun x => if x.2.core == h.w.core then
      let turn (side : Bool) (f : Fragment) : Fragment :=
        if x.1 = h.key ∧ side = h.side then { f with age := 0, aged := false, idle := 0, yielded := yields }
        else { f with idle := f.idle + 1, yielded := false }
      (x.1, { x.2 with fa := x.2.fa.map (turn false), fb := x.2.fb.map (turn true)
                       issuedB := if x.1 = h.key then h.side else x.2.issuedB })
    else x }

/-- R377: a retry that has passed its instruction, since its fragment issues from another PC, is classified. -/
def State.passedBy (s : State) (h : Here) : State :=
  match s.waves.get? h.key with
  | some w =>
    if h.f.id == w.watchId && watchOver h.w.watch h.f.pc h.w.core then
      (s.putWave h.key { w with watch := none }).passes h.w.core h.w.watch
    else s
  | none => s

/-- R377: the same for an instance. -/
def State.noteSeqIssue (s : State) (k : Nat) : State :=
  match s.seqs.get? k with
  | some i =>
    if watchOver i.watch i.pc i.core then (s.putInst k { i with watch := none }).passes i.core i.watch else s
  | none => s

/-- A fragment that holds its line issues the instruction or pair at its PC. -/
def issueHeld (h : Here) (l : CodeLine) (s : State) : Host.Outcome State Fault Refusal :=
  let slot := slotOf h.f.pc
  if h.w.held h.side h.f then .next s
  else if linePair l slot then issuePair (lineWord l slot) (lineWord l (slot + 1)) h s
  else issueWord (lineWord l slot) h s

/-- What an issue leaves beside the instruction's effect. -/
def Here.after (h : Here) : Host.Outcome State Fault Refusal → Host.Outcome State Fault Refusal
  | .next s => if h.hasIssued s then .next ((s.noteIssue h (h.f.instr? == some .yield)).passedBy h) else .next s
  | x => x

/-- One issue opportunity of a fragment: budget, arrival, entry into its line, the pick of the issue stage, then its instruction. -/
def issueTurn (k : Nat) (side : Bool) (s0 : State) : Host.Outcome State Fault Refusal :=
  match s0.fragment k side with
  | none => .next s0
  | some h0 =>
    if h0.w.budget = 0 then .next (s0.budgetOut k)
    else if h0.f.arrived then h0.finish (h0.settle s0 (h0.arrive s0))
    else
      match h0.enterLine s0 with
      | .error a => h0.finish (h0.settle s0 (.error a))
      | .ok s1 =>
        let s2 := { s1 with cur := some (.frag k side) }
        match s2.fragment k side with
        | some h =>
          match h.f.fetch with
          | .line l => if h.f.wait = .none ∧ s2.outranked k side h then .next s2 else h.after (issueHeld h l s2)
          | _ => .next s2
        | none => .next s2

/-- R425: the record of two fragments of a wave that meet causes together: the second one's are added, and OTHER is set. -/
def Report.addOther (x y : Report) : Report :=
  { x with causes := x.causes ||| y.causes, fmask := x.fmask ||| y.fmask, lanes := y.lanes.foldl (fun c l => c.write l.1 l.2) x.lanes,
           other := true }

/-- R425: both fragments of a wave have issued, and both instructions meet a cause, that of `side` first: the wave gets one record.
Where they do not both meet one, the two issue one after another in turns of their own, and nothing happens here. -/
def issueBoth (k : Nat) (side : Bool) (s : State) : Host.Outcome State Fault Refusal :=
  match s.fragment k side, s.fragment k (!side) with
  | some f, some g =>
    if f.w.budget = 0 ∨ !f.f.fetched ∨ !g.f.fetched ∨ f.f.arrived ∨ g.f.arrived then .next s
    else
      match issueTurn k (!side) s with
      | .next s1 =>
        match newReport k s s1 with
        | none => .next s
        | some r2 =>
          -- the other fragment stands at its faulting instruction while this one meets its cause
          let w := f.w.setFrag (!side) (some { g.f with pc := r2.pc.setWidth 56, fetch := .none })
          let s2 := { s1 with waves := s1.waves.put k w, detached := s.detached ++ (s1.detached.drop s.detached.length).filter (·.work != .wave k) }
          match issueTurn k side s2 with
          | .next s3 =>
            match newReport k s2 s3 with
            | none => .next s
            | some _ => .next { s3 with detached := s3.detached.zipIdx.map fun (d : Detached × Nat) =>
                if s2.detached.length ≤ d.2 ∧ d.1.work = .wave k then { d.1 with report := d.1.report.addOther r2 } else d.1 }
          | x => x
      | x => x
  | _, _ => .next s

/-- One issue opportunity of a sequencer instance. -/
def seqIssueTurn (k : Nat) (s0 : State) : Host.Outcome State Fault Refusal :=
  match { s0 with cur := some (.seq k) }.seqHere with
  | none => .next s0
  | some h0 =>
    if h0.i.budget = 0 then
      if h0.i.ops = [] then .next (s0.adjournInst k (h0.report cBUDGET)) else .next s0
    else
      match h0.enterLine s0 with
      | .error a => h0.finish s0 (.error a)
      | .ok s1 =>
        let s2 := { (s1.noteSeqIssue k) with cur := some (.seq k), seqs := (s1.noteSeqIssue k).seqs.modify k fun i => { i with steps := i.steps + 1 } }
        match s2.seqHere with
        | some h =>
          match h.i.fetch with
          | .line l =>
            let w := lineWord l (slotOf h.i.pc)
            if !seqStream w then h.finish s2 (.error (.trap (h.report cILL) s2))
            else
              match decode w with
              | .ok i => exec i s2
              | .error _ => h.finish s2 (.error (.trap (h.report cILL) s2))
          | _ => .next s2
        | none => .next s2

/-- Errors of stored data and of delivery. (DESIGN CHOICE, log 46.) -/
def State.upset (s : State) : Upset → State
  | .poison line => s.setMem { s.mem with poison := if s.mem.poison.contains line then s.mem.poison else line :: s.mem.poison }
  | .register w code => { s with waves := s.waves.modify w fun x => { x with bad := x.bad ++ [code] } }
  | .accumulator i code => { s with seqs := s.seqs.modify i fun x => { x with bad := x.bad ++ [code] } }
  | .store kind word => { s with stores := { s.stores with bad := s.stores.bad ++ [(kind, word)] } }
  | .fetch core line => { s with stores := { s.stores with badFetch := s.stores.badFetch ++ [(core, line)] } }
  | .directory line => s.setMem { s.mem with dirBad := s.mem.dirBad ++ [line] }
  | .l1 core line => (s.setMem { s.mem with l1 := s.mem.l1.erase (l1Key core line) }).count 3
  | .corrected e => if e = 0 ∨ e = 1 ∨ e = 13 then s.count e else s

/-- R478: a device that stays in reset does nothing but leave it. -/
def Turn.inReset : Turn → Bool
  | .event (.reset _ _) => true
  | _ => false

/-- R228, R233, R268: the line of a load that is still to issue is read into the L1. -/
def State.prefetch (s : State) (core ctx va : Nat) : State :=
  match s.translate core ctx va .read with
  | (s1, .ok pa) =>
    if s1.poisoned (pa / 128) then s1 else (s1.coreLine core (pa / 128) true).1.tagL1 core ctx [⟨va, pa, 1⟩]
  | _ => s

/-- The event of a unit. (DESIGN CHOICE, log 11.) -/
def dutyTurn (s : State) : Duty → Host.Outcome State Fault Refusal
  | .choice die => execDispatcherChoice die s
  | .loaded w => .next (s.loaded w)
  | .retire w => execWaveRetire w s
  | .complete l => execLaunchComplete l s
  | .deadline l => execDeadlineMiss l s
  | .record n => execAdjournmentRecord n s
  | .task qp n => execTaskMessage qp n s
  | .disposition qp n => execDispositionMessage qp n s
  | .timeout qp n => execSendTimeout qp n s
  | .free c => execContextFree c s
  | .quarantine core => execCoreQuarantine core s
  | .replay l => execLaunchReplay l s
  | .evict c => execCrewEviction c s
  | .restore c => execCrewRestore c s
  | .park i => execSequencerPark i s
  | .perform tok => .next (s.settle fun (p : Post) => p.tok == tok)
  | .copyBytes copy seg mask => s.copyBytes copy seg mask
  | .drainBytes inst mask => s.drainBytes inst mask
  | .fill core ctx va => .next (s.prefetch core ctx va)
  | .windows crew => .next { s with crews := s.crews.modify crew Crew.dropStale }
  | .replace n => .next (s.setMem { s.mem with tlb := s.mem.tlb.eraseIdx n })

/-- One turn. An instruction of a stream is no event, and as an event it changes nothing. (DESIGN CHOICE, log 11.) -/
def turn (t : Turn) (s : State) : Host.Outcome State Fault Refusal :=
  if s.health.inReset && !t.inReset then .next s
  else
  match t with
  | .issue w side => issueTurn w side s
  | .issueBoth w side => issueBoth w side s
  | .seqIssue i => seqIssueTurn i s
  | .event i => if (encodeFields i).isSome then .next s else exec i { s with cur := none }
  | .duty d => dutyTurn { s with cur := none } d
  | .elapse ns => .next { s with clk := s.clk + ns }
  | .cycle core => .next (s.cycle core)
  | .upset u => .next (s.upset u)
  | .hostRead off size => .next (s.hostRead off size)

/-- R235, R240: every store that has issued is performed, and no window keeps a word that another agent has written: at the latest when CLK
passes a multiple of 4,096. (DESIGN CHOICE, log 3.) -/
def State.performAll (s : State) : State :=
  let s1 := s.settle fun _ => true
  { s1 with crews := s1.crews.map fun (x : Nat × Crew) => (x.1, x.2.dropStale) }

/-- What follows every turn: cores that their owner has left are cleared (R257), flag waits see what a home has written, or at every
4,096 ns what every agent sees (R390, R400), and the dispatchers see which contexts have candidates (R397). When time has passed, deadlines
may have (R395). -/
def State.afterTurn (s0 s : State) : State :=
  let late := s0.clk.toNat / 4096 != s.clk.toNat / 4096
  let s1 := (if late then s.performAll else s).tidyOwners.seeFlags late
  (if s0.clk = s.clk then s1 else s1.missDeadlines).seeAllGains

/-- A turn taken in `s`, and what follows it: when time has passed, the dispatchers read the slots that they are to read again, and every
slot at every 4,096 ns (R352). -/
def State.turned (s : State) : Host.Outcome State Fault Refusal → Host.Outcome State Fault Refusal
  | .next s1 =>
    let s2 := s.afterTurn s1
    if s.clk = s1.clk then .next s2 else State.rereads (s.clk.toNat / 4096 != s1.clk.toNat / 4096) s2.queues s2
  | x => x

/-- One turn and what follows it. -/
def fullTurn (t : Turn) (s : State) : Host.Outcome State Fault Refusal := s.turned (turn t s)

/-- The turns that a fragment of a wave could take now: its issue, the end of a wait that is tested at its core, and its ageing. -/
def fragmentTurns (k : Nat) (side : Bool) (f : Fragment) : List Turn :=
  let wait : List Turn := match f.wait with
    | .time _ => [.event (.timeWaitExpiry k side)]
    | .flag _ _ => [.event (.flagPoll k side)]
    | .qspace _ _ => [.event (.enqPublish k side)]
    | _ => []
  .issue k side :: .issueBoth k side :: (if 256 ≤ f.age then .event (.fragmentAged k side) :: wait else wait)

/-- The turns of the engines of the cores, of the page walkers and of the queues. -/
def State.engineTurns (s : State) : List Turn :=
  let copies : List Turn := s.copies.flatMap fun x =>
    ((List.range x.2.segs.length).filter fun g => !x.2.done.contains g).map fun g => .event (.copySegment x.1 g)
  let commits : List Turn := (s.seqs.filter fun x => x.2.ops != []).map fun x => .event (.matrixCommit x.2.core)
  let ramps : List Turn := (s.seqs.filter fun x => x.2.ramp != 0).map fun x => .event (.rampDown x.2.core)
  let preds : List Turn := s.stores.preds.map fun x => .event (.predicateCommit x.1)
  let flips : List Turn := s.stores.flips.map fun x => .event (.activationBankFlip x.1)
  let fills : List Turn := s.crews.flatMap fun x => x.2.fills.map fun b => .event (.windowFill x.1 b.1 b.2)
  let shoots : List Turn := s.mem.shoots.map fun x => .event (.shootdown x.1)
  let snaps : List Turn := s.mem.snaps.map fun x => .event (.snapshotCopy x.1 (BitVec.ofNat 64 x.2))
  let audits : List Turn := s.samples.map fun x => .event (.auditVerdict x.1)
  let stores : List Turn := s.mem.posts.map fun x => .duty (.perform x.tok)
  let parts : List Turn := (s.copies.flatMap fun x => ((List.range x.2.segs.length).filter fun g => !x.2.done.contains g).map fun g =>
    .duty (.copyBytes x.1 g (Config.choice (s.draw + 1)))) ++ (s.seqs.filter fun x => x.2.ops != []).map fun x =>
    .duty (.drainBytes x.1 (Config.choice (s.draw + 1)))
  let loads : List Turn := s.waves.map fun x => .duty (.fill x.2.core (s.ctxOf x.2) (Config.choice (s.draw + 1)))
  let words : List Turn := (s.crews.filter fun x => x.2.stale != []).map fun x => .duty (.windows x.1)
  let entries : List Turn := (List.range s.mem.tlb.length).map fun n => .duty (.replace n)
  let packets : List Turn := (s.queues.filter fun x => x.2.st != .disabled).map fun x => .event (.packetConsume (x.1 / 64) (x.1 % 64))
  let marks : List Turn := (s.launches.filter fun x => x.2.marker).map fun x => .event (.markerComplete x.1)
  [copies, commits, ramps, preds, flips, fills, shoots, snaps, audits, stores, parts, loads, words, entries, packets, marks].flatten

/-- The turns of the dispatchers, the Arbiters, the link engines and the firmware. -/
def State.unitTurns (s : State) : List Turn :=
  let live := s.launches.filter fun x => !x.2.marker
  let choices : List Turn := if live.isEmpty then [] else (List.range 8).map fun d => .duty (.choice d)
  let ends : List Turn := (s.waves.filter fun x => x.2.status == .retired).map fun x => .duty (.retire x.1)
  let loads : List Turn := (s.waves.filter fun x => x.2.status == .resident).map fun x => .duty (.loaded x.1)
  let works : List Turn := live.flatMap fun x => [.duty (.complete x.1), .duty (.deadline x.1)]
  let files : List Turn := (List.range s.detached.length).map fun n => .duty (.record n)
  let posts : List Turn := s.link.qps.flatMap fun x => x.2.inbox.flatMap fun m =>
    [.duty (.task x.1 m.1), .duty (.disposition x.1 m.1)]
  let sends : List Turn := s.link.qps.flatMap fun x => x.2.sends.map fun o => .duty (.timeout x.1 o.n)
  let frees : List Turn := (s.ctxs.filter fun x => x.2.st == .destroying).map fun x => .duty (.free x.1)
  let quars : List Turn := s.health.pendingQ.map fun c => .duty (.quarantine c)
  let crews : List Turn := s.crews.flatMap fun x => [.duty (.evict x.1), .duty (.restore x.1)]
  let parks : List Turn := (s.seqs.filter fun x => x.2.status == .live).map fun x => .duty (.park x.1)
  let replays : List Turn := (live.filter fun x => x.2.st == .replaying).map fun x => .duty (.replay x.1)
  [choices, loads, ends, works, files, posts, sends, frees, quars, crews, parks, replays].flatten

/-- The turns that a state offers when its agenda is empty: instructions, engines, units and time (DESIGN CHOICE, log 2). -/
def State.enabled (s : State) : List Turn :=
  let frags : List Turn := s.waves.flatMap fun x => [false, true].flatMap fun b =>
    match s.fragment x.1 b with
    | some h => fragmentTurns x.1 b h.f
    | none => []
  let insts : List Turn := (s.seqs.filter fun x => x.2.status == .live).map fun x => .seqIssue x.1
  let cycles : List Turn := (s.waves.map (·.2.core) ++ s.seqs.map (·.2.core)).map fun c => .cycle c
  [frags, insts, cycles, s.engineTurns, s.unitTurns].flatten

/-- The next turn: the head of the agenda, else a free choice among the enabled ones and the passing of a nanosecond. (DESIGN CHOICE, log 2.) -/
def nextTurn (s : State) : Turn × State :=
  match s.agenda with
  | t :: rest => (t, { s with agenda := rest })
  | [] =>
    match s.enabled with
    | [] => (.elapse 1, s)
    | ts => (ts.getD (Config.choice s.draw % (ts.length + 1)) (.elapse 1), s.drawn)

end Sys2Proof.Machine
end

