-- ==== Sys2Proof/Machine/Placed.lean ====
section
/-!
DEFINITION. A program placed from outside: one line of code, mapped for context 0, with a wave (or, for a word of the
sequencer stream, an instance) about to issue its first slot. It stands for the load that a host, a queue and a dispatcher
make in many steps (DESIGN CHOICE, log 12).
-/
namespace Sys2Proof.Machine

/-- R83: the parity byte over bytes 0 to 62. -/
def parityOf (l : List Byte) : Byte := l.foldl (· ^^^ ·) 0

/-- R81, R82: the bytes of a terminal line with one word in slot 0, marked as a landing slot, and nops after it. -/
def lineOfWord (w : BitVec 96) : List Byte :=
  let nopB := bytesOfWord 0x0000F00000000000#96
  let body := bytesOfWord w ++ nopB ++ nopB ++ nopB ++ nopB ++ [0, 0x40, 0x08]
  body ++ [parityOf body]

/-- Physical places of the placed program: root table, L2 table and the code line's frame. -/
def placedRoot : Nat := 0x100000
def placedTable : Nat := 0x200000
def placedFrame : Nat := 0x40000000

/-- R322, R323: a root entry and a 1 GiB leaf map virtual 0 on `placedFrame`, for execution and writes. -/
def placedMemory (w : BitVec 96) : Memory :=
  let root := leBytes 8 (placedTable + 1)
  let leaf := leBytes 8 (placedFrame + 0xF)
  let line := lineOfWord w
  let m0 := Memory.update [] placedRoot 8 (bytesFn placedRoot root)
  let m1 := Memory.update m0 placedTable 8 (bytesFn placedTable leaf)
  Memory.update m1 placedFrame 64 (bytesFn placedFrame line)

/-- The package with one program loaded. (DESIGN CHOICE, log 12.) -/
def State.placed (s : State) (w : BitVec 96) : State :=
  let seq := !waveStream w
  { s with
    mem := { s.mem with ram := placedMemory w, tlb := [] }
    ctxs := [(0, { st := .active, desc := BitVec.ofNat 1024 placedRoot })]
    launches := [(0, { ctx := 0, st := .running, placed := 1 })]
    crews := [(0, { launch := 0, nunits := 1 })]
    waves := if seq then [] else
      [(0, { crew := 0, gran := 16, save := 0x300000,
             fa := some { owned := BitVec.allOnes 96, mask := BitVec.allOnes 96 } })]
    seqs := if seq then [(0, { crew := 0, save := 0x400000 })] else []
    agenda := [if seq then .seqIssue 0 else .issue 0 false] }

end Sys2Proof.Machine
end

