-- ==== Sys2Proof/Machine/Step.lean ====
section
/-!
DEFINITION. One step of the package: one turn.
-/
namespace Sys2Proof.Machine

/-- One step: the next turn. Time passes only in the turn `elapse` and ends only at a reset (R21). -/
def step (s : State) : Host.Outcome State Fault Refusal :=
  fullTurn (nextTurn s).1 (nextTurn s).2

/-- The state with an instruction placed where the next step fetches it (DESIGN CHOICE, log 12). -/
def State.withFetchWord (s : State) (nbits w : Nat) : State := s.placed (BitVec.ofNat 96 (w % 2 ^ nbits))

end Sys2Proof.Machine
end

