-- ==== Sys2Proof/Safety.lean ====
section
/-!
DEFINITION. The terms that claims use: a step that answers, canonical memory, when nothing stands in the way of an
instruction of a wave or of a sequencer stream, and what an instruction may write (its frame).
-/
namespace Sys2Proof

/-- The step answers a next state. -/
def Runs (s : Machine.State) : Prop := ∃ t, Machine.step s = .next t

/-- The vector registers that an operation of classes 0x3, 0x4 and 0x5 names (an unused field holds 0). -/
def VOp.names (o : VOp) : List Nat :=
  regsOf o.ty o.a.toNat ++ o.b.vregs o.ty ++ regsOf o.ty o.c.toNat ++ regsOf o.ty o.d.toNat

/-- The canonical form of main memory. -/
def Machine.State.memWf (s : Machine.State) : Prop := s.mem.ram.wf = true

end Sys2Proof

namespace Sys2Proof.Machine

/-- The executing fragment `h` meets no obstacle that an instruction naming the vector registers `rs` could meet: they exist
(R57), none of them awaits a geometric predicate (R316), and every code word can be read (R76). -/
structure Clear (s : State) (h : Here) (rs : List Nat) : Prop where
  here : s.here = some h
  exist : ∀ r ∈ rs, r < h.w.n
  board : ∀ x ∈ s.stores.preds, x.2.wave = h.key → x.2.d ∉ rs
  words : h.w.bad = []

/-- What an instruction of a wave may write: vector registers, predicates (both in the lanes `m`), scalars (60 to 62 are the
words of the active mask), the sticky flags, Z and the mode register. -/
structure Writes where
  v : List Nat := []
  p : List Nat := []
  m : Lanes := BitVec.allOnes 96
  s : List Nat := []
  flags : Bool := false
  z : Bool := false
  mode : Bool := false

/-- The wave `w` is the executing wave after an instruction that writes nothing but `x` and goes on at its successor: every
other lane of every register, the other fragment, the stack and every other field are as before. -/
structure Kept (h : Here) (x : Writes) (w : Wave) : Prop where
  vector : ∀ r l, l < 96 → (r ∉ x.v ∨ x.m.getLsbD l = false) → w.readV r l = h.w.readV r l
  scalar : ∀ r, r < 60 → r ∉ x.s → w.s.read r = h.w.s.read r
  predicate : ∀ r l, l < 96 → (r ∉ x.p ∨ x.m.getLsbD l = false) → (w.readP r).getLsbD l = (h.w.readP r).getLsbD l
  flags : x.flags = false → w.flags = h.w.flags
  mode : x.mode = false → w.mode = h.w.mode
  other : w.frag (!h.side) = h.w.frag (!h.side)
  fragment : ∃ f, w.frag h.side = some f ∧ f.pc = (advancePc h.f.pc h.f.fetch).1 ∧ f.owned = h.f.owned ∧
    f.recon = h.f.recon ∧ f.wait = .none ∧ (x.z = false → f.z = h.f.z) ∧
    ∀ l, l < 96 → 60 + l / 32 ∉ x.s → f.mask.getLsbD l = h.f.mask.getLsbD l
  rest : { w with s := h.w.s, v := h.w.v, p := h.w.p, mode := h.w.mode, flags := h.w.flags, fa := h.w.fa, fb := h.w.fb } = h.w

/-- The frame of an instruction that acts on its wave alone: `t` is `s` but for that wave, so every other wave, every special
register, every store and every byte of memory is as before. -/
def Framed (s t : State) (h : Here) (x : Writes) : Prop :=
  (∃ w, t = s.putWave h.key w ∧ Kept h x w) ∧ ∀ a, t.mem.byteAt a = s.mem.byteAt a

/-- The value that a write of `v` leaves in scalar `r` (R60, R61): em0 to em2 take the bits of owned lanes, s63 reads 0. -/
def Here.stored (h : Here) (r : Nat) (v : W64) : W64 :=
  if r < 60 then v
  else if r < 63 then v &&& ((h.f.owned.extractLsb' (32 * (r - 60)) 32).setWidth 64)
  else 0

/-- The instruction answers a next state in which it has completed: its fragment goes on at its successor, nothing but `x`
is written, and the wave satisfies `q`. -/
def Completes (i : Instr) (s : State) (h : Here) (x : Writes) (q : Wave → Prop) : Prop :=
  ∃ t w, exec i s = .next t ∧ Framed s t h x ∧ t.waves.get? h.key = some w ∧ q w

/-- An instruction that writes only scalar `d`, with the value `v`. -/
def ScalarResult (i : Instr) (s : State) (h : Here) (d : BitVec 6) (v : W64) : Prop :=
  Completes i s h { s := [d.toNat] } fun w => w.readS h.side d.toNat = h.stored d.toNat v

/-- An instruction that writes only the elements of type `ty` of register `d` in the participating lanes `m`. -/
def VectorResult (i : Instr) (s : State) (h : Here) (m : Lanes) (ty : Ty) (d : Nat) (v : Nat → Nat → Nat) : Prop :=
  Completes i s h { v := regsOf ty d, m } fun w =>
    ∀ l j, l < 96 → m.getLsbD l = true → j < elemsPerLane ty.width → w.elem ty.width d l j = v l j % 2 ^ ty.width

/-- R49 to R51: if no enabled exception is among the flags `fl` that the lanes `m` raise, `done` holds; if one is, the wave
adjourns with ARITH and nothing else happens (once no instruction of its other fragment must finish first, R425). -/
def Trapping (i : Instr) (s : State) (h : Here) (m : Lanes) (fl : Nat → Flags) (done : Prop) : Prop :=
  (orFlags ((lanesOf m).map fl) &&& modeTraps h.w.mode = 0 → done) ∧
    (orFlags ((lanesOf m).map fl) &&& modeTraps h.w.mode ≠ 0 → h.w.mustWait s h.key = false →
      exec i s = .next (s.adjourn h.key h.side
        { h.report (1#64 <<< 10) (lanesMask ((lanesOf m).filter fun l => fl l &&& modeTraps h.w.mode != 0)) with
          detail := (orFlags ((lanesOf m).map fl) &&& 31).setWidth 64 }))

/-- R160: the same for a scalar instruction, whose faulting-lane mask is empty. -/
def TrappingS (i : Instr) (s : State) (h : Here) (fl : Flags) (done : Prop) : Prop :=
  (fl &&& modeTraps h.w.mode = 0 → done) ∧
    (fl &&& modeTraps h.w.mode ≠ 0 → h.w.mustWait s h.key = false →
      exec i s = .next (s.adjourn h.key h.side { h.report (1#64 <<< 10) with detail := (fl &&& 31).setWidth 64 }))

/-- As `VectorResult`, for an instruction that raises the flags `fl` of its lanes and leaves the rounding state at `z`. -/
def FloatResult (i : Instr) (s : State) (h : Here) (m : Lanes) (ty : Ty) (d : Nat) (fl : Nat → Flags) (z : W32)
    (v : Nat → Nat → Nat) : Prop :=
  Trapping i s h m fl (Completes i s h { v := regsOf ty d, m, flags := true, z := true } fun w =>
    (∀ l j, l < 96 → m.getLsbD l = true → j < elemsPerLane ty.width → w.elem ty.width d l j = v l j % 2 ^ ty.width) ∧
      w.flags = h.w.flags ||| orFlags ((lanesOf m).map fl) ∧ (w.frag h.side).map (·.z) = some z)

/-- An instruction that writes only predicate `d` in the lanes `m` (p15 is never written), with the bits `v`. -/
def PredicateResult (i : Instr) (s : State) (h : Here) (m : Lanes) (d : BitVec 4) (v : Nat → Bool) : Prop :=
  Completes i s h { p := if d.toNat = 15 then [] else [d.toNat], m } fun w =>
    d.toNat ≠ 15 → ∀ l, l < 96 → m.getLsbD l = true → (w.readP d.toNat).getLsbD l = v l

/-- R271 to R274: line `l` is coherent: its directory entry can be read and names a die as the owner, every probe of a holder,
and of a die whose windows hold words of the line, is delivered, the entry names every die with a copy, a copy in M, O or E is the owner's, one in M or E is the only one, and every copy
holds the line's value. -/
structure LineOk (s : State) (l : Nat) : Prop where
  readable : l ∉ s.mem.dirBad
  owner : ∀ e o, s.mem.dir.get? l = some e → e.owner = some o → o < 8
  delivered : ∀ e d, s.mem.dir.get? l = some e → d ∈ e.holders → s.probeOk l d = true
  reached : ∀ d, (s.winDies l false).getLsbD d = true → s.probeOk l d = true
  tracked : ∀ d c, s.mem.l2.get? (l2Key d l) = some c → ∃ e, s.mem.dir.get? l = some e ∧ d ∈ e.holders
  owned : ∀ d c e, s.mem.l2.get? (l2Key d l) = some c → c.st ≠ .s → s.mem.dir.get? l = some e →
    e.owner = some d
  single : ∀ d c d' c', s.mem.l2.get? (l2Key d l) = some c → (c.st = .m ∨ c.st = .e) →
    s.mem.l2.get? (l2Key d' l) = some c' → d' = d
  copies : ∀ d c, s.mem.l2.get? (l2Key d l) = some c → c.data = s.mem.lineVal l

/-- Every line of memory is coherent. -/
def Coherent (s : State) : Prop := ∀ l, l < 2 ^ 45 → LineOk s l

/-- `t` is `s` but for what caches hold: every byte of memory reads as before. -/
def Quiet (s t : State) : Prop := t = s.setMem t.mem ∧ ∀ a, a < 2 ^ 52 → t.mem.byteAt a = s.mem.byteAt a

/-- Memory, as a function of the address, after bytes are stored to some pieces. -/
def patched : List Piece → List Byte → (Nat → Byte) → Nat → Byte
  | [], _, f => f
  | p :: ps, bs, f => patched ps (bs.drop p.len) fun a => if p.pa ≤ a ∧ a < p.pa + p.len then bs.getD (a - p.pa) 0 else f a

/-- `t` is `s` after a store that leaves memory with the bytes `f`: caches and poison, the words of windows (R267), the
replay marks of launches (R367) and the waves whose divergence stacks it reaches (R138) apart, nothing else changes. -/
def Wrote (s t : State) (f : Nat → Byte) : Prop :=
  t = { s with mem := t.mem, crews := t.crews, launches := t.launches, spoilt := t.spoilt } ∧ ∀ a, a < 2 ^ 52 → t.mem.byteAt a = f a

/-- The pieces lie in the physical address space, and the die may hold their lines (R274). -/
def Reach (s : State) (die : Nat) (ps : List Piece) : Prop :=
  ∀ p ∈ ps, p.pa + p.len ≤ 2 ^ 52 ∧ 0 < p.len ∧ ∀ l ∈ linesOf p.pa p.len, s.probeOk l die = true

/-- The instruction answers a next state: `s1`, with the executing wave gone on at its successor; that wave differs from the
one before by `x` alone and satisfies `q`. -/
def Ends (i : Instr) (s s1 : State) (h : Here) (x : Writes) (q : Wave → Prop) : Prop :=
  ∃ w, exec i s = .next (s1.putWave h.key w) ∧ Kept h x w ∧ q w

/-- The checks `chk` of the lanes `ls` leave the state `s1` and let every lane's access go on, to the pieces `ps` (R195). -/
def Passes (h : Here) (s : State) (chk : State → Nat → State × LaneCheck) (ls : List Nat) (addr : Nat → W64) (s1 : State)
    (ps : List (Nat × List Piece)) : Prop :=
  (checkLanes chk s ls).1 = s1 ∧ h.allPass s1 addr (checkLanes chk s ls).2 = .ok ps

/-- The checks of global accesses of `n` bytes. -/
def Here.globalChecks (h : Here) (s : State) (k : Access) (addr : Nat → W64) (n : Nat) (t : State) (l : Nat) :
    State × LaneCheck :=
  t.checkGlobal h.w.core (s.launchOf h.w) k (addr l).toNat n

/-- A lane's data register, or pair, holds the number `x` (R193). -/
def Wave.dataIs (w : Wave) (t : Ty) (rf : RForm) (r l x : Nat) : Prop :=
  if pairData t rf then w.readV64 r l = BitVec.ofNat 64 x else w.readV r l = BitVec.ofNat 32 x

/-- Nothing keeps lanes of the cluster space back (R192, R207, R258): the bytes lie in the crew's run, no copy has locked
them, no window must be filled for them, and every word can be read. -/
structure LocalOk (s : State) (c : Crew) (write full : Bool) (a n : Nat) : Prop where
  held : c.holds a n = true
  free : s.locked c.clus 0 true write a n = false
  filled : c.fillsFor (s.launch c.launch) full a n = []
  readable : ∀ w ∈ wordsOf a n, s.badWord c.clus w = false

/-- A landing (R85): the target's line as the fetch reads it, and the state after it. -/
def Lands (s : State) (h : Here) (p : Pc) (l : CodeLine) (s1 : State) : Prop :=
  s.landing h.w.core (s.ctxOf h.w) p = .ok (s1, { dest := some (p, l) })

/-- A copy that the executing wave asks for, with what the engine keeps of the wave (R214). -/
def Here.copyOf (h : Here) (s : State) (c : Copy) : Copy :=
  { c with core := h.w.core, ctx := (s.launchOf h.w).ctx, launch := (s.crew h.w.crew).launch, crew := h.w.crew,
           wave := some h.key, slot := h.w.slot, wid := h.w.wid, pc := h.f.pc }

/-- The copy `c` of an instruction is issued: it joins the engine and the fragment goes on; `s1` is the state once the core's
stores are the context's (R257). Nothing else changes. -/
def CopyIssued (i : Instr) (s s1 : State) (h : Here) (c : Copy) : Prop :=
  exec i s = .next (h.done (s1.addCopy c (some h.f.id)) id) ∧
    (s1.addCopy c (some h.f.id)).copies = s.copies.put s.copies.nextKey { c with id := s.draw } ∧
    s1 = { s with stores := { s.stores with owner := s1.stores.owner } }

/-- The operation that an instance issues (R280): it joins the queue with the operands' addresses and what a roll back
restores, and the stream goes on. -/
def SeqHere.issued (h : SeqHere) (s : State) (op : Instr) (a b c : BitVec 4) (bank : Nat := 0) : State :=
  h.done s fun i => { i with ops := i.ops ++ [{
    op, ea := h.i.eff a, eb := h.i.eff b, ec := h.i.eff c, bank, pc := h.i.pc, fetch := h.i.fetch, depth := h.i.depth,
    ctr := h.i.ctr, start := h.i.start, base := h.i.base, stride := h.i.stride }] }

/-- The instance may read `n` bytes of its run at its place in the order (R279, R281, R288). -/
def SeqReads (s : State) (h : SeqHere) (off n : Nat) : Prop :=
  (s.instCrew h.i).runHas off n = true ∧ h.clear s off n = true ∧
    (wordsOf ((s.instCrew h.i).base + off) n).find? (s.badWord (s.instCrew h.i).clus) = none

/-- The oldest operation of the instance of a core, ready to commit as `m` (R282). -/
def Oldest (s : State) (core : Nat) (m : MatCtx) : Prop :=
  (s.seqs.find? fun x => x.2.core == core && x.2.status == .live && x.2.ops != []) = some (m.key, m.i) ∧
    m.i.ops.head? = some m.o ∧ m.c = s.instCrew m.i ∧ m.l = s.instLaunch m.i

/-- The commit answers a next state in which the instance is `i1`, in the state `s1`; main memory is as before, unless a barrier wait
that the commit ends performs store events of its crew (R236). -/
def Commits (s s1 : State) (core : Nat) (m : MatCtx) (i1 : Inst) : Prop :=
  exec (.matrixCommit core) s = .next (s1.committed m.key i1) ∧
    ((∀ p ∈ s.mem.posts, p.crews = []) → ∀ a, (s1.committed m.key i1).mem.byteAt a = s.mem.byteAt a)

/-- Accumulators other than `d` (and `d + 1` for a pair) are as before. -/
def OtherAcc (i i1 : Inst) (f64 : Bool) (d : Nat) : Prop :=
  ∀ k, (k < 4096 * d ∨ 4096 * (d + if f64 then 2 else 1) ≤ k) → i1.acc.read k = i.acc.read k

/-- The sequencer instance `h` executes and may issue a matrix operation. -/
structure SeqClear (s : State) (h : SeqHere) : Prop where
  here : s.seqHere = some h
  idle : h.i.ops = []

end Sys2Proof.Machine
end

