-- ==== Sys2Proof/Certificates/Slice0/Obligations.lean ====
section
/-!
DEFINITION. The statements about the model: each is a proposition; the provers prove it.
-/
open Sys2Proof Sys2Proof.Machine

/-- Scalar integer instructions: result and frame (R153, R154, R60, R61). -/
def Obligations.ScalarIntegerResults : Prop :=
  (∀ p ∈ ([(Instr.add, fun t a b => intOf t a + intOf t b), (Instr.sub, fun t a b => intOf t a - intOf t b),
      (Instr.mul, fun t a b => intOf t a * intOf t b), (Instr.mulh, fun t a b => intOf t a * intOf t b / 2 ^ t.width),
      (Instr.div, intDiv), (Instr.rem, intRem), (Instr.and, intAnd), (Instr.or, intOr), (Instr.xor, intXor),
      (Instr.shl, intShl), (Instr.shr, intShr), (Instr.sar, intSar), (Instr.min, fun t a b => min (intOf t a) (intOf t b)),
      (Instr.max, fun t a b => max (intOf t a) (intOf t b))] : List ((SInt → Instr) × (Ty → Nat → Nat → Int))),
    ∀ o s h, Clear s h [] →
      ScalarResult (p.1 o) s h o.d (fillS o.ty (narrow o.ty o.sat (p.2 o.ty (h.s o.a).toNat (h.srcS o.ty o.b))))) ∧
  ∀ o s h, Clear s h [] → ScalarResult (.mad o) s h o.d (fillS o.ty (narrow o.ty o.sat
    (intOf o.ty (h.s o.a).toNat * intOf o.ty (h.srcS o.ty o.b) + intOf o.ty (h.s o.c).toNat)))

/-- Scalar bit, move, address and special-register instructions: result and frame (R156, R157, R158, R159, R66, R60,
R61). -/
def Obligations.ScalarMoveResults : Prop :=
  ∀ s h, Clear s h [] →
    (∀ ty d a, ScalarResult (.clz ty d a) s h d (BitVec.ofNat 64 (clzOf ty.width (h.s a).toNat))) ∧
    (∀ ty d a, ScalarResult (.popc ty d a) s h d (BitVec.ofNat 64 (popcOf ty.width (h.s a).toNat))) ∧
    (∀ ty d a, ScalarResult (.brev ty d a) s h d (BitVec.ofNat 64 (brevOf ty.width (h.s a).toNat))) ∧
    (∀ ty d a pos len, ScalarResult (.bfe ty d a pos len) s h d
      (BitVec.ofInt 64 (fieldOf 64 ty.isS (h.s a).toNat pos.toNat len.toNat))) ∧
    (∀ d a b pos len, ScalarResult (.bfi d a b pos len) s h d
      (BitVec.ofNat 64 (fieldSet 64 (h.s a).toNat (h.s b).toNat pos.toNat len.toNat))) ∧
    (∀ d a b c, ScalarResult (.sel d a b c) s h d (if h.s c = 0 then h.s b else h.s a)) ∧
    (∀ d a, ScalarResult (.mov d a) s h d (h.s a)) ∧
    (∀ d e, ScalarResult (.movi d e) s h d (e.signExtend 64)) ∧
    (∀ d e, ScalarResult (.movh d e) s h d (e ++ (h.s d).setWidth 32)) ∧
    (∀ d a b sh disp, ScalarResult (.lea d a b sh disp) s h d (h.s a + (h.s b <<< sh.toNat) + disp.signExtend 64)) ∧
    (∀ d, ScalarResult (.srd d .clk) s h d s.clk ∧ ScalarResult (.srd d .mode) s h d (h.f.z ++ h.w.mode) ∧
      ScalarResult (.srd d .alloc) s h d (BitVec.ofNat 64 (16 * h.w.gran))) ∧
    ∀ d x, ScalarResult (.srd d x) s h d (h.special s x)

/-- Scalar comparisons, conversions and floating point: result, flags and frame (R51, R157, R160, R161, R162, R41, R43,
R48). -/
def Obligations.ScalarFloatResults : Prop :=
  ∀ s h, Clear s h [] →
    (∀ cc ty d a b, ty.isF = false → ScalarResult (.cmp cc ty d a b) s h d
      (if cmpI cc ty (h.s a).toNat (h.s b).toNat then 1 else 0)) ∧
    (∀ cc ty d a b, ty.isF = true →
      let r := cmpF cc.float (h.fltS ty a) (h.fltS ty b)
      TrappingS (.cmp cc ty d a b) s h r.2 (Completes (.cmp cc ty d a b) s h { s := [d.toNat], flags := true } fun w =>
        w.readS h.side d.toNat = h.stored d.toNat (if r.1 then 1 else 0) ∧ w.flags = h.w.flags ||| r.2)) ∧
    (∀ src o,
      let mode := if alwaysExact o.ty src then Rnd.rne else h.rnd o.rnd
      let r := convert o.ty src (howOf mode (nextZ mode h.f.z) 0 1 0) (modeDaz h.w.mode) (modeFtz h.w.mode) o.sat
        ((h.s o.a).toNat % 2 ^ src.width)
      TrappingS (.cvts src o) s h r.2 (Completes (.cvts src o) s h { s := [o.d.toNat], flags := true, z := true } fun w =>
        w.readS h.side o.d.toNat = h.stored o.d.toNat (fillS o.ty r.1) ∧ w.flags = h.w.flags ||| r.2 ∧
          (w.frag h.side).map (·.z) = some (nextZ mode h.f.z))) ∧
    ∀ p ∈ ([(Instr.sfadd, 2, fun m a b _ => (resAdd m a b).zeroSum (m == .rdn)), (Instr.sfmul, 2, fun _ a b _ => resMul a b),
        (Instr.sffma, 3, fun m a b c => (resFma m a b c).zeroSum (m == .rdn))] : List ((SFlt → Instr) × Nat × (Rnd → FVal → FVal → FVal → FRes))),
      ∀ o,
        let z := nextZ (h.rnd o.rnd) h.f.z
        let a := h.fltS o.ty o.a
        let b := h.fltS o.ty o.b
        let c := h.fltS o.ty o.c
        let r := deliver o.ty (howOf (h.rnd o.rnd) z 0 1 0) (modeFtz h.w.mode) ([a, b, c].take p.2.1)
          (p.2.2 (h.rnd o.rnd) a b c)
        TrappingS (p.1 o) s h r.2 (Completes (p.1 o) s h { s := [o.d.toNat], flags := true, z := true } fun w =>
          w.readS h.side o.d.toNat = h.stored o.d.toNat (BitVec.ofNat 64 (encodeF o.ty (saturateF o.ty o.sat r.1))) ∧
            w.flags = h.w.flags ||| r.2 ∧ (w.frag h.side).map (·.z) = some z)

/-- Writing %mode and %flags (R67, R68, R69, R159). -/
def Obligations.ModeAndFlagWrites : Prop :=
  ∀ s h a, Clear s h [] →
    (modeOk (h.s a) = true → Completes (.swrMode a) s h { mode := true, z := true } fun w =>
      w.mode = (h.s a).setWidth 32 ∧ (w.frag h.side).map (·.z) = some ((h.s a).extractLsb' 32 32)) ∧
    (bits (h.s a) 7 57 = 0 → Completes (.swrFlags a) s h { flags := true } fun w => w.flags = (h.s a).setWidth 7) ∧
    (modeOk (h.s a) = false → h.w.mustWait s h.key = false →
      exec (.swrMode a) s = .next (s.adjourn h.key h.side (h.report (1#64)))) ∧
    (bits (h.s a) 7 57 ≠ 0 → h.w.mustWait s h.key = false →
      exec (.swrFlags a) s = .next (s.adjourn h.key h.side (h.report (1#64))))

/-- Vector integer instructions: result and frame (R166, R165, R154, R59, R33). -/
def Obligations.VectorIntegerResults : Prop :=
  (∀ p ∈ ([(Instr.vabs, fun t a => ((intOf t a).natAbs : Int)), (Instr.vclz, fun t a => (clzOf t.width a : Int)),
      (Instr.vpopc, fun t a => (popcOf t.width a : Int))] : List ((VOp → Instr) × (Ty → Nat → Int))),
    ∀ o s h, wellFormed (p.1 o) = true → Clear s h o.names → VectorResult (p.1 o) s h (h.part o.g) o.ty o.d.toNat fun l j =>
      narrow o.ty o.sat (p.2 o.ty (h.w.elem o.ty.width o.a.toNat l j))) ∧
  (∀ p ∈ ([(Instr.vadd, fun t a b => intOf t a + intOf t b), (Instr.vsub, fun t a b => intOf t a - intOf t b),
      (Instr.vmul, fun t a b => intOf t a * intOf t b), (Instr.vmulh, fun t a b => intOf t a * intOf t b / 2 ^ t.width),
      (Instr.vdiv, intDiv), (Instr.vand, intAnd), (Instr.vor, intOr), (Instr.vxor, intXor), (Instr.vshl, intShl),
      (Instr.vshr, intShr), (Instr.vsar, intSar), (Instr.vmin, fun t a b => min (intOf t a) (intOf t b)),
      (Instr.vmax, fun t a b => max (intOf t a) (intOf t b))] : List ((VOp → Instr) × (Ty → Nat → Nat → Int))),
    ∀ o s h, wellFormed (p.1 o) = true → Clear s h o.names → VectorResult (p.1 o) s h (h.part o.g) o.ty o.d.toNat fun l j =>
      narrow o.ty o.sat (p.2 o.ty (h.w.elem o.ty.width o.a.toNat l j) (h.srcV o.ty l j o.b))) ∧
  ∀ p ∈ ([(Instr.vmad, intMad), (Instr.vbfe, fun t a b c => fieldOf t.width t.isS a b c),
      (Instr.vbfi, fun t a b c => (fieldSet t.width a b (c % 256) (c / 256 % 256) : Int))] :
      List ((VOp → Instr) × (Ty → Nat → Nat → Nat → Int))),
    ∀ o s h, wellFormed (p.1 o) = true → Clear s h o.names → VectorResult (p.1 o) s h (h.part o.g) o.ty o.d.toNat fun l j =>
      narrow o.ty o.sat (p.2 o.ty (h.w.elem o.ty.width o.a.toNat l j) (h.srcV o.ty l j o.b) (h.w.elem o.ty.width o.c.toNat l j))

/-- Vector floating-point instructions and special functions: result, flags and frame (R167, R168, R169, R171, R173,
R182, R43, R48, R59). -/
def Obligations.VectorFloatResults : Prop :=
  (∀ p ∈ ([(Instr.fsqrt, fun _ a => resSqrt a), (Instr.frcp, fun _ a => resRcp a), (Instr.frsq, fun _ a => resRsq a),
      (Instr.frint, resRint), (Instr.fexp2, fun _ a => resExp2 a), (Instr.flog2, fun _ a => resLog2 a),
      (Instr.fsin, fun _ a => resTrig true a), (Instr.fcos, fun _ a => resTrig false a)] :
      List ((VOp → Instr) × (How → FVal → FRes))),
    ∀ o s h, wellFormed (p.1 o) = true → Clear s h o.names →
      let z := nextZ (h.rnd o.rnd) h.f.z
      let how (l j : Nat) := howOf (h.rnd o.rnd) z l (elemsPerLane o.ty.width) j
      let out (l j : Nat) := deliver o.ty (how l j) (modeFtz h.w.mode) [h.fltV o.ty o.a l j] (p.2 (how l j) (h.fltV o.ty o.a l j))
      FloatResult (p.1 o) s h (h.part o.g) o.ty o.d.toNat
        (fun l => orFlags ((List.range (elemsPerLane o.ty.width)).map fun j => (out l j).2)) z
        fun l j => encodeF o.ty (saturateF o.ty o.sat (out l j).1)) ∧
  (∀ p ∈ ([(Instr.fadd, fun h a b => resSum h.mode a b), (Instr.fsub, fun h a b => resSum h.mode a b.negate),
      (Instr.fmul, fun _ a b => resMul a b), (Instr.fdiv, fun _ a b => resDiv a b)] :
      List ((VOp → Instr) × (How → FVal → FVal → FRes))),
    ∀ o s h, wellFormed (p.1 o) = true → Clear s h o.names →
      let z := nextZ (h.rnd o.rnd) h.f.z
      let how (l j : Nat) := howOf (h.rnd o.rnd) z l (elemsPerLane o.ty.width) j
      let out (l j : Nat) := deliver o.ty (how l j) (modeFtz h.w.mode) [h.fltV o.ty o.a l j, h.fltB o.ty o.b l j]
        (p.2 (how l j) (h.fltV o.ty o.a l j) (h.fltB o.ty o.b l j))
      FloatResult (p.1 o) s h (h.part o.g) o.ty o.d.toNat
        (fun l => orFlags ((List.range (elemsPerLane o.ty.width)).map fun j => (out l j).2)) z
        fun l j => encodeF o.ty (saturateF o.ty o.sat (out l j).1)) ∧
  (∀ p ∈ ([(Instr.ffma, fun h o how l j =>
        deliver o.ty how (modeFtz h.w.mode) [h.fltV o.ty o.a l j, h.fltB o.ty o.b l j, h.fltV o.ty o.c l j]
          (resFma how.mode (h.fltV o.ty o.a l j) (h.fltB o.ty o.b l j) (h.fltV o.ty o.c l j))),
      (Instr.fldexp, fun h o how l j => deliver o.ty how (modeFtz h.w.mode) [h.fltV o.ty o.a l j]
        (resLdexp (h.fltV o.ty o.a l j) (h.ldexpN o.ty l j o.b)))] :
      List ((VOp → Instr) × (Here → VOp → How → Nat → Nat → FVal × Flags))),
    ∀ o s h, wellFormed (p.1 o) = true → Clear s h o.names →
      let z := nextZ (h.rnd o.rnd) h.f.z
      let out (l j : Nat) := p.2 h o (howOf (h.rnd o.rnd) z l (elemsPerLane o.ty.width) j) l j
      FloatResult (p.1 o) s h (h.part o.g) o.ty o.d.toNat
        (fun l => orFlags ((List.range (elemsPerLane o.ty.width)).map fun j => (out l j).2)) z
        fun l j => encodeF o.ty (saturateF o.ty o.sat (out l j).1)) ∧
  (∀ p ∈ ([(Instr.fmin, false), (Instr.fmax, true)] : List ((VOp → Instr) × Bool)),
    ∀ o s h, wellFormed (p.1 o) = true → Clear s h o.names →
      let out (l j : Nat) := minMaxF p.2 (h.fltV o.ty o.a l j) (h.fltB o.ty o.b l j)
      FloatResult (p.1 o) s h (h.part o.g) o.ty o.d.toNat
        (fun l => orFlags ((List.range (elemsPerLane o.ty.width)).map fun j => (out l j).2)) h.f.z
        fun l j => encodeF o.ty (out l j).1) ∧
  (∀ o s h, wellFormed (.fdot2 o) = true → Clear s h o.names →
      let z := nextZ (h.rnd o.rnd) h.f.z
      let a (l j : Nat) := h.fltV o.ty o.a l j
      let b (l j : Nat) := h.fltB o.ty o.b l j
      let out (l : Nat) := deliver .f32 (howOf (h.rnd o.rnd) z l 1 0) (modeFtz h.w.mode) [a l 0, a l 1, b l 0, b l 1]
        (resDot2 (h.rnd o.rnd) (a l 0) (a l 1) (b l 0) (b l 1))
      FloatResult (.fdot2 o) s h (h.part o.g) .f32 o.d.toNat (fun l => (out l).2) z
        fun l _ => encodeF .f32 (saturateF .f32 o.sat (out l).1)) ∧
  ∀ o s h, wellFormed (.fdp4 o) = true → Clear s h o.names →
    let z := nextZ (h.rnd o.rnd) h.f.z
    let out (l : Nat) := fdp4Steps (h.rnd o.rnd) z l (modeFtz h.w.mode) (fun j => h.fltV o.ty o.a l j)
      (fun j => h.fltB o.ty o.b l j) [0, 1, 2, 3] (h.fltV .f32 o.c l 0) 0
    FloatResult (.fdp4 o) s h (h.part o.g) .f32 o.d.toNat (fun l => (out l).2) z
      fun l _ => encodeF .f32 (saturateF .f32 o.sat (out l).1)

/-- Moves between lanes: result and frame (R184, R185, R188, R59). -/
def Obligations.LaneResults : Prop :=
  (∀ o s h, wellFormed (.vmov o) = true → Clear s h (regsOf o.ty o.a.toNat ++ regsOf o.ty o.d.toNat) →
    VectorResult (.vmov o) s h (h.part o.g) o.ty o.d.toNat fun l _ => h.w.elem o.ty.width o.a.toNat l 0) ∧
  (∀ g ty d a s h, wellFormed (.vbcast g ty d a) = true → Clear s h (regsOf ty d.toNat) →
    VectorResult (.vbcast g ty d a) s h (h.part g) ty d.toNat fun _ _ => (h.s a).toNat) ∧
  (∀ o s h, wellFormed (.vperm o) = true → Clear s h [o.a.toNat, o.b.toNat, o.c.toNat, o.d.toNat] →
    Completes (.vperm o) s h { v := [o.d.toNat], m := h.part o.g } fun w => ∀ l k, l < 96 → (h.part o.g).getLsbD l = true →
      k < 4 → w.elem 8 o.d.toNat l k = permByte (h.w.readV o.b.toNat l) (h.w.readV o.a.toNat l) (h.w.readV o.c.toNat l) k) ∧
  (∀ p ∈ ([(fun o n => .vshflUp o n, fun n l => if n ≤ l then l - n else l),
      (fun o n => .vshflDown o n, fun n l => if l + n < 96 then l + n else l),
      (fun o n => .vshflXor o n, fun n l => if l ^^^ n < 96 then l ^^^ n else l)] :
      List ((LaneOp → BitVec 7 → Instr) × (Nat → Nat → Nat))),
    ∀ o n s h, wellFormed (p.1 o n) = true → Clear s h (regsOf o.ty o.a.toNat ++ regsOf o.ty o.d.toNat) →
      VectorResult (p.1 o n) s h (h.part o.g) o.ty o.d.toNat fun l _ => h.w.elem o.ty.width o.a.toNat (p.2 n.toNat l) 0) ∧
  (∀ o s h, wellFormed (.vshflIdx o) = true → Clear s h (o.b.toNat :: regsOf o.ty o.a.toNat ++ regsOf o.ty o.d.toNat) →
    VectorResult (.vshflIdx o) s h (h.part o.g) o.ty o.d.toNat fun l _ =>
      if (h.w.readV o.b.toNat l).toNat < 96 then h.w.elem o.ty.width o.a.toNat (h.w.readV o.b.toNat l).toNat 0 else 0) ∧
  (∀ o s h, wellFormed (.vmovrel o) = true → Clear s h [o.a.toNat, o.b.toNat, o.d.toNat] →
    (∀ x ∈ s.stores.preds, x.2.wave ≠ h.key) →
    (∀ l, l < 96 → (h.part o.g).getLsbD l = true → 0 ≤ h.relReg o.a o.b l ∧ h.relReg o.a o.b l < h.w.n) →
    Completes (.vmovrel o) s h { v := [o.d.toNat], m := h.part o.g } fun w => ∀ l, l < 96 → (h.part o.g).getLsbD l = true →
      w.readV o.d.toNat l = h.w.readV (h.relReg o.a o.b l).toNat l) ∧
  (∀ o s h, wellFormed (.vstrel o) = true → Clear s h [o.a.toNat, o.b.toNat, o.d.toNat] →
    (∀ x ∈ s.stores.preds, x.2.wave ≠ h.key) →
    (∀ l, l < 96 → (h.part o.g).getLsbD l = true → 0 ≤ h.relReg o.d o.b l ∧ h.relReg o.d o.b l < h.w.n) →
    Completes (.vstrel o) s h { v := List.range h.w.n, m := h.part o.g } fun w => ∀ r l, l < 96 →
      w.readV r l = if (h.part o.g).getLsbD l = true ∧ (h.relReg o.d o.b l).toNat = r then h.w.readV o.a.toNat l
        else h.w.readV r l) ∧
  (∀ g ty d a b c s h, wellFormed (.vsel g ty d a b c) = true →
    Clear s h (regsOf ty a.toNat ++ regsOf ty b.toNat ++ regsOf ty d.toNat) →
    VectorResult (.vsel g ty d a b c) s h (h.part g) ty d.toNat fun l _ =>
      h.w.elem ty.width (if (h.w.readP c.toNat).getLsbD l then a.toNat else b.toNat) l 0) ∧
  (∀ g d s h, Clear s h [d.toNat] → Completes (.vlid g d) s h { v := [d.toNat], m := h.part g } fun w =>
    ∀ l, l < 96 → (h.part g).getLsbD l = true → w.readV d.toNat l = BitVec.ofNat 32 l) ∧
  ∀ o s h, wellFormed (.fclass o) = true → Clear s h o.names →
    VectorResult (.fclass o) s h (h.part o.g) o.ty o.d.toNat fun l j =>
      narrow o.ty o.sat (classF o.ty (h.w.elem o.ty.width o.a.toNat l j))

/-- Reductions and scans: result, flags and frame (R186, R187, R51). -/
def Obligations.ReductionResults : Prop :=
  (∀ o s h, wellFormed (.vred o) = true → Clear s h (regsOf o.ty o.a.toNat) →
    let r := redTree o.op o.ty (h.redHow o) (modeFtz h.w.mode) (h.part o.g) (h.redElem o.ty o.a) 7 0
    let fl (l : Nat) := orFlags ((r.2.filter fun x => x.1.getLsbD l).map (·.2))
    Trapping (.vred o) s h (h.part o.g) fl (Completes (.vred o) s h { s := [o.d.toNat], flags := true } fun w =>
      w.readS h.side o.d.toNat = h.stored o.d.toNat (fillS o.ty ((r.1.getD (redIdentity o.op o.ty)).bits o.ty)) ∧
        w.flags = h.w.flags ||| orFlags ((lanesOf (h.part o.g)).map fl)) ∧ (h.part o.g = 0 → r = (none, []))) ∧
  ∀ o s h, wellFormed (.vscan o) = true → Clear s h (regsOf o.ty o.a.toNat ++ regsOf o.ty o.d.toNat) →
    let r := scanLanes o (h.redHow o) (modeFtz h.w.mode) (fun l => (h.w.readP o.pc.toNat).getLsbD l)
      (h.redElem o.ty o.a) (lanesOf (h.part o.g)) (redIdentity o.op o.ty)
    let at_ (l : Nat) := (r.find? fun x => x.1 == l).getD (l, .int 0, 0)
    Trapping (.vscan o) s h (h.part o.g) (fun l => (at_ l).2.2)
      (Completes (.vscan o) s h { v := regsOf o.ty o.d.toNat, m := h.part o.g, flags := true } fun w =>
        (∀ l, l < 96 → (h.part o.g).getLsbD l = true →
          w.elem o.ty.width o.d.toNat l 0 = (at_ l).2.1.bits o.ty % 2 ^ o.ty.width) ∧
        w.flags = h.w.flags ||| orFlags ((lanesOf (h.part o.g)).map fun l => (at_ l).2.2))

/-- Predicate instructions: result and frame (R62, R172, R189, R190, R60, R61). -/
def Obligations.PredicateResults : Prop :=
  (∀ g cc ty d a b s h, wellFormed (.vcmp g cc ty d a b) = true → Clear s h (regsOf ty a.toNat ++ regsOf ty b.toNat) →
    PredicateResult (.vcmp g cc ty d a b) s h (h.part g) d fun l =>
      cmpI cc ty (h.w.elem ty.width a.toNat l 0) (h.w.elem ty.width b.toNat l 0)) ∧
  (∀ o s h, wellFormed (.fcmp o) = true → Clear s h (regsOf o.ty o.a.toNat ++ o.b.vregs o.ty) →
    let out (l : Nat) := cmpF o.cc (h.fltV o.ty o.a l 0) (h.fltB o.ty o.b l 0)
    Trapping (.fcmp o) s h (h.part o.g) (fun l => (out l).2)
      (Completes (.fcmp o) s h { p := if o.d.toNat = 15 then [] else [o.d.toNat], m := h.part o.g, flags := true } fun w =>
        (o.d.toNat ≠ 15 → ∀ l, l < 96 → (h.part o.g).getLsbD l = true → (w.readP o.d.toNat).getLsbD l = (out l).1) ∧
        w.flags = h.w.flags ||| orFlags ((lanesOf (h.part o.g)).map fun l => (out l).2))) ∧
  ∀ s h, Clear s h [] →
    (∀ g d a b t, PredicateResult (.plop g d a b t) s h (h.part g) d fun l => t.getLsbD
      ((if (h.w.readP a.toNat).getLsbD l then 2 else 0) + (if (h.w.readP b.toNat).getLsbD l then 1 else 0))) ∧
    (∀ g d a, PredicateResult (.pfirst g d a) s h (h.part g) d fun l => l == lowest (h.part g &&& h.w.readP a.toNat)) ∧
    (∀ g d a b, PredicateResult (.pfrom g d a b) s h (h.part g &&& beatMask b.toNat) d fun l =>
      (h.s a).getLsbD (l - 32 * b.toNat)) ∧
    (∀ g d a, ScalarResult (.ppopc g d a) s h d (BitVec.ofNat 64 (lanesOf (h.part g &&& h.w.readP a.toNat)).length)) ∧
    ∀ g d a b, ScalarResult (.pballot g d a b) s h d
      (((h.part g &&& h.w.readP a.toNat).extractLsb' (32 * b.toNat) 32).setWidth 64)

/-- Conversions: result, flags and frame (R47, R177, R178, R179, R180, R181, R40, R51). -/
def Obligations.ConversionResults : Prop :=
  (∀ o s h, wellFormed (.cvt o) = true → Clear s h (regsOf o.src o.a.toNat ++ regsOf o.dst o.d.toNat) →
    let e := 32 / min (max o.src.width o.dst.width) 32
    let so := if o.src.width ≤ o.dst.width then o.q.toNat * e else 0
    let dn := if o.dst.width ≤ o.src.width then o.q.toNat * e else 0
    let z := nextZ (Cvt.mode o h) h.f.z
    let out (l j : Nat) := Cvt.elem o h (howOf (Cvt.mode o h) z l e j) (h.w.elem o.src.width o.a.toNat l (so + j))
    FloatResult (.cvt o) s h (h.part o.g) o.dst o.d.toNat (fun l => orFlags ((List.range e).map fun j => (out l j).2)) z
      fun l k => if dn ≤ k ∧ k < dn + e then (out l (k - dn)).1 else h.w.elem o.dst.width o.d.toNat l k) ∧
  (∀ o s h, wellFormed (.pack o) = true →
    Clear s h ((List.range (o.src.width / o.dst.width)).map (o.a.toNat + ·) ++ [o.d.toNat]) →
    let n := 32 / o.src.width
    let e := 32 / o.dst.width
    let z := nextZ (Cvt.mode o h) h.f.z
    let out (l j : Nat) := Cvt.elem o h (howOf (Cvt.mode o h) z l e j)
      (h.w.elem o.src.width (o.a.toNat + j / n) l (j % n))
    FloatResult (.pack o) s h (h.part o.g) o.dst o.d.toNat (fun l => orFlags ((List.range e).map fun j => (out l j).2)) z
      fun l j => (out l j).1) ∧
  (∀ o s h, wellFormed (.unpack o) = true →
    Clear s h (o.a.toNat :: (List.range (o.dst.width / o.src.width)).map (o.d.toNat + ·)) →
    let n := 32 / o.dst.width
    let e := 32 / o.src.width
    let z := nextZ (Cvt.mode o h) h.f.z
    let out (l j : Nat) := Cvt.elem o h (howOf (Cvt.mode o h) z l e j) (h.w.elem o.src.width o.a.toNat l j)
    Trapping (.unpack o) s h (h.part o.g) (fun l => orFlags ((List.range e).map fun j => (out l j).2))
      (Completes (.unpack o) s h { v := (List.range (o.dst.width / o.src.width)).map (o.d.toNat + ·), m := h.part o.g,
                                   flags := true, z := true } fun w =>
        ∀ r l j, r < o.dst.width / o.src.width → l < 96 → (h.part o.g).getLsbD l = true → j < n →
          w.elem o.dst.width (o.d.toNat + r) l j = (out l (n * r + j)).1 % 2 ^ o.dst.width)) ∧
  (∀ o s h, wellFormed (.dxq o) = true →
    Clear s h ((List.range (dxRegs o.dst o.src)).map (o.a.toNat + ·) ++ [o.d.toNat, o.c.toNat]) →
    let per := dxPer o.dst
    let bs := dxBlocks o.dst (h.part o.g)
    let z := nextZ (h.rnd o.rnd) h.f.z
    let src (n : Nat) := decodeF o.src (modeDaz h.w.mode) (h.w.elem o.src.width (o.a.toNat + (dxPlace o.src n).1)
      (dxPlace o.src n).2.1 (dxPlace o.src n).2.2)
    let blk (b : Nat) := quantBlock o.dst
      (fun i => howOf (h.rnd o.rnd) z ((32 * b + i) / per) per ((32 * b + i) % per))
      ((List.range 32).map fun i => src (32 * b + i))
    Trapping (.dxq o) s h (dxMask o.dst bs) (fun l => (blk (l / dxLanes o.dst)).2.2.2)
      (Completes (.dxq o) s h { v := [o.d.toNat, o.c.toNat], flags := true, z := true } fun w =>
        (∀ b i, b ∈ bs → i < 32 → w.elem (32 / per) o.d.toNat ((32 * b + i) / per) ((32 * b + i) % per) =
          (blk b).2.2.1.getD i 0 % 2 ^ (32 / per)) ∧
        (∀ b, b ∈ bs → w.elem 16 o.c.toNat (dxScaleAt o.grp.toNat b).1 (b % 2) =
          ((blk b).1 + 256 * (blk b).2.1) % 2 ^ 16) ∧
        (∀ l, l < 96 → (dxMask o.dst bs).getLsbD l = false → w.readV o.d.toNat l = h.w.readV o.d.toNat l) ∧
        (∀ b, b < 96 / dxLanes o.dst → b ∉ bs → w.elem 16 o.c.toNat (dxScaleAt o.grp.toNat b).1 (b % 2) =
          h.w.elem 16 o.c.toNat (dxScaleAt o.grp.toNat b).1 (b % 2)) ∧
        ∀ l, l < 96 → (∀ b, b < 96 / dxLanes o.dst → (dxScaleAt o.grp.toNat b).1 ≠ l) →
          w.readV o.c.toNat l = h.w.readV o.c.toNat l)) ∧
  ∀ o s h, wellFormed (.dxd o) = true →
    Clear s h ([o.a.toNat, o.c.toNat] ++ (List.range (dxRegs o.src o.dst)).map (o.d.toNat + ·)) →
    let per := dxPer o.src
    let mode := if o.dst = .f16 then h.rnd o.rnd else .rne
    let z := nextZ mode h.f.z
    let out (r l j : Nat) : FVal × Flags :=
      let n := if o.dst.width = 32 then 96 * r + l else 192 * r + 2 * l + j
      let sc := bits (h.w.readV o.c.toNat (dxScaleAt o.grp.toNat (n / 32)).1) (dxScaleAt o.grp.toNat (n / 32)).2 16
      match decodeDx o.src (sc % 256) (sc / 256) (h.w.elem (32 / per) o.a.toNat (n / per) (n % per)) with
      | .fin neg x e =>
        if o.dst = .f16 then roundTo .f16 (howOf mode z l 2 j) (modeFtz h.w.mode) ⟨neg, x, e⟩ else (.fin neg x e, 0)
      | v => (v, 1)
    Trapping (.dxd o) s h (h.part o.g) (fun l => orFlags ((List.range (dxRegs o.src o.dst)).map fun r =>
        orFlags ((List.range (32 / o.dst.width)).map fun j => (out r l j).2)))
      (Completes (.dxd o) s h { v := (List.range (dxRegs o.src o.dst)).map (o.d.toNat + ·), m := h.part o.g,
                                flags := true, z := true } fun w =>
        ∀ r l j, r < dxRegs o.src o.dst → l < 96 → (h.part o.g).getLsbD l = true → j < 32 / o.dst.width →
          w.elem o.dst.width (o.d.toNat + r) l j = encodeF o.dst (out r l j).1 % 2 ^ o.dst.width)

/-- The activation table: fact, actflip and the bank flip (R174, R175, R176, R257, R51). -/
def Obligations.ActivationResults : Prop :=
  (∀ g rnd sat d a b s h, Clear s h [a.toNat, d.toNat] →
    (s.stores.owner.read h.w.core).toNat = s.ctxOf h.w + 1 → s.flipping h.w.core = false → s.stores.bad = [] →
    let mode := h.rnd rnd
    let z := nextZ mode h.f.z
    let out (l : Nat) := actF (howOf mode z l 1 0) (modeDaz h.w.mode) (modeFtz h.w.mode) sat
      (s.coeff h.w.core (s.bankOf h.w.core)) (h.w.readV a.toNat l).toNat (bits (h.s b) 0 32) (bits (h.s b) 32 32)
    Trapping (.fact g rnd sat d a b) s h (h.part g) (fun l => (out l).2)
      (Completes (.fact g rnd sat d a b) s h { v := [d.toNat], m := h.part g, flags := true, z := true } fun w =>
        (∀ l, l < 96 → (h.part g).getLsbD l = true → w.readV d.toNat l = BitVec.ofNat 32 (out l).1) ∧
        w.flags = h.w.flags ||| orFlags ((lanesOf (h.part g)).map fun l => (out l).2))) ∧
  (∀ s h, Clear s h [] → (s.stores.owner.read h.w.core).toNat = s.ctxOf h.w + 1 →
    (∀ n, h.f.wait ≠ .flip n) →
    let before := (s.copies.filter fun x => x.2.core == h.w.core && x.2.kind == .cpact).map (·.1)
    ∃ w, exec .actflip s = .next ({ s with stores := { s.stores with
        flips := s.stores.flips ++ [(h.w.core, h.key, s.draw, before)] }, draw := s.draw + 1 }.putWave h.key w) ∧
      w = h.w.setFrag h.side (some { h.f with wait := .flip s.draw })) ∧
  ∀ core k n before s h, s.stores.flips.find? (fun x => x.1 == core) = some (core, k, n, before) →
    (∀ x ∈ before, s.copies.get? x = none) →
    (∀ x ∈ s.seqs, x.2.core = core → ∀ m ∈ x.2.ops, m.isActDrain = false) →
    let s1 := { s with stores := { s.stores with bank := s.stores.bank.write core (s.stores.bank.read core ^^^ 1),
                                                 flips := s.stores.flips.filter fun x => !(x.2.1 == k && x.2.2.1 == n) } }
    s.fragment k h.side = some h → h.f.wait = .flip n →
    (h.side = true → ∀ g, s.fragment k false = some g → g.f.wait ≠ .flip n) →
    ∃ t, exec (.activationBankFlip core) s = .next t ∧ t.stores = s1.stores ∧
      Framed s1 t h {}

/-- Geometric predicates: issue, commit and stage counts (R309, R310, R312, R314, R316, R318). -/
def Obligations.GeometryResults : Prop :=
  (∀ p ∈ ([(Instr.orient2, 3, 2), (Instr.orient3, 4, 3), (Instr.incirc, 4, 2), (Instr.insph, 5, 3), (Instr.segx, 4, 2)] :
      List ((GeoOp → Instr) × Nat × Nat)),
    ∀ o s h, Clear s h (geoRegs o p.2.1 p.2.2 ++ [o.d.toNat]) →
      (o.code = true ∨ ∀ l, l < 96 → (h.part o.g).getLsbD l = true →
        (h.geoPoints o p.2.1 p.2.2 l).flatten.all FVal.isFinite = true) →
      s.escalated h.w.core + 96 ≤ 192 →
      ∃ t q, exec (p.1 o) s = .next t ∧ Framed { s with stores := t.stores, draw := t.draw } t h {} ∧
        t.stores = { s.stores with preds := s.stores.preds ++ [(h.w.core, q)] } ∧
        q.wave = h.key ∧ (∀ f, t.fragment h.key h.side = some f → q.token ∈ f.f.preds) ∧ q.d = o.d.toNat ∧ q.lanes = h.part o.g ∧
        ∀ l, l < 96 → (q.marked.getLsbD l = true ↔ (h.part o.g).getLsbD l = true ∧
          (h.geoPoints o p.2.1 p.2.2 l).flatten.all FVal.isFinite = false)) ∧
  (∀ core s, resolvable core [] s.stores.preds ≠ [] → ∃ x ∈ resolvable core [] s.stores.preds, ∃ n t,
    exec (.predicateCommit core) s = .next t ∧ t = ({ s with draw := n }).commitPred x ∧
      t.stores = { s.stores with preds := s.stores.preds.erase x } ∧
      ∀ w, s.waves.get? x.2.wave = some w → t.waves.get? x.2.wave = some (w.commitPred x.2) ∧
        ∀ r l, l < 96 → (w.commitPred x.2).readV r l =
          if r = x.2.d ∧ x.2.lanes.getLsbD l = true then x.2.res.read l else w.readV r l) ∧
  ∀ clr d n s h, wellFormed (.gstat clr d n) = true → Clear s h [] →
    (∀ x ∈ s.stores.preds, ¬ (x.2.wave = h.key ∧ x.2.token ∈ h.f.preds)) →
    ∃ t w, exec (.gstat clr d n) s = .next t ∧ t = s.putWave h.key w ∧
      Framed s (s.putWave h.key { w with st0 := h.w.st0, st1 := h.w.st1, st2 := h.w.st2 }) h { s := [d.toNat] } ∧
      w.readS h.side d.toNat = h.stored d.toNat ((h.w.stage n.toNat).setWidth 64) ∧
      ∀ k, k < 3 → w.stage k = if clr = true ∧ k = n.toNat then 0 else h.w.stage k

/-- Branches and computed transfers: where they go and their frame (R146). -/
def Obligations.BranchesLand : Prop :=
  (∀ s h t p l s1, Clear s h [] → target1 h.f.pc t = .ok p → Lands s h p l s1 →
    exec (.br t) s = .next (h.goto s1 p) ∧
    ∀ x ∈ ([(fun a t => .brcNeS a t, fun v => v ≠ 0), (fun a t => .brcEqS a t, fun v => v = 0)] :
        List ((BitVec 6 → W32 → Instr) × (W64 → Prop))), ∀ a,
      (x.2 (h.s a) → exec (x.1 a t) s = .next (h.goto s1 p)) ∧ (¬ x.2 (h.s a) → exec (x.1 a t) s = .next (h.done s1 id))) ∧
  (∀ s h t p l s1, Clear s h [] → target1 h.f.pc t = .ok p → Lands s h p l s1 →
    ∀ x ∈ ([(fun b t => .brcAnyP b t, fun m q => m &&& q ≠ 0), (fun b t => .brcAllP b t, fun m q => m &&& q = m),
        (fun b t => .brcNoneP b t, fun m q => m &&& q = 0)] : List ((BitVec 4 → W32 → Instr) × (Lanes → Lanes → Prop))), ∀ b,
      (x.2 h.f.mask (h.w.readP b.toNat) → exec (x.1 b t) s = .next (h.goto s1 p)) ∧
      (¬ x.2 h.f.mask (h.w.readP b.toNat) → exec (x.1 b t) s = .next (h.done s1 id))) ∧
  ∀ s h a (e : W32) l s1, Clear s h [] →
    (pcForm (h.s a) = true → Lands s h ((h.s a).setWidth 56) l s1 →
      exec (.ret a) s = .next (h.goto s1 ((h.s a).setWidth 56))) ∧
    (pcForm (h.s a + e.signExtend 64) = true → Lands s h ((h.s a + e.signExtend 64).setWidth 56) l s1 →
      exec (.jmp a e) s = .next (h.goto s1 ((h.s a + e.signExtend 64).setWidth 56)))

/-- A target that fails its check adjourns the transferring instruction (R85, R88, R96, R109, R70, R141). -/
def Obligations.BadTargetsAdjourn : Prop :=
  ∀ s h, Clear s h [] → h.w.mustWait s h.key = false →
    (∀ t c, target1 h.f.pc t = .error c → ∀ a b,
      ∀ i ∈ [Instr.br t, .brcNeS a t, .brcEqS a t, .brcAnyP b t, .brcAllP b t, .brcNoneP b t],
      exec i s = .next (s.adjourn h.key h.side
        { h.report c with faddr := if c = 1#64 <<< 2 then rawTarget h.f.pc t else 0 })) ∧
    (∀ t p x s1, target1 h.f.pc t = .ok p → s.landing h.w.core (s.ctxOf h.w) p = .ok (s1, x) → x.dest = none →
      ∀ a b, ∀ i ∈ [Instr.br t, .brcNeS a t, .brcEqS a t, .brcAnyP b t, .brcAllP b t, .brcNoneP b t],
        exec i s = .next (s1.adjourn h.key h.side { h.report x.causes with faddr := x.faddr })) ∧
    (∀ a, pcForm (h.s a) = false →
      exec (.ret a) s = .next (s.adjourn h.key h.side { h.report (1#64 <<< 2) with faddr := h.s a })) ∧
    ∀ a (e : W32), pcForm (h.s a + e.signExtend 64) = false →
      exec (.jmp a e) s = .next (s.adjourn h.key h.side
        { h.report (1#64 <<< 2) with faddr := h.s a + e.signExtend 64 })

/-- Calls write the link and enter their target (R144, R145, R86, R61). -/
def Obligations.CallsLink : Prop :=
  (∀ s h d t p l s1 n, Clear s h [] → target1 h.f.pc t = .ok p → Lands s h p l s1 → entryBudget l ≤ h.w.n →
    successor h.f.pc = some n →
    exec (.call d t) s = .next (h.goto s1 p fun w => w.writeS h.side d.toNat (n.setWidth 64))) ∧
  ∀ s h d a s1 n, Clear s h [a.toNat, a.toNat + 1] → successor h.f.pc = some n →
    h.calliChecks (fun l => h.w.readV64 a.toNat l) s (lanesOf h.f.mask) = .ok (s1, []) →
    (h.f.mask = 0 → exec (.calli d a) s = .next (h.done s1 fun w => w.writeS h.side d.toNat (n.setWidth 64))) ∧
    ∀ v, h.f.mask ≠ 0 → (∀ l, l < 96 → h.f.mask.getLsbD l = true → h.w.readV64 a.toNat l = v) →
      exec (.calli d a) s = .next (h.goto s1 (v.setWidth 56) fun w => w.writeS h.side d.toNat (n.setWidth 64))

/-- brv: one fragment becomes two (R135, R138, R142, R71). -/
def Obligations.SplitsDivide : Prop :=
  ∀ s h b t j T J l1 l2 s1 s2, Clear s h [] → target1 h.f.pc t = .ok T → Lands s h T l1 s1 →
    target2 h.f.pc j = .ok J → Lands s1 h J l2 s2 →
    let K := h.f.mask &&& h.w.readP b.toNat
    (K = 0 → exec (.brv b t j) s = .next (h.done s2 id)) ∧
    (K ≠ 0 → K = h.f.mask → exec (.brv b t j) s = .next (h.goto s2 T)) ∧
    (K ≠ 0 → K ≠ h.f.mask →
      (h.w.frag (!h.side) = none → ∃ w f g, exec (.brv b t j) s =
          .next (((s2.sharePosts h.f.id s2.draw).drawn).putWave h.key w) ∧
        w = (h.w.setFrag h.side (some f)).setFrag (!h.side) (some g) ∧
        g = { id := s2.draw, pc := T, owned := K, mask := K, recon := some J, z := h.f.z } ∧
        (f.pc, f.fetch) = advancePc h.f.pc h.f.fetch ∧ f.wait = .none ∧ f.owned = h.f.owned &&& ~~~K ∧ f.mask = h.f.mask &&& ~~~K ∧ f.recon = some J ∧ f.z = h.f.z) ∧
      (∀ o, h.w.frag (!h.side) = some o → h.w.stack.length < 32 → ∃ t' w n, exec (.brv b t j) s = .next t' ∧
        t'.waves.get? h.key = some w ∧ w.stack = (o, s2.draw) :: h.w.stack ∧
        w.frag (!h.side) = some { id := n, pc := T, owned := K, mask := K, recon := some J, z := h.f.z }) ∧
      (∀ o, h.w.frag (!h.side) = some o → h.w.stack.length = 32 → h.w.mustWait s h.key = false →
        exec (.brv b t j) s = .next (s2.adjourn h.key h.side (h.report (1#64 <<< 6)))))

/-- join (R143). -/
def Obligations.JoinsGoToReconvergence : Prop :=
  ∀ s h, Clear s h [] →
    (∀ r, h.f.recon = some r → exec .join s = .next (h.goto s r) ∧
      ∃ g, (h.goto s r).fragment h.key h.side = some g ∧ g.f.pc = r ∧ g.f.arrived = true) ∧
    (h.f.recon = none → exec .join s = .next (h.done s id))

/-- Arrival: two fragments at their common target become one (R136, R138). -/
def Obligations.FragmentsFuse : Prop :=
  ∀ s h, s.health.inReset = false → s.fragment h.key h.side = some h → h.w.budget ≠ 0 → h.f.arrived = true →
    (∀ g, h.w.frag (!h.side) = some g → g.atRecon = true → g.recon = h.f.recon → h.w.stack = [] → ∃ f,
      turn (.issue h.key h.side) s = .next ((s.sharePosts g.id h.f.id).putWave h.key { h.w with fa := some f, fb := none }) ∧
      f.owned = h.f.owned ||| g.owned ∧ f.mask = h.f.mask ||| g.mask ∧ f.pc = h.f.pc ∧ f.fetch = h.f.fetch.fuse g.fetch ∧ f.recon = none ∧
      f.z = if lowest h.f.owned < lowest g.owned then h.f.z else g.z) ∧
    (∀ g, h.w.frag (!h.side) = some g → ¬ (g.atRecon = true ∧ g.recon = h.f.recon) →
      turn (.issue h.key h.side) s = .next s) ∧
    (h.w.frag (!h.side) = none → h.w.stack = [] →
      turn (.issue h.key h.side) s = .next (s.putWave h.key (h.w.setFrag h.side (some { h.f with recon := none }))))

/-- end: fragments and waves end (R137, R149, R265, R384). -/
def Obligations.EndsOfFragments : Prop :=
  (∀ s h, Clear s h [] →
    (∀ g, h.w.frag (!h.side) = some g → exec .endF s = .next (s.putWave h.key (h.w.setFrag h.side none))) ∧
    (∀ g w1, h.w.frag (!h.side) = none → s.popFrag h.w = some (.ok (g, w1)) →
      exec .endF s = .next (s.putWave h.key { w1 with fa := some g, fb := none })) ∧
    (h.w.frag (!h.side) = none → h.w.stack = [] → s.lastWave h.key h.w = false →
      exec .endF s = .next (((s.passes h.w.core h.w.watch).putWave h.key
        { h.w with status := .retired, fa := none, fb := none, watch := none }).leaveGroups h.w.crew h.w.wid))) ∧
  ∀ s k w, s.waves.get? k = some w → w.status = .retired → (∀ p ∈ s.stores.preds, p.2.wave ≠ k) →
    exec (.waveRetire k) s = .next (s.freeWave k).sweep

/-- nop, yield, sleep and rgn (R147, R151, R152, R102). -/
def Obligations.PlainControl : Prop :=
  (∀ s h, Clear s h [] →
    Completes .nop s h {} (fun _ => True) ∧ Completes .yield s h {} (fun _ => True) ∧
    (h.f.wait = .none → Completes (.sleep 0) s h {} (fun _ => True)) ∧
    (∀ e : W32, h.f.wait = .none → e ≠ 0 → exec (.sleep e) s = .next (s.putWave h.key (h.w.setFrag h.side
      (some { h.f with wait := .time (s.clk + e.setWidth 64) })))) ∧
    (∀ a m, a.toNat < h.w.n → (∀ i, i < 32 → m.getLsbD i = true → a.toNat + i < h.w.n) →
      exec (.rgn a m) s = .next (h.done s fun w => { w with opbuf := rgnRegs a m })) ∧
    (∀ a m, h.w.mustWait s h.key = false → (h.w.n ≤ a.toNat ∨ ∃ i, i < 32 ∧ m.getLsbD i = true ∧ h.w.n ≤ a.toNat + i) →
      exec (.rgn a m) s = .next (s.adjourn h.key h.side (h.report 1)))) ∧
  (∀ s k b h t, s.fragment k b = some h → h.f.wait = .time t → t ≤ s.clk → h.f.fetched = true →
    exec (.timeWaitExpiry k b) s = .next (h.done s id)) ∧
  ∀ s h, s.seqHere = some h → exec .nop s = .next (s.putInst h.key h.i.advance)

/-- brk (R150). -/
def Obligations.BreaksAdjourn : Prop :=
  (∀ s h e, Clear s h [] → h.w.mustWait s h.key = false → exec (.brk e) s = .next (s.adjourn h.key h.side
    { causes := 1#64 <<< 24, pc := (advancePc h.f.pc h.f.fetch).1.setWidth 64, amask := h.f.mask, fmask := h.f.mask,
      faddr := e ++ h.f.pc })) ∧
  ∀ s h e, s.seqHere = some h → h.i.ops = [] → exec (.brk e) s = .next ((s.putInst h.key { h.i with audit := false }).adjournInst h.key
    { causes := 1#64 <<< 24, pc := (advancePc h.i.pc h.i.fetch).1.setWidth 64, faddr := e ++ h.i.pc })

/-- Translations, fetches, checks and loads change no memory (R195, R268, R272, R324, R326, R328, R491). -/
def Obligations.ReadsAreQuiet : Prop :=
  (∀ (s s1 : State) die ctx va k pa, s.translate die ctx va k = (s1, .ok pa) → ∃ tlb, s1 = s.setMem { s.mem with tlb := tlb }) ∧
  (∀ (s s1 : State) core ctx p l t, s.landing core ctx p = .ok (s1, { dest := some (t, l) }) →
    t = p ∧ parityOk l = true ∧ lineKind l ≠ 3 ∧ lineTgt l (slotOf p) = true ∧ ∃ tlb bf c,
      s1 = { s with mem := { s.mem with tlb := tlb }, stores := { s.stores with badFetch := bf },
                    health := { s.health with counters := c } }) ∧
  (∀ (h : Here) (s s1 : State) k addr n ls ps, Passes h s (h.globalChecks s k addr n) ls addr s1 ps →
    ∃ tlb, s1 = s.setMem { s.mem with tlb := tlb }) ∧
  ∀ (s : State) core alloc ps, Coherent s → core < 4096 → Reach s (core / 512) ps →
    (∀ p ∈ ps, p.pa % 128 + p.len ≤ 128) →
    Coherent (s.loadPieces core alloc ps).1 ∧ Quiet s (s.loadPieces core alloc ps).1 ∧
    (∀ p, ps = [p] → s.mem.l1.get? (l1Key core (p.pa / 128)) = none →
      (s.loadPieces core alloc ps).2 = (List.range p.len).map fun i => s.mem.byteAt (p.pa + i))

/-- Vector loads from global memory: result and frame (R192, R193, R195, R198, R199, R201, R268). -/
def Obligations.LoadResults : Prop :=
  (∀ o s h s1 ps, Clear s h (amRegs o.am o.b ++ dataRegs o.ty o.rf o.v.toNat) →
    Passes h s (h.globalChecks s .read (h.addr o.am o.a o.b o.imm) (laneBytes o.ty o.rf)) (lanesOf (h.part o.g))
      (h.addr o.am o.a o.b o.imm) s1 ps →
    (∀ x ∈ ps, ∀ p ∈ x.2, s1.spoiled h.w.core p = false) →
    let q := State.loadLanes h.w.core (o.hnt != .stream) (h.glimpses s1 ps) s1 ps
    Ends (.ldg o) s (h.loadDone s1 q.1 ps) h { v := dataRegs o.ty o.rf o.v.toNat, m := h.part o.g } (fun w =>
      ∀ l, l < 96 → (h.part o.g).getLsbD l = true →
        w.dataIs o.ty o.rf o.v.toNat l (loadValue o.ty o.rf (laneOf q.2 l))) ∧
    (Coherent s → h.w.core < 4096 → (∀ x ∈ ps, Reach s (h.w.core / 512) x.2) → Quiet s q.1 ∧
      ((∀ p ∈ s.mem.posts, p.parts.any (fun x => (ps.flatMap (·.2)).any x.meets) = false) → Quiet s (h.loadDone s1 q.1 ps)))) ∧
  ∀ g ty hnt rf d a b (e : W32) s h s1 ps, Clear s h (dataRegs ty rf d.toNat) →
    let addr := fun l => h.s a + e.signExtend 64 + BitVec.ofNat 64 l * h.s b
    Passes h s (h.globalChecks s .read addr (laneBytes ty rf)) (lanesOf (h.part g)) addr s1 ps →
    (∀ x ∈ ps, ∀ p ∈ x.2, s1.spoiled h.w.core p = false) →
    let q := State.loadLanes h.w.core (hnt != .stream) (h.glimpses s1 ps) s1 ps
    Ends (.ldgs g ty hnt rf d a b e) s (h.loadDone s1 q.1 ps) h { v := dataRegs ty rf d.toNat, m := h.part g } (fun w =>
      ∀ l, l < 96 → (h.part g).getLsbD l = true → w.dataIs ty rf d.toNat l (loadValue ty rf (laneOf q.2 l))) ∧
    (Coherent s → h.w.core < 4096 → (∀ x ∈ ps, Reach s (h.w.core / 512) x.2) → Quiet s q.1 ∧
      ((∀ p ∈ s.mem.posts, p.parts.any (fun x => (ps.flatMap (·.2)).any x.meets) = false) → Quiet s (h.loadDone s1 q.1 ps)))

/-- Scalar loads and stores: result and frame (R202, R195, R60, R61, R268, R269). -/
def Obligations.ScalarMemoryResults : Prop :=
  ∀ ty hnt d a (e : W32) s h, Clear s h [] →
    let va := h.s a + e.signExtend 64
    let r := s.checkGlobal h.w.core (s.launchOf h.w) .read va.toNat (ty.width / 8)
    let v := s.checkGlobal h.w.core (s.launchOf h.w) .write va.toNat (ty.width / 8)
    (h.f.mask = 0 → exec (.lds ty hnt d a e) s = .next (h.done s id) ∧ exec (.sts ty hnt d a e) s = .next (h.done s id)) ∧
    (∀ s1 ps, h.f.mask ≠ 0 → r = (s1, .ok ps) → (∀ p ∈ ps, s1.spoiled h.w.core p = false) →
      let q := State.loadLanes h.w.core (hnt != .stream) (h.glimpses s1 [(0, ps)]) s1 [(0, ps)]
      Ends (.lds ty hnt d a e) s (h.loadDone s1 q.1 [(0, ps)]) h { s := [d.toNat] } (fun w =>
        w.readS h.side d.toNat = h.stored d.toNat (fillS ty (laneOf q.2 0))) ∧
      (Coherent s → h.w.core < 4096 → Reach s (h.w.core / 512) ps → Quiet s q.1 ∧
        ((∀ p ∈ s.mem.posts, p.parts.any (fun x => ps.any x.meets) = false) → Quiet s (h.loadDone s1 q.1 [(0, ps)])))) ∧
    ∀ s1 ps, h.f.mask ≠ 0 → v = (s1, .ok ps) →
      let t := h.post s1 (lanePosts ps (leBytes (ty.width / 8) (h.s d).toNat))
      Ends (.sts ty hnt d a e) s t h {} (fun _ => True) ∧ (∀ x, t.mem.byteAt x = s.mem.byteAt x) ∧
      ∀ (f : Nat → Byte) x, (lanePosts ps (leBytes (ty.width / 8) (h.s d).toNat)).foldl (fun f p => patched p.parts p.data f) f x =
        patched ps (leBytes (ty.width / 8) (h.s d).toNat) f x

/-- Vector stores to global memory: result and frame (R192, R195, R197, R198, R200, R43, R49, R269). -/
def Obligations.StoreResults : Prop :=
  (∀ o s h s1 ps, Clear s h (amRegs o.am o.b ++ dataRegs o.ty o.rf o.v.toNat) →
    let n := laneBytes o.ty o.rf
    Passes h s (h.globalChecks s .write (h.target o) n) (lanesOf (h.part o.g)) (h.target o) s1 ps →
    let z := h.storeZ o
    let data := fun l => leBytes n (h.storeData o z l).1
    let all := orFlags ((lanesOf (h.part o.g)).map fun l => (h.storeData o z l).2)
    let t := h.post s1 (storePosts ps data)
    (all &&& modeTraps h.w.mode = 0 →
      Ends (.stg o) s t h { flags := true, z := true } (fun w =>
        w.flags = h.w.flags ||| all ∧ (w.frag h.side).map (·.z) = some z)) ∧
    (all &&& modeTraps h.w.mode ≠ 0 → h.w.mustWait s h.key = false →
      ∃ r : Report, r.causes = 1#64 <<< 10 ∧ exec (.stg o) s = .next (s1.adjourn h.key h.side r)) ∧
    ∀ a, t.mem.byteAt a = s.mem.byteAt a) ∧
  (∀ m ps (data : Nat → List Byte) n, ps.map (·.1) = lanesOf m → (∀ x ∈ ps, (x.2.map (·.len)).sum = n) →
    (∀ l, (data l).length = n) → ∀ (f : Nat → Byte) a,
      (storePosts ps data).foldl (fun f p => patched p.parts p.data f) f a = ps.foldl (fun f x => patched x.2 (data x.1) f) f a) ∧
  ∀ s (p : Post), Coherent s → p.core < 4096 → Reach s (p.core / 512) p.parts →
    Coherent (s.performed p) ∧ Wrote s (s.performed p) (patched p.parts p.data s.mem.byteAt) ∧
    ∀ a, a < 2 ^ 52 → (∀ x ∈ p.parts, ¬ (x.pa ≤ a ∧ a < x.pa + x.len)) → (s.performed p).mem.byteAt a = s.mem.byteAt a

/-- Loads and stores of the cluster space: result and frame (R192, R193, R197, R199, R200, R207, R258, R263). -/
def Obligations.LocalResults : Prop :=
  ∀ o s h, Clear s h (amRegs o.am o.b ++ dataRegs o.ty o.rf o.v.toNat) →
    let n := laneBytes o.ty o.rf
    let c := s.crew h.w.crew
    ((∀ l ∈ lanesOf (h.part o.g), LocalOk s c false false (h.target o l).toNat n) →
      Completes (.ldl o) s h { v := dataRegs o.ty o.rf o.v.toNat, m := h.part o.g } fun w =>
        ∀ l, l < 96 → (h.part o.g).getLsbD l = true → w.dataIs o.ty o.rf o.v.toNat l
          (loadValue o.ty o.rf (leNat (s.getA c.clus (h.target o l).toNat n)))) ∧
    ((∀ l ∈ lanesOf (h.part o.g), c.holds (h.target o l).toNat n = true ∧
        s.locked c.clus 0 true true (h.target o l).toNat n = false ∧
        c.fillsFor (s.launch c.launch) true (h.target o l).toNat n = []) →
      let z := h.storeZ o
      let data := fun l => leBytes n (h.storeData o z l).1
      let all := orFlags ((lanesOf (h.part o.g)).map fun l => (h.storeData o z l).2)
      let t := (lanesOf (h.part o.g)).foldl (fun s l => s.storeLocal h.w.crew (h.target o l).toNat n
        (bytesFn (h.target o l).toNat (data l))) s
      (all &&& modeTraps h.w.mode = 0 → ∃ w, exec (.stl o) s = .next (t.putWave h.key w).wake ∧
        Kept h { flags := true, z := true } w ∧ w.flags = h.w.flags ||| all ∧ (w.frag h.side).map (·.z) = some z ∧
        ((∀ p ∈ s.mem.posts, p.crews = []) → ∀ a, (t.putWave h.key w).wake.mem.byteAt a = s.mem.byteAt a)) ∧
      t = { s with stores := { s.stores with astore := t.stores.astore, bad := t.stores.bad }, crews := t.crews } ∧
      ∀ k, t.stores.astore.read k = (lanesOf (h.part o.g)).foldl (fun (f : Nat → Byte) l k =>
        let a := 2 ^ 22 * c.clus + (h.target o l).toNat
        if a ≤ k ∧ k < a + n then (data l).getD (k - a) 0 else f k) s.stores.astore.read k)

/-- pfg and cinv: effect and frame (R203, R204). -/
def Obligations.PrefetchAndInvalidate : Prop :=
  (∀ g am hnt a b (e : W32) s h, Clear s h (amRegs am b) →
    let t := (lanesOf (h.part g)).foldl (fun s l => h.prefetch (hnt == .keep) s (h.addr am a b e l)) s
    exec (.pfg g am hnt a b e) s = .next (h.done t id) ∧
    (Coherent s → h.w.core < 4096 →
      (∀ i l, (lanesOf (h.part g))[i]? = some l →
        let si := ((lanesOf (h.part g)).take i).foldl (fun s l => h.prefetch (hnt == .keep) s (h.addr am a b e l)) s
        ∃ s1 p ps, si.checkGlobal h.w.core (si.launchOf h.w) .read (h.addr am a b e l).toNat 1 = (s1, .ok (p :: ps)) ∧
          Reach s (h.w.core / 512) [p]) → Quiet s t)) ∧
  ∀ a b (e : W32) s h, Clear s h [] →
    let lo := (h.s a + e.signExtend 64).toNat
    let n := (h.s b).toNat % 2 ^ 32
    let t := if n = 0 ∨ 2 ^ 20 < n ∨ 2 ^ 56 < lo + n then s.setMem (s.mem.dropL1 h.w.core)
      else s.cinvRange h.w.core (s.ctxOf h.w) lo n
    exec (.cinv a b e) s = .next (h.done t id) ∧ (∃ l1 va, t = s.setMem { s.mem with l1 := l1, l1va := va } ∧
      ∀ c l, c ≠ h.w.core → l < 2 ^ 45 → l1.get? (l1Key c l) = s.mem.l1.get? (l1Key c l)) ∧
    ∀ x, t.mem.byteAt x = s.mem.byteAt x

/-- Global atomics: result and frame (R210, R211, R212, R213, R195). -/
def Obligations.AtomicResults : Prop :=
  (∀ p ∈ ([(Instr.atom, false, true, fun h o l old => some (atomNew o.op o.ty old (h.atomSrc o l))),
      (Instr.atomc, true, true, fun h o l old => if old = h.w.elem o.ty.width o.d.toNat l 0 then some (h.atomSrc o l) else none),
      (Instr.red, false, false, fun h o l old => some (atomNew o.op o.ty old (h.atomSrc o l)))] :
      List ((AtomOp → Instr) × Bool × Bool × (Here → AtomOp → Nat → Nat → Option Nat))),
    ∀ o s h, Clear s h ((atomUses o p.2.1 p.2.2.1).vr ++ (atomUses o p.2.1 p.2.2.1).vw) →
      (h.f.mask = 0 → exec (p.1 o) s = .next (h.done s id)) ∧ ∀ s1 s2 ps, h.f.mask ≠ 0 →
      let n := o.ty.width / 8
      Passes h s (fun t l => aligned (h.atomAddr o l).toNat n (h.globalChecks s .write (h.atomAddr o) n t l) t)
        (lanesOf (h.part o.g)) (h.atomAddr o) s1 ps →
      (if hasRel o.ord then h.release s1 o.scope else .ok s1) = .ok s2 →
      let q := State.atomicLanes h.w.core (some (s.crew h.w.crew).launch) n (p.2.2.2 h o)
        (s2.settleOver h.f.id (ps.flatMap (·.2))) ps
      q.2.2 = [] →
      Ends (p.1 o) s (if hasAcq o.ord then h.acquire q.1 o.scope else q.1) h
        { v := if p.2.2.1 then regsOf o.ty o.d.toNat else [], m := h.part o.g } fun w =>
          p.2.2.1 = true → ∀ l, l < 96 → (h.part o.g).getLsbD l = true →
            w.elem o.ty.width o.d.toNat l 0 = laneOf q.2.1 l % 2 ^ o.ty.width) ∧
  ∀ (s : State) core who pa n f, Coherent s → 0 < n → pa % 128 + n ≤ 128 → pa + n ≤ 2 ^ 52 →
    let r := s.atomicLane core who pa n f
    let old := leNat ((List.range n).map fun i => s.mem.byteAt (pa + i))
    r.2 = old ∧ Wrote s r.1 (fun a => match f old with
      | some v => if pa ≤ a ∧ a < pa + n then (leBytes n v).getD (a - pa) 0 else s.mem.byteAt a
      | none => s.mem.byteAt a)

/-- Cluster-space atomics and fences: result and frame (R207, R211, R212, R213, R236, R210). -/
def Obligations.LocalAtomicsAndFences : Prop :=
  (∀ o s h, Clear s h ((atomUses o false true).vr ++ (atomUses o false true).vw) → h.f.mask = 0 →
    exec (.atoml o) s = .next (h.done s id)) ∧
  (∀ o s h s2, Clear s h ((atomUses o false true).vr ++ (atomUses o false true).vw) → h.f.mask ≠ 0 →
    let n := o.ty.width / 8
    let c := s.crew h.w.crew
    let a := fun l => (h.atomAddr o l).toNat
    (∀ l ∈ lanesOf (h.part o.g), a l % n = 0 ∧ LocalOk s c true false (a l) n) →
    (if hasRel o.ord then h.release s o.scope else .ok s) = .ok s2 →
    let q := State.atomlLanes h.w.crew c.clus n a (fun l old => atomNew o.op o.ty old (h.atomSrc o l)) s2 (lanesOf (h.part o.g))
    let t := if hasAcq o.ord then h.acquire q.1 o.scope else q.1
    (∃ w, exec (.atoml o) s = .next (t.putWave h.key w).wake ∧ Kept h { v := regsOf o.ty o.d.toNat, m := h.part o.g } w ∧
      ∀ l, l < 96 → (h.part o.g).getLsbD l = true →
        w.elem o.ty.width o.d.toNat l 0 = laneOf q.2 l % 2 ^ o.ty.width) ∧
    ∀ x, t.mem.byteAt x = s2.mem.byteAt x) ∧
  ∀ ord sc s h s1, Clear s h [] → (if hasRel ord then h.release s sc else .ok s) = .ok s1 →
    exec (.fence ord sc) s = .next (h.done (if hasAcq ord then h.acquire s1 sc else s1) id) ∧
    ∀ x, (if hasAcq ord then h.acquire s1 sc else s1).mem.byteAt x = s1.mem.byteAt x

/-- wopen, wclose, wflush, winv and window blocks: effect and frame (R206, R207, R208, R263, R264). -/
def Obligations.WindowInstructions : Prop :=
  (∀ k s h, Clear s h [] →
    let c := s.crew h.w.crew
    (s.declared h.w.crew k.toNat = false → h.w.mustWait s h.key = false →
      ∀ i ∈ [Instr.wopen k, .wclose k, .wflush k, .winv k], exec i s = .next (s.adjourn h.key h.side (h.report cPROT))) ∧
    (s.declared h.w.crew k.toNat = true →
      (c.opened.getLsbD k.toNat = true → exec (.wopen k) s = .next (h.done s id) ∧
        exec (.winv k) s = .next (h.done (s.setCrew h.w.crew fun c => c.dropWords k.toNat (· == 2)) id) ∧
        ∀ s1, h.writeBack s [k.toNat] = .ok s1 →
          exec (.wflush k) s = .next (h.done s1 id) ∧
          exec (.wclose k) s = .next (h.done (s1.setCrew h.w.crew fun c => c.closeWin k.toNat) id)) ∧
      (c.opened.getLsbD k.toNat = false →
        exec (.wopen k) s = .next (h.done (s.setCrew h.w.crew fun c =>
          { c.dropWords k.toNat (fun _ => true) with opened := c.opened ||| (1 <<< k.toNat) }) id) ∧
        ∀ i ∈ [Instr.wclose k, .wflush k, .winv k], exec i s = .next (h.done s id))) ∧
    ∀ (s1 s2 : State) ks ps, Coherent s → State.wbCheck h.w.core h.w.crew s (c.dirty ks) = (s2, .ok ps) →
      (∀ x ∈ ps, x.2 + 4 ≤ 2 ^ 52) → s.writeBack h.w.core h.w.crew ks = (s1, .ok ()) →
      ∀ a, a < 2 ^ 52 → (∀ x ∈ ps, ¬ (x.2 ≤ a ∧ a < x.2 + 4)) → s1.mem.byteAt a = s.mem.byteAt a) ∧
  ∀ (s s2 : State) ck k blk pa,
    let c := s.crew ck
    let s1 := s.setCrew ck fun c => { c with fills := c.fills.filter (· != (k, blk)) }
    c.fills.contains (k, blk) = true → c.opened.getLsbD k = true → c.space = none →
    s1.translate (dieUnit (c.clus / 64)) (s.launch c.launch).ctx (c.winVa (s.launch c.launch) k (256 * blk)) .read = (s2, .ok pa) →
    s2.poisoned (pa / 128) = false → s2.poisoned (pa / 128 + 1) = false →
    exec (.windowFill ck k blk) s = .next (s2.installBlock ck k blk pa) ∧
    (Coherent s → c.clus < 512 → pa + 256 ≤ 2 ^ 52 → (∀ l ∈ linesOf pa 256, s.probeOk l (c.clus / 64) = true) →
      pa % 128 = 0 → ∀ a, a < 2 ^ 52 → (s2.installBlock ck k blk pa).mem.byteAt a = s.mem.byteAt a)

/-- Copies of a wave: issue and frame (R214, R215, R222, R225, R257). -/
def Obligations.CopiesAreIssued : Prop :=
  (∀ t, ∀ p ∈ ([(fun o => Instr.cpy o, CKind.cpy, Ty.none), (fun o => .cpys o, .cpys, .none), (fun o => .cpyg o, .cpyg, .none),
      (fun o => .cpyw o none, .cpyw, .none), (fun o => .cpyw o (some t), .cpywSparse, t)] : List ((Cpy → Instr) × CKind × Ty)),
    ∀ o s h, Clear s h [] →
      let c := h.copyOf s { kind := p.2.1, ty := p.2.2, src := (h.s o.a).toNat, dst := (h.s o.d).toNat, len := bits (h.s o.b) 0 32,
                            track := match o.bar with | some x => .bar (h.s x).toNat | none => .batch h.w.openB }
      let bad := c.issueBad (s.crew h.w.crew) (s.launchOf h.w)
      (h.f.mask = 0 ∨ (bad = none ∧ c.len = 0) → exec (p.1 o) s = .next (h.done s id)) ∧
      (h.f.mask ≠ 0 → bad = none → c.len ≠ 0 → s.copyFull h.w.core c = false →
        (c.inCore = false → CopyIssued (p.1 o) s s h c) ∧
        ∀ s1, c.inCore = true → s.own h.w.core c.ctx = some s1 → CopyIssued (p.1 o) s s1 h c)) ∧
  ∀ a s h, Clear s h [] →
    let c := h.copyOf s { kind := .cpact, src := (h.s a).toNat, len := 4096, track := .batch h.w.openB }
    (h.f.mask = 0 → exec (.cpact a) s = .next (h.done s id)) ∧
    (h.f.mask ≠ 0 → c.issueBad (s.crew h.w.crew) (s.launchOf h.w) = none → s.copyFull h.w.core c = false →
      ∀ s1, s.own h.w.core c.ctx = some s1 →
        let b := 1 - s1.bankOf h.w.core
        CopyIssued (.cpact a) s s1 h { c with bank := b, dst := 4096 * b })

/-- cpcommit and cpwait: effect and frame (R222, R223, R236). -/
def Obligations.BatchesCommitAndWait : Prop :=
  ∀ s h, Clear s h [] →
    (∀ d, (h.f.mask = 0 → exec (.cpcommit d) s = .next (h.done s id)) ∧
      (h.f.mask ≠ 0 → exec (.cpcommit d) s = .next (h.done s fun w =>
        { w.writeS h.side d.toNat (h.w.openB.setWidth 64) with lastB := h.w.openB, openB := h.w.openB + 1 }))) ∧
    ∀ a,
      let n0 : W32 := (h.s a).setWidth 32
      let n := if batchBefore n0 h.w.lastB then n0 else h.w.lastB
      let go := h.done (h.acquire s .crw) id
      (∀ k, h.f.wait = .batch k → exec (.cpwait a) s = .next (if s.batchDone h.key k then go else s)) ∧
      (h.f.wait = .none → h.f.mask = 0 → exec (.cpwait a) s = .next (h.done s id)) ∧
      (h.f.wait = .none → h.f.mask ≠ 0 →
        exec (.cpwait a) s = .next (if s.batchDone h.key n then go else h.await s (.batch n))) ∧
      ∀ x, go.mem.byteAt x = s.mem.byteAt x

/-- A copy segment: effect and frame (R216, R217, R218, R219, R220, R221, R222, R224). -/
def Obligations.CopySegmentsMove : Prop :=
  ∀ (s : State) key seg c, s.copies.get? key = some c → s.segDue c seg = true →
    (∀ m, c.moved.get? seg = some m → s.segStart key seg c = .ok (s, m)) ∧
    (∀ (s0 s1 s2 : State) p q, c.moved.get? seg = none → s.segOwn c = some s0 →
      let x := c.segAt seg
      let n := (c.seg seg).2
      let out := if c.sparse then min ((c.rest.length + n) / c.groupLen * (4 + c.groupLen) + (4 + c.groupLen)) c.dstLen else n
      s0.segSide c c.srcSide false x.1 n (c.patched.get? seg).isSome = (s1, .ok p) →
      s1.segSide c c.dstSide true x.2 out (c.patched.get? seg).isSome = (s2, .ok q) → s2.badBar c = none →
      s.segStart key seg c = .ok ((s2.segRead c x.1 p n).1, { dst := q, data := (s2.segRead c x.1 p n).2 })) ∧
    ∀ (s1 : State) m, s.segStart key seg c = .ok (s1, m) →
      let t := s1.segWrite key c seg m
      exec (.copySegment key seg) s = .next (t.finishSeg key seg) ∧
      (c.dstSide = .glob → Coherent s1 → (∀ p ∈ s1.mem.posts, p.seenBy c.id = false) → m.dst + m.data.length ≤ 2 ^ 52 →
        ∀ a, a < 2 ^ 52 → t.mem.byteAt a =
          if m.dst ≤ a ∧ a < m.dst + m.data.length ∧ m.mask.testBit (a - m.dst) = false then m.data.getD (a - m.dst) 0
          else s1.mem.byteAt a) ∧
      (c.dstSide ≠ .glob → (∀ p ∈ s1.mem.posts, p.crews = []) → ∀ a, t.mem.byteAt a = s1.mem.byteAt a)

/-- Matrix operations: issue (R279, R281, R282, R293, R294, R295, R296, R297, R298, R299, R300, R301). -/
def Obligations.MatrixOperationsIssue : Prop :=
  ∀ s h, s.seqHere = some h → h.i.ops.length < Config.matrixPermits →
    let has := fun x n => (s.instCrew h.i).runHas (h.i.eff x) n = true
    let own := s.own h.i.core (s.instLaunch h.i).ctx
    let idle := h.i.ops = []
    (∀ o s1, h.i.seqSr = false → has o.xa (rowsExtent o.rs (rowBytes o.fmt o.k.toNat)) →
      h.i.eff o.xb + extentB o.fmt o.sp o.k.toNat ≤ 2 ^ 18 → own = some s1 →
      exec (.mma o) s = .next (h.issued s1 (.mma o) o.xa o.xb 0)) ∧
    (∀ o s1, h.i.seqSr = false → idle → own = some s1 → exec (.mmag o) s = .next (h.issued s1 (.mmag o) o.xa o.xb 0)) ∧
    (∀ d, exec (.mzero d) s = .next (h.issued s (.mzero d) 0 0 0)) ∧
    (∀ ty d xa rs, has xa (rowsExtent rs (8 * ty.width)) → exec (.mload ty d xa rs) s = .next (h.issued s (.mload ty d xa rs) xa 0 0)) ∧
    (∀ o, idle → has o.xa (rowsExtent o.rs (8 * o.ty.width)) →
      (o.act = false → exec (.mdrain o) s = .next (h.issued s (.mdrain o) o.xa 0 0)) ∧
      ∀ s1, o.act = true → has o.xc 8 → own = some s1 → s1.flipping h.i.core = false →
        exec (.mdrain o) s = .next (h.issued s1 (.mdrain o) o.xa 0 o.xc (s1.bankOf h.i.core))) ∧
    (∀ ty rnd sat d q, idle → exec (.mdrainx ty rnd sat d q) s = .next (h.issued s (.mdrainx ty rnd sat d q) 0 0 0)) ∧
    (∀ ty d xa, h.i.seqSr = false → has xa (8 * ty.width) → exec (.mrsc ty d xa) s = .next (h.issued s (.mrsc ty d xa) xa 0 0)) ∧
    (∀ d xa xb rs, has xa (rowsExtent rs 256) → has xb (rowsExtent rs 256) →
      exec (.maffl d xa xb rs) s = .next (h.issued s (.maffl d xa xb rs) xa xb 0)) ∧
    (∀ d c, h.i.seqSr = false → exec (.mscan d c) s = .next (h.issued s (.mscan d c) 0 0 0)) ∧
    (∀ d xa, has xa 512 → exec (.mcarLoad d xa) s = .next (h.issued s (.mcarLoad d xa) xa 0 0) ∧
      (idle → exec (.mcarStore d xa) s = .next (h.issued s (.mcarStore d xa) xa 0 0))) ∧
    ∀ d, exec (.mcarReset d) s = .next (h.issued s (.mcarReset d) 0 0 0)

/-- Matrix operations on accumulators: result and frame (R52, R53, R282, R292, R293, R294, R295, R296). -/
def Obligations.MatrixProductsCommit : Prop :=
  ∀ s core m, Oldest s core m →
    (∀ o, m.o.op = .mma o →
      let f64 := o.fmt == .f64
      let k := o.k.toNat
      let b := matB o.fmt o.sp k (m.rdW s) m.o.eb
      let v := fun e => matSum o.fmt m.i.rnd (m.i.accAt f64 o.d.toNat e)
        (matRow o.fmt k (m.rdA s) (m.o.ea + e / 64 * (16 * o.rs.toNat))) (b.1.getD (e % 64) [])
      m.ready s (rowRanges m.o.ea (16 * o.rs.toNat) (rowBytes o.fmt k)) [] [(m.o.eb, b.2 - m.o.eb)]
        (accWords f64 o.d.toNat 0 64) = (s, none) →
      ∃ i1, Commits s s core m i1 ∧ OtherAcc m.i i1 f64 o.d.toNat ∧ i1.carry = m.i.carry ∧
        i1.flags = m.i.flags ||| flagsOf ((List.range 4096).map v) ∧
        ∀ e, e < 4096 → i1.accAt f64 o.d.toNat e = (v e).1 % 2 ^ (if f64 then 64 else 32)) ∧
    (∀ d, m.o.op = .mzero d → ∃ i1, exec (.matrixCommit core) s = .next (s.committed m.key i1) ∧ Commits s s core m i1 ∧ OtherAcc m.i i1 false d.toNat ∧ i1.carry = m.i.carry ∧
      i1.flags = m.i.flags ∧ ∀ e, e < 4096 → i1.accAt false d.toNat e = 0) ∧
    (∀ ty d xa rs, m.o.op = .mload ty d xa rs →
      let f64 := ty == .f64
      m.ready s (rowRanges m.o.ea (16 * rs.toNat) (8 * ty.width)) [] [] [] = (s, none) →
      ∃ i1, Commits s s core m i1 ∧ OtherAcc m.i i1 f64 d.toNat ∧ i1.carry = m.i.carry ∧ i1.flags = m.i.flags ∧
        ∀ e, e < 4096 → i1.accAt f64 d.toNat e =
          leAt (m.rdA s) (m.o.ea + e / 64 * (16 * rs.toNat) + e % 64 * (ty.width / 8)) (ty.width / 8) %
            2 ^ (if f64 then 64 else 32)) ∧
    (∀ ty d xa, m.o.op = .mrsc ty d xa →
      let f64 := ty == .f64
      let v := fun e => rescale ty m.i.rnd (m.i.accAt f64 d.toNat e) (leAt (m.rdA s) (m.o.ea + e / 64 * (ty.width / 8)) (ty.width / 8))
      m.ready s [(m.o.ea, 64 * (ty.width / 8))] [] [] (accWords f64 d.toNat 0 64) = (s, none) →
      ∃ i1, Commits s s core m i1 ∧ OtherAcc m.i i1 f64 d.toNat ∧ i1.carry = m.i.carry ∧
        i1.flags = m.i.flags ||| flagsOf ((List.range 4096).map v) ∧
        ∀ e, e < 4096 → i1.accAt f64 d.toNat e = (v e).1 % 2 ^ (if f64 then 64 else 32)) ∧
    ∀ o s1 i1, m.o.op = .mmag o → m.mmag s o = (s1, .ok i1) → Commits s s1 core m i1 ∧
      OtherAcc m.i i1 (o.fmt == .f64) o.d.toNat ∧ i1.carry = m.i.carry ∧ leAt (m.rdA s) m.o.eb 4 ≤ 64 ∧
      ((m.groups s).map (·.rows)).sum ≤ 64 ∧
      i1.rowmask = (groupStarts 0 (m.groups s)).foldl (fun x g => x ||| (1#64) <<< g.1) 0

/-- Drains, affine operands and carries: result and frame (R282, R297, R299, R300, R301). -/
def Obligations.MatrixDrainsCommit : Prop :=
  ∀ s core m, Oldest s core m →
    (∀ o, m.o.op = .mdrain o → o.act = false →
      m.ready s [] (rowRanges m.o.ea (16 * o.rs.toNat) (8 * o.ty.width)) [] (accWords (o.ty == .f64) o.d.toNat 0 64) = (s, none) →
      let r := m.i.drainRows o.ty none (effMode (m.i.mode.setWidth 32) o.rnd) o.sat o.d.toNat
      ∃ i1, Commits s ((s.storeRows m.i.crew (m.c.base + m.o.ea) (16 * o.rs.toNat) r.1).keepBytes s m.c m.o.put) core m i1 ∧ i1.acc = m.i.acc ∧
        i1.carry = m.i.carry ∧ i1.flags = m.i.flags ||| r.2.1 ∧ i1.mode = r.2.2 ++ (m.i.mode.setWidth 32 : W32)) ∧
    (∀ o s1 i1, m.o.op = .mdrain o → m.mdrain s o = (s1, .ok i1) → Commits s s1 core m i1 ∧ i1.acc = m.i.acc ∧
      i1.carry = m.i.carry) ∧
    (∀ d xa xb rs, m.o.op = .maffl d xa xb rs →
      m.ready s (rowRanges m.o.ea (16 * rs.toNat) 256 ++ rowRanges m.o.eb (16 * rs.toNat) 256) [] [] [] = (s, none) →
      ∃ i1, Commits s s core m i1 ∧ OtherAcc m.i i1 true d.toNat ∧ i1.carry = m.i.carry ∧ i1.flags = m.i.flags ∧
        ∀ e, e < 4096 →
          i1.accAt false d.toNat e = leAt (m.rdA s) (m.o.ea + e / 64 * (16 * rs.toNat) + 4 * (e % 64)) 4 ∧
          i1.accAt false (d.toNat + 1) e = leAt (m.rdA s) (m.o.eb + e / 64 * (16 * rs.toNat) + 4 * (e % 64)) 4) ∧
    (∀ d c, m.o.op = .mscan d c → m.ready s [] [] [] (accWords true d.toNat 0 64 ++ carryCodes c.toNat) = (s, none) →
      let col := fun j => scanColumn m.i.rnd (m.i.mode.getLsbD 10) ((List.range 64).map fun r =>
        (m.i.accAt false d.toNat (64 * r + j), m.i.accAt false (d.toNat + 1) (64 * r + j))) (m.i.carryAt c.toNat j)
      ∃ i1, Commits s s core m i1 ∧ OtherAcc m.i i1 true d.toNat ∧ i1.chunk = m.i.chunk + 1 ∧
        ∀ j, j < 64 → i1.carryAt c.toNat j = ((col j).2.1.1 % 2 ^ 32, (col j).2.1.2 % 2 ^ 32) ∧
          ∀ r, r < 64 → i1.accAt false d.toNat (64 * r + j) = ((col j).1.getD r (0, 0)).1 % 2 ^ 32 ∧
            i1.accAt false (d.toNat + 1) (64 * r + j) = ((col j).1.getD r (0, 0)).2 % 2 ^ 32) ∧
    (∀ c xa, m.o.op = .mcarLoad c xa → m.ready s [(m.o.ea, 512)] [] [] [] = (s, none) →
      ∃ i1, Commits s s core m i1 ∧ i1.acc = m.i.acc ∧ i1.chunk = 0 ∧ ∀ j, j < 64 →
        i1.carryAt c.toNat j = (leAt (m.rdA s) (m.o.ea + 8 * j) 4, leAt (m.rdA s) (m.o.ea + 8 * j + 4) 4)) ∧
    (∀ c xa, m.o.op = .mcarStore c xa → m.ready s [] [(m.o.ea, 512)] [] (carryCodes c.toNat) = (s, none) →
      ∃ i1, Commits s (s.storeLocal m.i.crew (m.c.base + m.o.ea) 512 (bytesFn (m.c.base + m.o.ea) ((List.range 64).flatMap fun j =>
          leBytes 4 (m.i.carryAt c.toNat j).1 ++ leBytes 4 (m.i.carryAt c.toNat j).2))) core m i1 ∧
        i1.acc = m.i.acc ∧ i1.carry = m.i.carry) ∧
    ∀ c, m.o.op = .mcarReset c → ∃ i1, exec (.matrixCommit core) s = .next (s.committed m.key i1) ∧ Commits s s core m i1 ∧ i1.acc = m.i.acc ∧ i1.chunk = 0 ∧
      ∀ j, j < 64 → i1.carryAt c.toNat j = (0x3F800000, 0)

/-- Loops and affine registers of the sequencer: effect (R286, R287, R288). -/
def Obligations.SequencerLoops : Prop :=
  ∀ s h, s.seqHere = some h →
    let loops := fun (i : Instr) n (j : Inst) =>
      (h.i.depth = 3 → h.i.ops = [] → exec i s = .next (s.adjournInst h.key (h.report cILL 0))) ∧
      (h.i.depth ≠ 3 → n ≠ 0 → exec i s = .next (h.done s fun _ => { j with
        depth := h.i.depth + 1, ctr := h.i.ctr.set h.i.depth (BitVec.ofNat 32 n),
        start := h.i.start.set h.i.depth (advancePc h.i.pc h.i.fetch).1 })) ∧
      ∀ s1 pc fetch, h.i.depth ≠ 3 → n = 0 →
        State.skipFrom h.i.core (s.instLaunch h.i).ctx (2 ^ 54) s (advancePc h.i.pc h.i.fetch).1 (advancePc h.i.pc h.i.fetch).2 0 =
          (s1, .to pc fetch) → exec i s = .next (s1.putInst h.key { j with pc, fetch, wait := .none })
    (∀ n, loops (.sloop n) n.toNat h.i) ∧
    (∀ xa, SeqReads s h (h.i.eff xa) 4 → loops (.sloopInd xa)
      (leNat (s.getA (s.instCrew h.i).clus ((s.instCrew h.i).base + h.i.eff xa) 4)) (h.i.note [(h.i.eff xa, 4)] [])) ∧
    (h.i.depth = 0 → h.i.ops = [] → exec .sendl s = .next (s.adjournInst h.key (h.report cILL 0))) ∧
    (h.i.depth ≠ 0 →
      let l := h.i.depth - 1
      let c : W32 := h.i.ctr.getD l 0 - 1
      let i := { h.i.stepBases l with ctr := h.i.ctr.set l c }
      let t := h.i.start.getD l 0
      (c ≠ 0 → exec .sendl s = .next (s.putInst h.key { i with
        pc := t, fetch := if lineAddr t = lineAddr h.i.pc then h.i.fetch else .none, wait := .none })) ∧
      (c = 0 → exec .sendl s = .next (h.done s fun _ => { i with depth := l })) ∧
      ∀ n, n < 16 → i.base.read n = h.i.base.read n + (h.i.stride.read (3 * n + l)).signExtend 48) ∧
    (∀ d off pc,
      let o := off.toNat + if pc = true then 32 * (h.i.core % 8) else 0
      let r := leNat (s.getA (s.instCrew h.i).clus ((s.instCrew h.i).base + o) 32)
      SeqReads s h o 32 → ∃ i, exec (.sadr d off pc) s = .next (h.done s fun _ => i) ∧
        i.base.read d.toNat = BitVec.ofNat 48 r ∧
        (∀ k, k < 3 → i.stride.read (3 * d.toNat + k) = BitVec.ofNat 32 (r / 2 ^ (64 + 32 * k))) ∧
        (∀ n, n ≠ d.toNat → i.base.read n = h.i.base.read n) ∧
        (∀ k, k / 3 ≠ d.toNat → i.stride.read k = h.i.stride.read k) ∧
        { i with base := h.i.base, stride := h.i.stride, audit := h.i.audit } = h.i) ∧
    ∀ d t (e : W32), ∃ i, exec (.sinc d t e) s = .next (h.done s fun _ => i) ∧
      { i with base := h.i.base, stride := h.i.stride } = h.i ∧
      (∀ n, i.base.read n = if t = 0 ∧ n = d.toNat then h.i.base.read n + e.signExtend 48 else h.i.base.read n) ∧
      ∀ k, i.stride.read k = if t ≠ 0 ∧ k = 3 * d.toNat + (t.toNat - 1) then e else h.i.stride.read k

/-- Barriers, copies, hints and tile tasks of the sequencer: effect (R289, R290, R291, R302, R303, R236). -/
def Obligations.SequencerSynchronisation : Prop :=
  ∀ s h, s.seqHere = some h →
    let c := s.instCrew h.i
    let obj := fun (off : Nat) => c.runHas off 16 = true ∧ h.clear s off 16 = true ∧ (wordsOf (c.base + off) 16).find? (s.badWord c.clus) = none
    (∀ off, obj off.toNat → s.instQuiet h = true →
      exec (.sbarr off) s = .next (((h.done s id).setBarObj c.clus (c.base + off.toNat)
        ((s.barObj c.clus (c.base + off.toNat)).arrive 1)).wake)) ∧
    (∀ off ph l, obj off.toNat → (l.toNat = 3 ∨ l.toNat < h.i.depth) →
      exec (.sbwait off ph l) s = .next (if s.objPh c.clus (c.base + off.toNat) = h.i.phase ph l.toNat
        then (h.done s id).seqAcquire h.i
        else s.putInst h.key { h.i with wait := .barrier (c.base + off.toNat) (h.i.phase ph l.toNat) })) ∧
    (∀ d a len kind ty, h.i.ops = [] →
      let k := h.scpyOf s d a len.toNat kind ty
      k.issueBad c (s.instLaunch h.i) = none →
      (k.len = 0 → exec (.scpy d a len kind ty) s = .next (h.done s id)) ∧
      (k.len ≠ 0 → (s.instCopies h.key).length < Config.copyPermits → s.copyFull h.i.core k = false →
        (s.instCopies h.key).all (fun o => !s.copyClash o k) = true →
        (k.inCore = false → exec (.scpy d a len kind ty) s = .next ((h.done s fun i => i.noteCopy s k).addCopy k)) ∧
        ∀ s1, k.inCore = true → s.own h.i.core (s.instLaunch h.i).ctx = some s1 →
          exec (.scpy d a len kind ty) s = .next ((h.done s1 fun i => i.noteCopy s1 k).addCopy k))) ∧
    (∀ n, exec (.shint n) s = .next (h.done s fun i => { i with ramp := n })) ∧
    (∀ e i, h.i.ops = [] → (s.closeTile h.key).seqs.get? h.key = some i →
      exec (.saud e) s = .next ((s.closeTile h.key).putInst h.key (if e then i.advance.openTile else i.advance))) ∧
    (s.instQuiet h = true → exec (.sfin none) s = .next (h.done s id)) ∧
    (∀ off, s.instQuiet h = true → c.runHas off.toNat 16 = true →
      exec (.sfin (some off)) s = .next ((h.done s id).putA c.clus (c.base + off.toNat) 16 (bytesFn (c.base + off.toNat)
        (leBytes 8 h.i.mode.toNat ++ leBytes 8 h.i.flags.toNat))).wake) ∧
    ∀ i ∈ [Instr.sfin none, .saud true, .saud false], ∀ t, exec i s = .next t → h.i.ops = [] → h.i.tile = false →
      ∀ a, t.mem.byteAt a = s.mem.byteAt a

/-- The sequencer's ramp and the audit: effect (R302, R306, R376, R377, R303). -/
def Obligations.AuditEvents : Prop :=
  (∀ core s, ∃ t, exec (.rampDown core) s = .next t ∧ t.mem = s.mem ∧ ∀ k i, t.seqs.get? k = some i →
    ∃ j, s.seqs.get? k = some j ∧ i = { j with ramp := if j.core = core then 0 else j.ramp }) ∧
  (∀ task clus g s x, s.samples.get? task = some x → x.mayRun s clus = true →
    exec (.auditReplay task clus g) s = .next { s with samples := s.samples.put task { x with runs := x.runs ++
      [(clus, State.replayFrom x.steps (x.scratch s (8 * clus + x.core % 8)) ^^^ g)] } }) ∧
  ∀ task s x, s.samples.get? task = some x →
    (∀ c1 g1, x.runs = [(c1, g1)] →
      (g1 = x.sig → exec (.auditVerdict task) s = .next { s with samples := s.samples.erase task }) ∧
      (g1 ≠ x.sig → s.otherDie (s.launch x.launch) [x.core / 512, c1 / 64] = false →
        exec (.auditVerdict task) s = .next (((s.count 7).count 8).auditWrong task x [x.core / 8, c1]))) ∧
    ∀ c1 g1 c2 g2, x.runs = [(c1, g1), (c2, g2)] →
      exec (.auditVerdict task) s = .next (if g2 = x.sig then ({ s with samples := s.samples.erase task }.count 7).lastingAt c1
        else if g2 = g1 then (s.count 7).auditWrong task x [] else (s.count 7).auditWrong task x [x.core / 8, c1, c2])

/-- Barrier objects: effect of their instructions and frame (R413, R414, R415, R417, R418, R419, R236). -/
def Obligations.BarrierObjects : Prop :=
  (∀ s h, Clear s h [] → h.f.mask = 0 →
    (∀ a b, exec (.bari a b) s = .next (h.done s id) ∧ exec (.barx a b) s = .next (h.done s id)) ∧
    (∀ d a k, exec (.bara d a k) s = .next (h.done s id)) ∧ (∀ d a, exec (.bart d a) s = .next (h.done s id)) ∧
    ∀ a b, h.f.wait = .none → exec (.barw a b) s = .next (h.done s id)) ∧
  (∀ s h a off, Clear s h [] → h.f.mask ≠ 0 → h.barCheck s (h.s a) = .ok off →
    let clus := (s.crew h.w.crew).clus
    let o := s.barObj clus off
    (∀ b, exec (.bari a b) s = .next (h.done (s.setBarObj clus off
      { bytes := 0, ph := false, err := false, rest := 0, expd := (h.s b).setWidth 16, pend := (h.s b).setWidth 16 }) id).wake) ∧
    (∀ d k s1, h.release s .crw = .ok s1 → exec (.bara d a k) s = .next (h.done (s1.setBarObj clus off (o.arrive k.toNat)) fun w =>
      w.writeS h.side d.toNat (if o.ph then 1 else 0)).wake) ∧
    (∀ b, exec (.barx a b) s = .next (if bits (h.s b) 0 32 = 0 then h.done s id
      else (h.done (s.setBarObj clus off (o.addBytes (bits (h.s b) 0 32))) id).wake)) ∧
    (∀ d, exec (.bart d a) s = .next (h.done (h.acquire s .crw) fun w => w.writeS h.side d.toNat o.low)) ∧
    ∀ b, h.f.wait = .none → exec (.barw a b) s = .next (if o.ph = (h.s b).getLsbD 0
      then h.done (h.acquire s .crw) id else h.await s (.barrier off ((h.s b).getLsbD 0)))) ∧
  (∀ s h a b off ph, Clear s h [] → h.f.wait = .barrier off ph → exec (.barw a b) s =
    .next (if s.objPh (h.w.core / 8) off = ph ∨ h.f.ended.isSome then h.done (h.acquire s .crw) id else s)) ∧
  ∀ (s : State) clus off (b : BarObj), (s.setBarObj clus off b).barObj clus off = b ∧
    (s.setBarObj clus off b).mem = s.mem ∧
    ∀ k, ¬ (2 ^ 22 * clus + off ≤ k ∧ k < 2 ^ 22 * clus + off + 16) →
      (s.setBarObj clus off b).stores.astore.read k = s.stores.astore.read k

/-- The global flag wait: effect (R420, R390, R195, R268, R60). -/
def Obligations.FlagWaits : Prop :=
  (∀ s h d a b, Clear s h [] → h.f.wait = .none → h.f.mask = 0 → exec (.barwFlag d a b) s = .next (h.done s id)) ∧
  (∀ s h d a b s1 p ps, Clear s h [] → h.f.wait = .none → h.f.mask ≠ 0 → (h.s a).toNat % 8 = 0 →
    s.checkGlobal h.w.core (s.launchOf h.w) .read (h.s a).toNat 8 = (s1, .ok (p :: ps)) →
    let s2 := s1.settleOver h.f.id [⟨(h.s a).toNat, p.pa, 8⟩]
    s2.poisoned (p.pa / 128) = false →
    let r := s2.flagRead p.pa (h.s b)
    (∀ x, r.2 = some x → exec (.barwFlag d a b) s = .next (h.done (h.acquire r.1 .sys) fun w => w.writeS h.side d.toNat x)) ∧
    (r.2 = none → exec (.barwFlag d a b) s = .next (h.await r.1 (.flag (h.s a) (h.s b))))) ∧
  (∀ s h d a b addr v x, Clear s h [] → h.f.wait = .flag addr v → h.f.ended = some (.value x) →
    exec (.barwFlag d a b) s = .next (h.done (h.acquire s .sys) fun w => w.writeS h.side d.toNat x)) ∧
  (∀ s k side h d a b addr v s1 pa, s.fragment k side = some h → h.f.wait = .flag addr v → h.f.ended = none →
    h.f.instr? = some (.barwFlag d a b) → s.translate h.w.core (s.ctxOf h.w) addr.toNat .read = (s1, .ok pa) →
    let s2 := s1.settleOver h.f.id [⟨addr.toNat, pa, 8⟩]
    s2.poisoned (pa / 128) = false →
    let r := s2.flagRead pa v
    (∀ x, r.2 = some x → exec (.flagPoll k side) s = .next (h.done (h.acquire r.1 .sys) fun w => w.writeS h.side d.toNat x)) ∧
    (r.2 = none → exec (.flagPoll k side) s = .next (h.await r.1 (.flag addr v)))) ∧
  ∀ (s : State) pa v, Coherent s → pa % 8 = 0 → pa + 8 ≤ 2 ^ 52 → Quiet s (s.flagRead pa v).1 ∧
    (s.flagRead pa v).2 = if s.get64 pa = v then none else some (s.get64 pa)

/-- Groups: arrival, completion, results (R407, R408, R410, R411, R236). -/
def Obligations.GroupArrivals : Prop :=
  ∀ g d a, ∀ p ∈ ([(Instr.grpa g, none), (.grpe d g, none), (.grpvAnd d a g, some a), (.grpvOr d a g, some a),
      (.grpvAdd d a g, some a)] : List (Instr × Option (BitVec 6))),
    ∀ s h, Clear s h [] →
      let G := (s.crew h.w.crew).groups.get? g.toNat
      ((G.map (·.members.getLsbD h.w.wid)).getD false = false → h.w.mustWait s h.key = false →
        exec p.1 s = .next (s.adjourn h.key h.side (h.report cPROT))) ∧
      ∀ x, G = some x → x.members.getLsbD h.w.wid = true →
        (∀ n ph, h.f.wait = .group n ph → exec p.1 s = .next (if x.ph = ph ∨ h.f.ended.isSome
          then h.done (h.acquire s .crw) ((x.ended h.f.ended).write p.1 h.side) else s)) ∧
        ∀ s0, h.f.wait = .none → (if x.arr.getLsbD h.w.wid then .ok s else h.release s .crw) = .ok s0 →
          let y := (x.arrive h.w.wid (p.2.map h.s)).tryComplete
          let s1 := s0.setCrew h.w.crew fun c => { c with groups := c.groups.put g.toNat y }
          exec p.1 s = .next (if y.ph = x.ph then h.await s1 (.group g.toNat (!x.ph))
            else (h.done (h.acquire s1 .crw) (y.write p.1 h.side)).groupRelease h.w.crew g.toNat y)

/-- qxfer and wprio: effect (R402, R403, R60). -/
def Obligations.RegistersMoveBetweenWaves : Prop :=
  ∀ s h, Clear s h [] →
    (∀ d e, exec (.wprio d e) s = .next (h.done s fun w =>
      { w.writeS h.side d.toNat (h.w.level.setWidth 64) with level := e })) ∧
    ∀ d a k,
      let st := h.qxferStatus s (h.s a) k.toNat
      (st ≠ 0 → exec (.qxfer d a k) s = .next (h.done s fun w => w.writeS h.side d.toNat (BitVec.ofNat 64 st)) ∧ st ≤ 5) ∧
      (st = 0 → (∀ x ∈ s.stores.preds, x.2.wave = h.key → x.2.d < h.w.n - 16 * k.toNat) →
        ∃ tk t, s.waveOf h.w.crew (bits (h.s a) 0 6) = some (tk, t) ∧ tk ≠ h.key ∧
          exec (.qxfer d a k) s = .next (h.done (s.grow tk k.toNat) fun w => (w.shrink k.toNat).writeS h.side d.toNat 0))

/-- When a phase of a barrier or of a group completes (R407, R410, R415, R417). -/
def Obligations.PhasesComplete : Prop :=
  (∀ b : BarObj, ∀ k, b.pend = 0 → b.arrive k = { b with err := true }) ∧
  (∀ b : BarObj, ∀ k, b.pend ≠ 0 →
    let p : BitVec 16 := BitVec.ofNat 16 (b.pend.toNat - k)
    let e := b.err || decide (b.pend.toNat < k)
    b.arrive k = if p = 0 ∧ b.bytes = 0 then { b with ph := !b.ph, pend := b.expd, err := e } else { b with pend := p, err := e }) ∧
  (∀ b : BarObj, ∀ x : Int,
    let y := max (-2 ^ 63) (min (2 ^ 63 - 1) (b.bytes.toInt + x))
    let e := b.err || decide (y ≠ b.bytes.toInt + x)
    b.addBytes x = if b.pend = 0 ∧ y = 0 then { b with ph := !b.ph, pend := b.expd, bytes := 0, err := e }
      else { b with bytes := BitVec.ofInt 64 y, err := e }) ∧
  ∀ g : Group,
    (g.live ≠ 0 ∧ g.live &&& ~~~g.arr = 0 →
      (g.tryComplete).ph = !g.ph ∧ (g.tryComplete).arr = 0 ∧ (g.tryComplete).rand = g.vand ∧ (g.tryComplete).ror = g.vor ∧
      (g.tryComplete).rsum = g.vsum ∧ (g.tryComplete).live = g.live ∧ (g.tryComplete).members = g.members ∧
      (g.tryComplete).vand = BitVec.allOnes 64 ∧ (g.tryComplete).vor = 0 ∧ (g.tryComplete).vsum = 0 ∧
      g.arr.getLsbD (g.tryComplete).elected.toNat = true ∧
      ∀ j, j < (g.tryComplete).elected.toNat → g.arr.getLsbD j = false) ∧
    (¬ (g.live ≠ 0 ∧ g.live &&& ~~~g.arr = 0) → g.tryComplete = g)

/-- enq, qpost and qwait: effect (R357, R358, R359, R388, R353, R60). -/
def Obligations.QueueInstructions : Prop :=
  (∀ s h, Clear s h [] → h.f.wait = .none → h.f.mask = 0 → ∀ d a q,
    exec (.enq d a q) s = .next (h.done s id) ∧ exec (.qpost a q) s = .next (h.done s id) ∧
    exec (.qwait d a q) s = .next (h.done s id)) ∧
  (∀ s h a q, Clear s h [] → h.f.mask ≠ 0 →
    let Q := s.queue (s.ctxOf h.w) q.toNat
    (Q.st = .disabled → h.w.mustWait s h.key = false → exec (.qpost a q) s = .next (s.adjourn h.key h.side (h.report cPROT))) ∧
    ∀ s1, Q.st ≠ .disabled → h.release s .sys = .ok s1 →
      exec (.qpost a q) s = .next (h.done ((h.marked s1).tailWrite (s.ctxOf h.w) q.toNat (h.s a)) id)) ∧
  (∀ s h d a q n, Clear s h [] → (h.f.wait = .none ∧ h.f.mask ≠ 0 ∧ n = h.s a ∨ ∃ x, h.f.wait = .qhead x n) →
    let Q := s.queue (s.ctxOf h.w) q.toNat
    (Q.st ≠ .ready ∨ n ≤ Q.head ∨ h.f.wait ≠ .none ∧ h.f.ended.isSome = true → exec (.qwait d a q) s = .next
      (h.done (h.acquire s .sys) fun w => w.writeS h.side d.toNat Q.head)) ∧
    (Q.st = .ready → Q.head < n → (h.f.wait ≠ .none → h.f.ended = none) → exec (.qwait d a q) s = .next
      (if h.f.wait = .none then h.await s (.qhead q.toNat n) else s))) ∧
  (∀ s h d a q s1 qs s2 ps s3 p s4, Clear s h [] → h.f.wait = .none → h.f.mask ≠ 0 → h.f.enq = false →
    (h.s a).toNat % 128 = 0 → (∀ f, h.checkRange s .read (h.s a).toNat 128 f = .ok (s1, qs)) →
    let ctx := s.ctxOf h.w
    let Q := s1.queue ctx q.toNat
    let pa := (ps.head?.map (·.pa)).getD 0
    Q.st ≠ .disabled → (∀ f, h.checkRange s1 .write Q.widx 8 f = .ok (s2, ps)) →
    (∀ f, h.readRange s2 qs f = .ok (s3, p)) → (packetKind p).isSome = true → s3.poisoned (pa / 128) = false →
    h.release s3 .sys = .ok s4 →
    let r := (h.marked s4).atomicLane h.w.core (some (s.crew h.w.crew).launch) pa 8 fun old => some ((old + 1) % 2 ^ 64)
    let i : W64 := BitVec.ofNat 64 r.2
    let w1 := h.w.writeS h.side d.toNat i
    let f := { (w1.frag h.side).getD h.f with enq := true, wait := .none }
    let w := w1.setFrag h.side (some f)
    ∀ t, ({ h with w, f } : Here).publish (r.1.putWave h.key w) a q.toNat i = .ok t → exec (.enq d a q) s = .next t) ∧
  (∀ s h d a q i t, Clear s h [] → h.publish s a q.toNat i = .ok t →
    (∃ x, h.f.wait = .qspace x i) ∨ (h.f.wait = .none ∧ h.f.mask ≠ 0 ∧ h.f.enq = true ∧ i = h.s d) →
    exec (.enq d a q) s = .next t) ∧
  (∀ s k b h d a q x i t, s.fragment k b = some h → h.f.wait = .qspace q i → h.f.instr? = some (.enq d a x) →
    h.publish s a q i = .ok t → exec (.enqPublish k b) s = .next t) ∧
  ∀ (s : State) (h : Here) a q (i : W64),
    let Q := s.queue (s.ctxOf h.w) q
    (Q.size ≤ (i - Q.head).toNat → h.publish s a q i = .ok (h.await s (.qspace q i))) ∧
    ∀ s1 ps s2 qs s3 p k s4, (i - Q.head).toNat < Q.size → (∀ f, h.checkRange s .write (Q.slotAt i) 128 f = .ok (s1, ps)) →
      (∀ f, h.checkRange s1 .read (h.s a).toNat 128 f = .ok (s2, qs)) → (∀ f, h.readRange s2 qs f = .ok (s3, p)) →
      packetKind p = some k →
      let pa := (ps.head?.map (·.pa)).getD 0
      h.release (h.post s3 ((List.range 15).map fun j =>
        { parts := [⟨Q.slotAt i + 8 + 8 * j, pa + 8 + 8 * j, 8⟩], data := (p.drop (8 + 8 * j)).take 8 })) .sys = .ok s4 →
      h.publish s a q i = .ok (h.done (((h.post s4
        [{ parts := [⟨Q.slotAt i, pa, 8⟩], data := leBytes 8 (k + 2 ^ 32 * Q.lap i) }]).settle (·.seenBy h.f.id)).tailWrite (s.ctxOf h.w) q (i + 1)) id)

/-- fsopen, fsclose and fswait: effect (R378, R379, R380, R381, R212, R60). -/
def Obligations.FinishScopes : Prop :=
  (∀ s h, Clear s h [] → h.f.wait = .none → h.f.mask = 0 → ∀ d a,
    exec (.fsopen d a) s = .next (h.done s id) ∧ exec (.fsclose a) s = .next (h.done s id) ∧
    exec (.fswait a) s = .next (h.done s id)) ∧
  (∀ s h a s1, Clear s h [] → h.f.mask ≠ 0 → h.release s .sys = .ok s1 →
    let ctx := s.ctxOf h.w
    let n := bits (h.s a) 0 8
    let c := (s1.scope ctx n).1
    let p := (s1.scope ctx n).2.2
    let t := h.done (h.marked s1) id
    (∀ d m, (n = 0 ∨ (s1.scope ctx n).2.1 = 1) → 0 < m → m < 256 → (s1.scope ctx m).2.1 = 0 →
      (∀ j, 0 < j → j < m → (s1.scope ctx j).2.1 ≠ 0) →
      exec (.fsopen d a) s = .next (h.done (((h.marked s1).putScope ctx m 0 1 n).hold ctx n)
        fun w => w.writeS h.side d.toNat (BitVec.ofNat 64 m))) ∧
    (∀ d, (n ≠ 0 ∧ (s1.scope ctx n).2.1 ≠ 1 ∨ ∀ j, 0 < j → j < 256 → (s1.scope ctx j).2.1 ≠ 0) →
      exec (.fsopen d a) s = .next (h.done (h.marked s1) fun w => w.writeS h.side d.toNat 0)) ∧
    exec (.fsclose a) s = .next (if n = 0 ∨ (s1.scope ctx n).2.1 ≠ 1 then t
      else if c = 0 then ((t.putScope ctx n 0 0 p).releaseScope ctx n).unhold ctx p else t.putScope ctx n c 2 p)) ∧
  (∀ s h a n, Clear s h [] → (h.f.wait = .none ∧ h.f.mask ≠ 0 ∧ n = bits (h.s a) 0 8 ∨ h.f.wait = .scope n) →
    (n = 0 ∨ (s.scope (s.ctxOf h.w) n).2.1 = 0 ∨ h.f.wait ≠ .none ∧ h.f.ended.isSome = true →
      exec (.fswait a) s = .next (h.done (h.acquire s .sys) id)) ∧
    (n ≠ 0 → (s.scope (s.ctxOf h.w) n).2.1 ≠ 0 → (h.f.wait ≠ .none → h.f.ended = none) → exec (.fswait a) s = .next
      (if h.f.wait = .none then h.await s (.scope n) else s))) ∧
  ∀ (s : State) ctx n c st p, Coherent s → (s.ctx ctx).fstab + 16 * n + 6 ≤ 2 ^ 52 → c < 2 ^ 32 → st < 3 → p < 256 →
    (s.putScope ctx n c st p).scope ctx n = (c, st, p)

/-- Queues at their dispatcher: effect (R345, R347, R349, R352, R353, R354, R367, R473). -/
def Obligations.QueueEvents : Prop :=
  (∀ ctx q t s, let Q := s.queue ctx q
    (Q.st = .disabled → exec (.tailWrite ctx q t) s = .next s ∧ exec (.doorbell ctx q t) s = .next (s.refuse (queueReg ctx q 0))) ∧
    ∀ i ∈ [Instr.tailWrite ctx q t, .doorbell ctx q t], Q.st ≠ .disabled → exec i s = .next (s.setQueue ctx q fun Q =>
      if Q.tail < t then { Q with tail := t, due := true }
      else { Q with stale := if Q.stale = 0xFFFFFFFF then Q.stale else Q.stale + 1, due := true })) ∧
  (∀ ctx q s, ∀ e ∈ [Instr.packetConsume ctx q, .slotReread ctx q],
    let Q := s.queue ctx q
    (Q.st ≠ .ready ∨ (s.ctx ctx).st ≠ .active ∧ (s.ctx ctx).st ≠ .faulted → exec e s = .next s) ∧
    (Q.st = .ready → ((s.ctx ctx).st = .active ∨ (s.ctx ctx).st = .faulted) → Q.redo = false →
      (Q.tail ≤ Q.head → exec e s = .next s) ∧
      ∀ s1 pa, Q.head < Q.tail → s.dispAccess Q.die ctx (Q.slotAt Q.head) .read = (s1, .ok pa) →
        let p : BitVec 1024 := BitVec.ofNat 1024 (s1.getNat pa 128)
        let s2 := (s1.accept ctx q Q.head p).setQueue ctx q fun Q => { Q with head := Q.head + 1, due := true }
        (bits p 0 8 = 0 ∨ bits p 32 32 ≠ Q.lap Q.head → exec e s = .next (s1.setQueue ctx q fun Q => { Q with due := false })) ∧
        ∀ s3 pb, bits p 0 8 ≠ 0 → bits p 32 32 = Q.lap Q.head →
          s2.dispAccess (s2.queue ctx q).die ctx (s2.queue ctx q).headm .write = (s3, .ok pb) →
          exec e s = .next (((s3.put64 pb (s2.queue ctx q).head).noteWrite none pb 8).setQueue ctx q
            fun Q => { Q with redo := false }))) ∧
  (∀ (s : State) ctx q i p,
    (bits p 8 24 ≠ 0 ∨ bits p 0 8 ≠ 1 ∧ bits p 0 8 ≠ 2 →
      ∃ d r, (s.accept ctx q i p).detached = d ++ [r] ∧ r.work = .packet ctx q ∧ r.report.causes = cLAUNCH ∧
        (s.accept ctx q i p).launches = s.launches) ∧
    (bits p 8 24 = 0 → (bits p 0 8 = 1 ∨ bits p 0 8 = 2) →
      ∃ l, (s.accept ctx q i p).launches.get? s.launches.nextKey = some l ∧ l.ctx = ctx ∧ l.packet = p ∧ l.q = q ∧ l.idx = i ∧
        l.lid = lidOf ctx q i ∧ l.marker = (bits p 0 8 == 2))) ∧
  (∀ k s l, s.launches.get? k = some l → s.markerDue k l = true →
    (l.compAddr = 0 → exec (.markerComplete k) s = .next (s.endMarker k false)) ∧
    ∀ s1 pa, l.compAddr ≠ 0 → s.dispAccess l.die l.ctx l.compAddr .write = (s1, .ok pa) →
      exec (.markerComplete k) s = .next (((s1.put64 pa l.compVal).noteWrite none pa 8).endMarker k false)) ∧
  ∀ ctx q s, let Q := s.queue ctx q
    let c := s.ctx ctx
    let N : Queue := { desc := BitVec.ofNat 512 (s.getNat (c.qtab + 64 * q) 64) }
    let v : W64 := BitVec.ofNat 64 (N.field 0x20 8)
    (Q.st ≠ .disabled → exec (.queueEnable ctx q) s = .next s ∧
      exec (.queueDisable ctx q) s = .next (s.leaveReady ctx q fun Q => { Q with st := .disabled, redo := false })) ∧
    (Q.st = .disabled → exec (.queueDisable ctx q) s = .next s ∧
      (c.st = .free ∨ c.st = .destroying ∨ c.desc = 0 ∨ N.descOk = false →
        exec (.queueEnable ctx q) s = .next (s.refuse (queueReg ctx q 0x20))) ∧
      ∀ s1 pa, c.st ≠ .free → c.st ≠ .destroying → c.desc ≠ 0 → N.descOk = true →
        let s0 := s.setQueue ctx q fun _ => { N with st := .ready, head := v, tail := v, due := true }
        s0.dispAccess N.die ctx N.headm .write = (s1, .ok pa) →
        exec (.queueEnable ctx q) s =
          .next (((s1.put64 pa v).noteWrite none pa 8).setQueue ctx q fun Q => { Q with redo := false })) ∧
    exec (.queueStop ctx q) s = .next (if Q.st = .ready then s.leaveReady ctx q fun Q => { Q with st := .stopped } else s) ∧
    exec (.queueStart ctx q) s = .next (if Q.st = .stopped then s.setQueue ctx q fun Q => { Q with st := .ready, due := true } else s)

/-- The link: instructions, packets and time-outs (R452, R453, R455, R456, R457, R458, R462, R464, R465, R466, R450,
R60). -/
def Obligations.LinkOperations : Prop :=
  (∀ s h, Clear s h [] → h.f.mask = 0 →
    (∀ o, exec (.lpost o) s = .next (h.done s id) ∧ exec (.lsend o) s = .next (h.done s id)) ∧
    ∀ d a, (∀ r, exec (.lpoll d a r) s = .next (h.done s id)) ∧
      ∀ i ∈ [Instr.lqpQuery d a, .lqpReset d a, .lqpInit d a, .lqpReady d a], exec i s = .next (h.done s id)) ∧
  (∀ s h o s1 post, Clear s h [] → h.f.mask ≠ 0 → h.linkCheck s post o = (s1, none) →
    let k := bits (h.s o.a) 0 12
    let q := s1.qp k
    let i : Instr := if post then .lpost o else .lsend o
    let out := fun (s : State) (v : Nat) => h.done s fun w => w.writeS h.side o.d.toNat (BitVec.ofNat 64 v)
    let bad := linkBad post o.kind.toNat o.sp (h.s o.a) (h.s o.b) = true
    let up := q.st = .ready ∨ (post = true ∧ q.st = .init)
    let full := 1024 ≤ (if post then q.recvs else q.sends).length
    (bad → exec i s = .next (out s1 (3 * 2 ^ 32))) ∧
    (¬ bad → ¬ up → exec i s = .next (out s1 (2 ^ 32))) ∧
    (¬ bad → up → full → exec i s = .next (out s1 (2 * 2 ^ 32))) ∧
    (¬ bad → up → ¬ full →
      let s2 := (h.marked s1).settle (·.seenBy h.f.id)
      (post = true → exec i s = .next ((out s2 q.nrecv.toNat).setQp k fun q =>
        { q with nrecv := q.nrecv + 1, recvs := q.recvs ++ [{ h.linkOpn s1 o with n := q.nrecv }] })) ∧
      ∀ t, post = false → ((out s2 q.nsend.toNat).setQp k fun q => { q with
        nsend := q.nsend + 1, sends := q.sends ++ [{ h.linkOpn s1 o with n := q.nsend }] }).sendMessage k q.nsend = .next t →
        exec i s = .next t)) ∧
  (∀ (s s1 : State) k n o, (s.qp k).op true n = some o →
    State.sendPackets k o s (if o.len = 0 then [0] else
      (List.range ((o.len + (s.qp k).packet - 1) / (s.qp k).packet)).map ((s.qp k).packet * ·)) = (s1, none) →
    s.sendMessage k n = .next (s1.setQp k fun q => q.setOp true n fun o => { o with sentAt := s.clk, spared := false })) ∧
  (∀ s h d a, Clear s h [] → h.f.mask ≠ 0 → (s.ctxOf h.w = 0 ∨ s.qpOwner (bits (h.s a) 0 12) = s.ctxOf h.w) →
    let k := bits (h.s a) 0 12
    let q := s.qp k
    (∀ r, let v := q.poll r (BitVec.ofNat 32 (bits (h.s a) 32 32))
      exec (.lpoll d a r) s = .next (h.done (if r = true ∧ bits v 0 8 = 1 then h.acquire s .pkg else s)
        fun w => w.writeS h.side d.toNat v)) ∧
    (bits (h.s a) 12 52 ≠ 0 → ∀ i ∈ [Instr.lqpQuery d a, .lqpReset d a, .lqpInit d a, .lqpReady d a],
      exec i s = .next (h.done s fun w => w.writeS h.side d.toNat (q.word true))) ∧
    (bits (h.s a) 12 52 = 0 →
      exec (.lqpQuery d a) s = .next (h.done s fun w => w.writeS h.side d.toNat (q.word false)) ∧
      exec (.lqpReset d a) s = .next (if q.st = .reset then h.done s fun w => w.writeS h.side d.toNat (q.word true)
        else let s1 := s.flush k .reset
          (h.again s1).done s1 fun w => w.writeS h.side d.toNat ((s1.qp k).word false)) ∧
      (let c := s.qpDesc k
       let N : Qp := { st := .init, desc := c, inbox := q.inbox }
       exec (.lqpInit d a) s = .next (if q.st = .reset ∧ s.health.qptab ≠ 0 ∧ qpDescOk c = true ∧
            (s.ctx (qpField c 0 1)).st = .active
          then h.done (s.setQp k fun _ => N) fun w => w.writeS h.side d.toNat (N.word false)
          else h.done s fun w => w.writeS h.side d.toNat (q.word true))) ∧
      exec (.lqpReady d a) s = .next (if q.st = .init
        then h.done (s.setQp k fun q => { q with st := .ready }) fun w => w.writeS h.side d.toNat ({ q with st := .ready }.word false)
        else h.done s fun w => w.writeS h.side d.toNat (q.word true)))) ∧
  (∀ f s, let k := f.dqp.toNat
    let q := s.qp k
    let i : Instr := if f.typ = 2 then .acknowledgementReceive f else if f.typ = 3 then .holdReceive f else .dataPacketReceive f
    (¬ (frameOk f q = true ∧ q.st = .ready) → exec i s = .next (s.count 6)) ∧
    (frameOk f q = true → q.st = .ready →
      (f.typ = 3 → exec i s = .next (s.setQp k fun q => q.setOp true f.msn fun o => { o with sentAt := s.clk, spared := true })) ∧
      (f.typ = 2 → (q.op true f.msn = none → exec i s = .next s) ∧
        ∀ o, q.op true f.msn = some o → exec i s = .next (s.linkEnd k true o f.sts.toNat 0 o.len)) ∧
      (f.typ = 1 →
        (2048 ≤ (f.msn - q.low + 1024).toNat → exec i s = .next (s.count 6)) ∧
        ((f.msn - q.low + 1024).toNat < 2048 →
          (∀ st, q.doneStatus f.msn = some st → exec i s = .next (s.answer k 2 f.msn st)) ∧
          (q.doneStatus f.msn = none → q.op false f.msn = none → exec i s = .next s) ∧
          ∀ o, q.doneStatus f.msn = none → q.op false f.msn = some o →
            (o.parked = true → exec i s = .next (s.answer k 3 f.msn 0)) ∧
            (o.parked = false → (∃ g ∈ o.got, g.1 = f.off.toNat) → exec i s = .next s) ∧
            (o.parked = false → (∀ g ∈ o.got, g.1 ≠ f.off.toNat) →
              (o.tlen = none → (f.kind.toNat ≠ o.kind ∨ o.len < f.tlen.toNat) → exec i s = .next (s.recvDone k o 3 f.tlen)) ∧
              (o.tlen ≠ none → o.tlen ≠ some f.tlen → exec i s = .next (s.count 6)) ∧
              ∀ s1, (o.tlen = none ∧ f.kind.toNat = o.kind ∧ f.tlen.toNat ≤ o.len ∨ o.tlen = some f.tlen) →
                s.place q { o with tlen := some f.tlen } f.off.toNat f.payload = (s1, none) →
                let o2 := { o with tlen := some f.tlen, got := o.got ++ [(f.off.toNat, f.payload.length)] }
                let s2 := s1.setQp k fun q => q.setOp false o.n fun _ => o2
                exec i s = .next (if o2.bytes = f.tlen.toNat then s2.recvDone k o2 1 f.tlen else s2)))))) ∧
  ∀ k n s o, (s.qp k).op true n = some o →
    ((s.qp k).st ≠ .ready ∨ o.parked = true ∨ (s.clk - o.sentAt).toNat < 100000 → exec (.sendTimeout k n) s = .next s) ∧
    ((s.qp k).st = .ready → o.parked = false → 100000 ≤ (s.clk - o.sentAt).toNat →
      (7 ≤ o.att → o.spared = false → exec (.sendTimeout k n) s = .next (s.sendFails k n o)) ∧
      (∀ t, o.spared = true → s.sendMessage k n = .next t → exec (.sendTimeout k n) s = .next t) ∧
      ∀ t, o.att < 7 → o.spared = false → (s.setQp k fun q => q.setOp true n fun o => { o with att := o.att + 1 }).sendMessage k n = .next t →
        exec (.sendTimeout k n) s = .next t)

/-- Records: instructions, dispositions, filing and messages (R423, R427, R428, R436, R439, R441, R442, R443, R444,
R445, R446, R447). -/
def Obligations.RecordInstructions : Prop :=
  (∀ s h a, Clear s h [] → h.pkNamed s (h.s a) = false → h.w.mustWait s h.key = false → ∀ d b c imm,
    ∀ i ∈ [Instr.pkrd d a b imm, .pkwr d a b c imm, .pkclr d a b, .pkres d a, .pkret d a, .pkredir d a b, .pkkill d a],
      exec i s = .next (s.adjourn h.key h.side (h.report cPROT))) ∧
  (∀ s h d a b c imm, Clear s h [] → h.pkNamed s (h.s a) = true →
    let o := h.pkOff b imm
    (s.pkCurrent (h.s a) = none → (o.toNat % 8 = 0 →
        exec (.pkrd d a b imm) s = .next (h.done s fun w => w.writeS h.side d.toNat
          (if o = 0 then (h.s a).extractLsb' 32 32 ++ 0x200#32 else 0)) ∧
        exec (.pkwr d a b c imm) s = .next (h.status s d 1)) ∧
      exec (.pkclr d a b) s = .next (h.status s d 1)) ∧
    ∀ key r, s.pkCurrent (h.s a) = some (key, r) →
      (∀ pa, o.toNat % 8 = 0 → s.pkAddr key r o.toNat = some pa →
        exec (.pkrd d a b imm) s = .next (h.done s fun w => w.writeS h.side d.toNat (s.get64 pa)) ∧
        exec (.pkwr d a b c imm) s = .next (if s.patchable key r o.toNat (h.s c) = true
          then h.status (let s1 := s.put64 pa (h.s c)
            if 0x1000 ≤ o.toNat then s1.mended (o.toNat - 0x1000) r.work else s1) d 0
          else h.status s d 2)) ∧
      exec (.pkclr d a b) s = .next (if (h.s b).getLsbD 26 = true ∧ (s.recCause key).getLsbD 26 = true then h.status s d 4
        else h.status (s.put64 (s.recPa key + 8) (s.recCause key &&& ~~~(h.s b &&& 0x7FFFFFF#64))) d 0)) ∧
  (∀ s h d a b s1, Clear s h [] → h.pkNamed s (h.s a) = true → h.release s .sys = .ok s1 →
    ∀ p ∈ [(Instr.pkres d a, Disp.resume), (.pkret d a, .retry), (.pkredir d a b, .redirect (h.s b)), (.pkkill d a, .kill)],
      (s1.pkCurrent (h.s a) = none → exec p.1 s = .next (h.status s1 d 1)) ∧
      ∀ key r, s1.pkCurrent (h.s a) = some (key, r) →
        (s1.pkStatus key r p.2 ≠ 0 → exec p.1 s = .next (h.status s1 d (s1.pkStatus key r p.2))) ∧
        ∀ t, s1.pkStatus key r p.2 = 0 → (h.status s1 d 0).dispose key r p.2 = .next t → exec p.1 s = .next t) ∧
  (∀ (s : State) key r d, r.remote = false → r.nest = false →
    (s.dispose key r .kill = .next ((s.closeRecord key).killWork r.work)) ∧
    (d ≠ .kill → ∀ k, r.work = .wave k → s.dispose key r d = .next ((s.closeRecord key).restartWave key k d)) ∧
    (d ≠ .kill → ∀ k, r.work = .inst k → s.dispose key r d = .next ((s.closeRecord key).restartInst key k d)) ∧
    (d ≠ .kill → ∀ k i, r.work = .seg k i → s.dispose key r d = .next ((s.closeRecord key).restartSeg key k i d)) ∧
    (d ≠ .kill → ∀ k, r.work = .launch k → s.dispose key r d = .next ((s.closeRecord key).restartLaunch key k d))) ∧
  (∀ n s, s.detached[n]? = none → exec (.adjournmentRecord n) s = .next s) ∧
  (∀ n s d, s.detached[n]? = some d →
    let s0 := { s.classify d with detached := s.detached.eraseIdx n }
    let f := s0.filing d
    ∀ s1 key r, (s0.ctx d.ctx).st ≠ .destroying → f.rcd.depth ≤ 3 → s0.consumedBy d = none → s0.fileIn f d.die (lowBit f.causes) = (s1, some (key, r)) →
      r.tkind ≠ 3 → exec (.adjournmentRecord n) s =
        .next (s1.enqueueTask key r (if r.tkind = 2 then r.tdie else d.die) (s1.taskArgs key))) ∧
  (∀ (s : State) (f : Filing) slot, slot < 4096 →
    let key := recKey f.rcd.owner slot
    (s.putRecord f slot).records.get? key = some f.rcd ∧ (s.putRecord f slot).recGen key = s.recGen key + 1) ∧
  ∀ qk n s, (s.takeMessage qk n = none →
      exec (.taskMessage qk n) s = .next s ∧ exec (.dispositionMessage qk n) s = .next s) ∧
    ∀ ctx s1 m, s.takeMessage qk n = some (ctx, s1, .ok m) →
      (m.take 1 = [1] →
        let f := proxyOf m qk ctx (s1.qp qk).die
        (∀ slot, s1.freeRecSlot ctx f.rcd.depth = some slot →
          let s2 := s1.putRecord f slot
          exec (.taskMessage qk n) s =
            .next (s2.enqueueTask (recKey ctx slot) (routeIn m) f.rcd.home (s2.taskArgs (recKey ctx slot)))) ∧
        (s1.freeRecSlot ctx f.rcd.depth = none → ctx = 0 → exec (.taskMessage qk n) s = .next (s1.count 11))) ∧
      (m.take 1 = [2] →
        let x := (s1.pkCurrent (BitVec.ofNat 64 (leNat ((m.drop 8).take 8)))).filter fun x => x.2.sent == some qk && !x.2.remote
        (x = none → exec (.dispositionMessage qk n) s = .next (s1.count 10)) ∧
        ∀ key r d t, x = some (key, r) →
          dispOf (leNat ((m.drop 1).take 1)) (BitVec.ofNat 64 (leNat ((m.drop 0x20).take 8))) = some d →
          let s2 := s1.applyImage key r (m.drop 0x40)
          (s2.pkStatus key r d ≠ 0 → exec (.dispositionMessage qk n) s = .next s2) ∧
          (s2.pkStatus key r d = 0 → s2.dispose key r d = .next t → exec (.dispositionMessage qk n) s = .next t))

/-- pgmap, pgunmap, pginv, shootdowns and walks: effect (R324, R330, R331, R332, R333, R334, R342, R367, R60). -/
def Obligations.MapInstructions : Prop :=
  (∀ s h x, Clear s h [] → h.f.wait = .shootdown x → ∀ d a b c ctx sz,
    exec (.pgmap d a b c ctx sz) s = .next s ∧ exec (.pgunmap d a ctx sz) s = .next s ∧ exec (.pginv a b ctx) s = .next s) ∧
  (∀ s h d a b c ctx sz, Clear s h [] → (∀ x, h.f.wait ≠ .shootdown x) →
    let va := h.s a
    let may := s.mapRight (s.ctxOf h.w) ctx.toNat = true
    let at1 := bits va 56 8 = 0 ∧ va.toNat % pgBytes sz = 0
    (h.w.mustWait s h.key = false → ¬ may → ∀ i ∈ [Instr.pgmap d a b c ctx sz, .pgunmap d a ctx sz, .pginv a b ctx],
      exec i s = .next (s.adjourn h.key h.side { h.report cPROT with faddr := va })) ∧
    (h.w.mustWait s h.key = false → may → ¬ at1 → ∀ i ∈ [Instr.pgmap d a b c ctx sz, .pgunmap d a ctx sz],
      exec i s = .next (s.adjourn h.key h.side { h.report cPAGE with faddr := va })) ∧
    (∀ t, may → at1 → s.leafFits ctx.toNat sz (h.s b) = true → s.spareFits ctx.toNat (h.s c) = true →
      h.mapLeaf s d.toNat va (h.s b) (h.s c) ctx.toNat sz = .ok t → exec (.pgmap d a b c ctx sz) s = .next t) ∧
    (∀ t, may → at1 → h.unmapLeaf s d.toNat va ctx.toNat sz = .ok t → exec (.pgunmap d a ctx sz) s = .next t) ∧
    ∀ s1, may → bits va 56 8 = 0 → va.toNat % 65536 = 0 → (h.s b).toNat % 65536 = 0 → h.release s .pkg = .ok s1 →
      exec (.pginv a b ctx) s = .next (h.shoot s1 ctx.toNat va.toNat (h.s b).toNat 63 0)) ∧
  (∀ (s : State) (h : Here) d a (b c : W64) ctx sz pa s1,
    s.descend ctx a.toNat (pgLevel sz) 3 (s.ctx ctx).root = .ok (pgLevel sz, pa) → s.oldLeaf (pgLevel sz) pa = .ok 0 →
    h.release s .pkg = .ok s1 → entS b = false →
    h.mapLeaf s d a b c ctx sz = .ok (h.shoot (s1.put64 pa (b ||| 3)) ctx a.toNat (pgBytes sz) d 0)) ∧
  (∀ (s : State) (h : Here) d a ctx sz,
    (s.leafEntry ctx a.toNat 3 (s.ctx ctx).root = .ok none →
      h.unmapLeaf s d a ctx sz = .ok (h.done (h.marked s) fun w => w.writeS h.side d 0)) ∧
    ∀ pa s1, s.leafEntry ctx a.toNat 3 (s.ctx ctx).root = .ok (some (pgLevel sz, pa)) →
      let leaf := s.get64 pa
      entST leaf ≠ 1 → entST leaf ≠ 2 → entS leaf = false → h.release s .pkg = .ok s1 →
      h.unmapLeaf s d a ctx sz = .ok (h.shoot (s1.put64 pa 0) ctx a.toNat (pgBytes sz) d leaf)) ∧
  (∀ n s x, s.mem.shoots.get? n = some x →
    let s1 := (s.setMem { s.mem with shoots := s.mem.shoots.erase n }).dropTlb x.hits
    let s2 := s1.finish (x.hitsPost s1) fun c => c.ctx == x.ctx
    exec (.shootdown n) s = .next (s2.returnFrom x.wave (.shootdown n) x.d x.val) ∧
    (∀ t ∈ s1.mem.tlb, x.hits t = false) ∧ s1.mem.shoots.get? n = none ∧ (∀ a, s1.mem.byteAt a = s.mem.byteAt a) ∧
    ((∀ p ∈ s.mem.posts, x.hitsPost s p = false) → (∀ y ∈ s.copies, y.2.ctx = x.ctx → y.2.moved = []) → s2 = s1) ∧
    ∀ h, s2.fragment x.wave false = some h → h.f.wait = .shootdown n →
      s2.returnFrom x.wave (.shootdown n) x.d x.val = h.done s2 fun w => w.writeS h.side x.d x.val) ∧
  (∀ core ctx va k s s1 pa, s.translate core ctx va.toNat k = (s1, .ok pa) →
    exec (.pageWalk core ctx va k) s = .next s1) ∧
  ∀ ctx va s, (s.mem.snaps.contains (ctx, va.toNat) = false → exec (.snapshotCopy ctx va) s = .next s) ∧
    (s.mem.snaps.contains (ctx, va.toNat) = true → ∀ k x,
      s.shadowOf (fun l h => l.ctx == ctx && h.va == va.toNat) = some (k, x) →
      exec (.snapshotCopy ctx va) s = .next (s.snapshot k x))

/-- The directory, caches and host accesses: effect (R211, R233, R261, R267, R270, R271, R272, R273, R275, R467). -/
def Obligations.DirectoryEvents : Prop :=
  (∀ die line s, memExists (128 * line) = true → die < 8 →
    exec (.getS die line) s = .next (s.doGetS die line) ∧ exec (.getM die line) s = .next (s.doGetM die line)) ∧
  (∀ die line core clus unit s, ∀ i ∈ [Instr.putM die line, .forwardedRequest line, .invalidateWithWriteback die line,
      .directoryRecovery line, .silentEviction die line, .l1LineEviction core line, .unitReclaim clus unit],
    ∃ t, exec i s = .next t) ∧
  (∀ pa op ty v l mask data s, (memExists (128 * (pa / 128)) = true →
      ∀ i ∈ [Instr.homeAtomic pa op ty v, .writeMerge (pa / 128) mask data], ∃ t, exec i s = .next t) ∧
    (memExists pa = true → (∃ t, exec (.hostMemoryAccess pa none) s = .next t) ∧
      (memExists (pa + l.length - 1) = true → ∃ t, exec (.hostMemoryAccess pa (some l)) s = .next t))) ∧
  (∀ die line s, Coherent s → memExists (128 * line) = true → line < 2 ^ 45 → die < 8 → s.probeOk line die = true →
    ∃ t u, exec (.getS die line) s = .next t ∧ Coherent t ∧ Quiet s t ∧
      exec (.getM die line) s = .next u ∧ (homeOf line ≠ die → Coherent u ∧ Quiet s u ∧
        ∃ c, u.mem.l2.get? (l2Key die line) = some c ∧ c.st = .m)) ∧
  (∀ die line s, Coherent s → line < 2 ^ 45 → die < 8 →
    ∀ i ∈ [Instr.putM die line, .forwardedRequest line, .silentEviction die line],
      ∃ t, exec i s = .next t ∧ Quiet s t) ∧
  (∀ die line s, Coherent s → line < 2 ^ 45 → die < 8 → s.probeOk line die = true → ∃ t, exec (.invalidateWithWriteback die line) s = .next t ∧
    t = { s with mem := t.mem, crews := t.crews } ∧ (∀ a, a < 2 ^ 52 → t.mem.byteAt a = s.mem.byteAt a) ∧
    t.mem.l2.get? (l2Key die line) = none) ∧
  (∀ core line s, ∃ t, exec (.l1LineEviction core line) s = .next t ∧ Quiet s t ∧ t.mem.l1.get? (l1Key core line) = none) ∧
  (∀ line mask data s, Coherent s → memExists (128 * line) = true → line < 2 ^ 45 →
    ∃ t, exec (.writeMerge line mask data) s = .next t ∧ Coherent t ∧ t = { s with mem := t.mem, crews := t.crews } ∧
      ∀ a, a < 2 ^ 52 → t.mem.byteAt a = if a / 128 = line ∧ mask.getLsbD (a % 128 / 4) = true then byteOf data (a % 128)
        else s.mem.byteAt a) ∧
  (∀ pa op ty v s, Coherent s → memExists (128 * (pa / 128)) = true → pa < 2 ^ 52 → pa % (ty.width / 8) = 0 →
    s.poisoned (pa / 128) = false →
    ∃ t, exec (.homeAtomic pa op ty v) s = .next t ∧ ∀ a, a < 2 ^ 52 → t.mem.byteAt a =
      match op with
      | none => s.mem.byteAt a
      | some o => if pa ≤ a ∧ a < pa + ty.width / 8
        then (leBytes (ty.width / 8) (atomNew o ty (s.getNat pa (ty.width / 8)) (v.toNat % 2 ^ ty.width))).getD (a - pa) 0
        else s.mem.byteAt a) ∧
  (∀ line s, (line ∉ s.mem.dirBad → exec (.directoryRecovery line) s = .next s) ∧
    (line ∈ s.mem.dirBad → ∃ t r, exec (.directoryRecovery line) s = .next t ∧ line ∉ t.mem.dirBad ∧
      t.detached = s.detached ++ [r] ∧ r.report.causes = 1#64 <<< 22)) ∧
  (∀ pa s, Coherent s → memExists pa = true → pa < 2 ^ 52 → s.probeOk (pa / 128) 0 = true → s.poisoned (pa / 128) = false →
    ∃ t, exec (.hostMemoryAccess pa none) s = .next t ∧ Coherent t ∧ Quiet s t) ∧
  (∀ pa l s, Coherent s → memExists pa = true → memExists (pa + l.length - 1) = true → pa + l.length ≤ 2 ^ 52 →
    (∀ x ∈ s.launches, x.2.shadows = []) →
    ∃ t, exec (.hostMemoryAccess pa (some l)) s = .next t ∧ Coherent t ∧
      ∀ a, a < 2 ^ 52 → t.mem.byteAt a = if pa ≤ a ∧ a < pa + l.length then l.getD (a - pa) 0 else s.mem.byteAt a) ∧
  ∀ clus unit s, unit < 64 → s.unitTaken clus unit = false → ∃ t, exec (.unitReclaim clus unit) s = .next t ∧
    (∀ a, t.mem.byteAt a = s.mem.byteAt a) ∧
    ∀ k, t.stores.astore.read k = if 2 ^ 22 * clus + 65536 * unit ≤ k ∧ k < 2 ^ 22 * clus + 65536 * unit + 65536 then 0
      else s.stores.astore.read k

/-- Registers, counters, ageing, power, quarantine and reset: effect (R468, R469, R470, R471, R475, R476, R477, R478,
R479, R480, R481, R482). -/
def Obligations.RegistersAndHealth : Prop :=
  (∀ s h d, Clear s h [] →
    (∀ e v, s.bar0 e.toNat = some v → exec (.mdrd d e) s = .next (h.done s fun w => w.writeS h.side d.toNat v)) ∧
    (∀ e, s.bar0 e.toNat = none → exec (.mdrd d e) s = .next (h.done (s.refuse e.toNat) fun w => w.writeS h.side d.toNat 0)) ∧
    (∀ e, exec (.flrd d e) s = .next (h.done s fun w => w.writeS h.side d.toNat (s.health.counters.read e.toNat))) ∧
    exec (.clkrd d) s = .next (h.done s fun w => w.writeS h.side d.toNat
      (BitVec.ofNat 64 ((s.island (s.islandOf h.w.core)).present + s.islandOf h.w.core * 2 ^ 16))) ∧
    (∀ sel, exec (.ctxrd d sel none) s = .next (h.done s fun w =>
      w.writeS h.side d.toNat (BitVec.ofNat 64 (s.ctxValue (s.ctxOf h.w) sel.toNat)))) ∧
    (s.ctxOf h.w ≠ 0 → h.w.mustWait s h.key = false → ∀ a e g sel x,
      ∀ i ∈ [Instr.mdwr a e, .flclr d g, .ctxrd d sel (some x)],
        exec i s = .next (s.adjourn h.key h.side (h.report cPROT))) ∧
    (s.ctxOf h.w = 0 →
      (∀ a e, exec (.mdwr a e) s = .next (h.done ((h.marked s).writeControl e.toNat (h.s a)) id)) ∧
      (∀ e, ∃ t, exec (.flclr d e) s = .next (h.done t fun w => w.writeS h.side d.toNat (s.health.counters.read e.toNat)) ∧
        t = { h.marked s with health := t.health } ∧
        ∀ k, t.health.counters.read k = if k = e.toNat then 0 else s.health.counters.read k) ∧
      ∀ sel x, exec (.ctxrd d sel (some x)) s = .next (h.done s fun w =>
        w.writeS h.side d.toNat (BitVec.ofNat 64 (s.ctxValue x.toNat sel.toNat))))) ∧
  (∀ v s, ∃ t, exec (.jbaseWrite v) s = .next t ∧ exec (.controlRegisterWrite 0x3008 8 v) s = .next t ∧
    (v = 0 → t.health.jbase = 0) ∧
    (v ≠ 0 → v.toNat % 65536 = 0 → memExists v.toNat = true → s.health.jbase = 0 → t.health.jbase = v ∧ t.health.jhead = 0) ∧
    (v ≠ 0 → (v.toNat % 65536 ≠ 0 ∨ memExists v.toNat = false ∨ s.health.jbase ≠ 0) → t = s.refuse 0x3008)) ∧
  (∀ v s, ∃ t, exec (.qptabWrite v) s = .next t ∧ exec (.controlRegisterWrite 0x3018 8 v) s = .next t ∧
    (v.toNat % 0x40000 = 0 → memExists v.toNat = true → t.health.qptab = v) ∧
    ((v.toNat % 0x40000 ≠ 0 ∨ memExists v.toNat = false) → t = s.refuse 0x3018)) ∧
  (∀ s, exec (.errstWrite 0) s = .next { s with health := { s.health with errst := 0 } }) ∧
  (∀ off size v s, (size ≠ 8 ∨ off % 8 ≠ 0) → exec (.controlRegisterWrite off size v) s = .next (s.refuse off)) ∧
  (∀ v s, 1200 ≤ v.toNat → v.toNat ≤ plimMax →
    exec (.controlRegisterWrite 0x3020 8 v) s = .next { s with health := { s.health with plim := v } }) ∧
  (∀ c v s, c < 64 → exec (.controlRegisterWrite (0x10008 + 256 * c) 8 v) s =
    .next { s with health := { s.health with ctxDesc := s.health.ctxDesc.write c v } }) ∧
  (∀ c q v s, c < 64 → q < 64 →
    exec (.controlRegisterWrite (0x400000 + 4096 * c + 64 * q) 8 v) s = exec (.doorbell c q v) s ∧
    ∀ x ∈ [((1 : W64), Instr.queueEnable c q), (2, .queueStop c q), (3, .queueStart c q), (4, .queueDisable c q)],
      exec (.controlRegisterWrite (0x400020 + 4096 * c + 64 * q) 8 x.1) s = exec x.2 s) ∧
  (∀ c s, c < 64 → ∀ x ∈ [((1 : W64), Instr.contextCreate c (s.health.ctxDesc.read c).toNat), (2, .contextActivate c),
      (3, .contextSuspend c), (4, .contextResume c), (5, .contextDestroy c), (6, .contextClearFault c)],
    exec (.controlRegisterWrite (0x10000 + 256 * c) 8 x.1) s = exec x.2 s) ∧
  (∀ v s, exec (.controlRegisterWrite 0x3030 8 v) s = exec (.c0descWrite v) s) ∧
  (∀ p off v s, p < 8 → off < 512 → off % 8 = 0 →
    exec (.controlRegisterWrite (0x4000 + 512 * p + off) 8 v) s = exec (.partitionWrite p off v) s) ∧
  (∀ (s : State) off, off < 2 ^ 32 → bits (s.refuse off).health.errst 32 32 = off ∧
    bits (s.refuse off).health.errst 0 32 = min (bits s.health.errst 0 32 + 1) (2 ^ 32 - 1) ∧
    s.refuse off = { s with health := { s.health with errst := (s.refuse off).health.errst } }) ∧
  (∀ p off v s, p < 8 → off % 8 = 0 → off < 0x148 →
    (s.ctxs.any fun x => x.1 != 0 && x.2.st != .free && x.2.part == p) = false → (off < 0x48 ∨ v.toNat % 2 ^ 30 = 0) →
    let t := { s with health := { s.health with parts := s.health.parts.write (64 * p + off / 8) v } }
    exec (.partitionWrite p off v) s = .next (if State.partitionsOk t p = true then t else s.refuse (0x4000 + 512 * p + off))) ∧
  (∀ nonce v s, ∃ t, exec (.attestationRequest nonce v) s = .next t ∧ t = { s with health := t.health } ∧
    t.health.nonce = nonce ∧ t.health.sigs = s.health.sigs + (if v = 1 ∧ s.health.sigs < 2 ^ 20 then 1 else 0) ∧
    (v = 1 → s.health.sigs < 2 ^ 20 →
      t.health.signed.take (s.health.measure.flatten.length + 32) = s.health.measure.flatten ++ leBytes 32 nonce.toNat)) ∧
  (∀ k slack s, k < 64 → slack.length = 8 → ∃ t, exec (.ageingCheck k slack) s = .next t ∧ t = { s with health := t.health } ∧
    t.island k = (s.island k).check ((slack.map (·.toNat)).foldl min 255) ∧ (∀ j, j ≠ k → t.island j = s.island j) ∧
    ∀ j, j < 8 → t.health.slack.read (8 * k + j) = slack.getD j 0) ∧
  (∀ (i : Island) n, (20 ≤ n → (i.check n).freq = i.freq ∧ (i.check n).voff = i.voff) ∧
    (n < 20 → i.voff < 12 → (i.check n).voff = i.voff + 1 ∧ (i.check n).freq = i.freq) ∧
    (n < 20 → 12 ≤ i.voff → 600 < i.freq → (i.check n).freq = i.freq - 50 ∧ (i.check n).spent = true)) ∧
  (∀ watts cap lift s, cap.Nodup → lift.Nodup → ∃ t, exec (.powerUpdate watts cap lift) s = .next t ∧
    t = { s with health := t.health } ∧ t.health.power = watts.toNat ∧
    ∀ k, t.island k =
      if s.health.plim.toNat < watts.toNat then
        if k ∈ cap ∧ k < 64 then { s.island k with cap := max 50 ((s.island k).present - 50) } else s.island k
      else if k ∈ lift ∧ k < 64 then { s.island k with cap := min 800 ((s.island k).cap + 50) } else s.island k) ∧
  (∀ c s, ∃ t, exec (.coreQuarantine c) s = .next t ∧ t = { s with health := t.health } ∧
    (c ∈ s.health.pendingQ → s.coreIdle c = true → c ∈ t.health.quarantined ∧ c ∉ t.health.pendingQ) ∧
    ((c ∉ s.health.pendingQ ∨ s.coreIdle c = false) → t = s)) ∧
  ∀ verified images s, ∃ t, exec (.reset verified images) s = .next t ∧ t.waves = [] ∧ t.seqs = [] ∧ t.launches = [] ∧ t.records = [] ∧
    t.cur = none ∧ t.mem = { ram := s.mem.ram } ∧ t.health.sigs = s.health.sigs ∧ t.health.marks = s.health.marks ∧
    t.health.measure = measured images ∧ t.health.inReset = !verified ∧
    (verified = true → (t.ctx 0).st = .created ∧ ∀ c, c ≠ 0 → (t.ctx c).st = .free)

/-- Contexts: the commands of their control entries (R336, R338, R342, R349, R472, R427). -/
def Obligations.ContextCommands : Prop :=
  (∀ c desc s x, 1 ≤ c → c < 64 → (s.ctx c).st = .free → s.health.c0desc ≠ 0 → s.readDesc desc = some x →
    s.descFits false x = true → ∃ t, exec (.contextCreate c desc) s = .next t ∧ (t.ctx c).st = .created ∧
      (t.ctx c).desc = x.desc ∧ (t.ctx c).gens = (s.ctx c).gens ∧ c ∉ t.health.ctxErr ∧ (∀ j, j ≠ c → t.ctx j = s.ctx j) ∧
      (Coherent s → x.fstab + 4096 ≤ 2 ^ 52 → ∀ a, a < 2 ^ 52 →
        t.mem.byteAt a = if x.fstab ≤ a ∧ a < x.fstab + 4096 then 0 else s.mem.byteAt a)) ∧
  (∀ c s, ∀ p ∈ [(Instr.contextActivate c, CState.created, CState.active, true), (.contextSuspend c, .active, .suspended, true),
      (.contextResume c, .suspended, .active, !s.resident c), (.contextClearFault c, .faulted, .active, true)],
    (1 ≤ c → c < 64 → (s.ctx c).st = p.2.1 → p.2.2.2 = true → exec p.1 s = .next (((s.takeCmd c).setCtx c fun x => { x with st := p.2.2.1 }))) ∧
    (c = 0 ∨ 64 ≤ c ∨ (s.ctx c).st ≠ p.2.1 ∨ p.2.2.2 = false → exec p.1 s = .next (s.refuseCmd c))) ∧
  (∀ c s, 1 ≤ c → c < 64 →
    ((s.ctx c).st ≠ .free → (s.ctx c).st ≠ .destroying →
      exec (.contextDestroy c) s = .next (((s.takeCmd c).destroyCtx c).setCtx c fun x => { x with st := .destroying })) ∧
    ((s.ctx c).st = .free ∨ (s.ctx c).st = .destroying → exec (.contextDestroy c) s = .next (s.refuseCmd c))) ∧
  (∀ c s, (s.ctx c).st = .destroying → s.ctxGone c = true → ∃ t, exec (.contextFree c) s = .next t ∧
    t.ctx c = { gens := (s.ctx c).gens } ∧ (∀ j, j ≠ c → t.ctx j = s.ctx j) ∧
    t = { s with mem := t.mem, ctxs := t.ctxs, queues := t.queues, launches := t.launches } ∧
    (∀ y ∈ t.mem.sys, y.2.2 ≠ c) ∧ (∀ y ∈ t.mem.tlb, y.ctx ≠ c) ∧ ∀ a, t.mem.byteAt a = s.mem.byteAt a) ∧
  ∀ v s, (s.health.c0desc ≠ 0 ∨ (s.ctx 0).st ≠ .created → exec (.c0descWrite v) s = .next (s.refuse 0x3030)) ∧
    ∀ x, s.health.c0desc = 0 → (s.ctx 0).st = .created → v ≠ 0 → s.readDesc v.toNat = some x → s.descFits true x = true →
      ∃ t, exec (.c0descWrite v) s = .next t ∧ (t.ctx 0).st = .active ∧ (t.ctx 0).desc = x.desc ∧ t.health.c0desc = v ∧
        ∀ j, j ≠ 0 → t.ctx j = s.ctx j

/-- Launches at their dispatcher: effect (R56, R325, R366, R368, R369, R370, R372, R373, R375, R395, R397, R436). -/
def Obligations.LaunchEvents : Prop :=
  (∀ die s, let cs := sortBy (s.candKey die) (s.candidates die)
    ((∀ c ∈ cs, s.serveCand c = none) → exec (.dispatcherChoice die) s = .next s) ∧
    ∀ a c b u, cs = a ++ c :: b → (∀ x ∈ a, s.serveCand x = none) → s.serveCand c = some (.next u) →
      exec (.dispatcherChoice die) s = .next u) ∧
  (∀ k s l, s.launches.get? k = some l →
    let go := (l.st = .ready ∨ l.st = .dispatching) ∧ l.parked = false ∧ s.running l.ctx = true
    let s0 := s.setLaunch k fun l => { l with st := .dispatching }
    let l0 := s0.launch k
    (¬ go → exec (.launchDispatch k) s = .next s) ∧
    (go → l.task.isSome = true → ∃ t, exec (.launchDispatch k) s = .next t ∧ (t.launch k).st = .running) ∧
    (go → l.task = none →
      (∀ s1 n c off fa, s0.dispatchChecks k = (s1, .error (n, .bad c off fa)) →
        exec (.launchDispatch k) s = .next (s1.parkLaunch k c n off fa)) ∧
      (∀ s1 n, s0.dispatchChecks k = (s1, .error (n, .wait)) → exec (.launchDispatch k) s = .next s1) ∧
      ∀ s1 c, s0.dispatchChecks k = (s1, .ok c) →
        (s1.pagesTaken k l0 c.pages = true → exec (.launchDispatch k) s = .next s1) ∧
        (s1.pagesTaken k l0 c.pages = false →
          let kept := l0.keptShadows c.pages
          let used := ((s1.launches.filter fun y => y.1 != k && y.2.ctx == l0.ctx).flatMap fun y => y.2.shadows) ++ kept
          let new := shadowsFor (s1.ctx l0.ctx).shpool (s1.ctx l0.ctx).shlen (used.map fun h => (h.shadow, h.size))
            (c.pages.filter fun p => !kept.any fun h => h.isFor p)
          (new = none → exec (.launchDispatch k) s = .next s1) ∧
          ∀ sh, new = some sh → exec (.launchDispatch k) s = .next (s1.startLaunch k c (kept ++ sh))))) ∧
  (∀ k clus unit cores s0, let s := s0.tidyCluster clus
    let l := s.launch k
    let p : Place := ⟨clus, unit, cores⟩
    let go := l.st = .running ∧ l.parked = false ∧ l.placed < l.crewsN ∧ s.running l.ctx = true ∧ s.fits l p = true
    (¬ go → exec (.crewPlacement k clus unit cores) s0 = .next s0) ∧
    let groups : Table Group := (l.groups.zipIdx.filter fun (x : BitVec 64 × Nat) => x.1 != 0).map
      fun (x : BitVec 64 × Nat) => (x.2, Group.start x.1)
    let c : Crew := { launch := k, idx := l.placed, clus, unit, nunits := l.units, groups }
    let make := fun (s' : State) =>
      let s1 := (List.range l.units).foldl (fun s u => s.reclaim clus (unit + u)) s'
      ({ s1 with crews := s1.crews.put s.crews.nextKey c } : State).populate s.crews.nextKey l p
    let placed := fun (s2 : State) => ((s2.freshCores p).setLaunch k fun l => { l with placed := l.placed + 1 }).startTask k
    (go → make s = none → exec (.crewPlacement k clus unit cores) s0 = .next s0) ∧
    (∀ s2, go → l.pk 0x60 8 = 0 → make s = some s2 → exec (.crewPlacement k clus unit cores) s0 = .next (placed s2)) ∧
    ∀ s1 pa s2, go → l.pk 0x60 8 ≠ 0 → make s ≠ none →
      s.dispAccess l.die l.ctx (l.pk 0x60 8 + 4 * l.placed) .write = (s1, .ok pa) → l.cbaseBad (s1.queue l.ctx l.q) = false →
      make ((s1.putBytes pa (leBytes 4 (65536 * unit))).noteWrite (some k) pa 4) = some s2 →
      exec (.crewPlacement k clus unit cores) s0 = .next (placed s2)) ∧
  (∀ (s t : State) ck l core wid, s.newWave ck l core wid = some t → ∃ (s1 : State) (w : Wave), t = s1.drawn.putWave s1.waves.nextKey w ∧
    s1 = { s with ctxs := s1.ctxs } ∧ w.fa = some { id := s.draw, pc := BitVec.ofNat 56 l.entry, owned := BitVec.allOnes 96, mask := BitVec.allOnes 96 } ∧
    w.fb = none ∧ w.status = .resident ∧ w.crew = ck ∧ w.wid = wid ∧ w.core = core ∧ w.gran = l.granN ∧ w.budget = l.budget ∧
    w.s = l.scalars ∧ w.v = [] ∧ w.p = []) ∧
  (∀ k s l, s.launches.get? k = some l →
    let go := (l.st = .draining ∨ l.st = .failed ∨ l.st = .killed) ∧ l.done = false ∧ l.parked = false ∧ l.marker = false ∧
      s.launchIdle k = true
    let s1 := s.releaseShadows k
    let m := s1.launch k
    let word := m.compAddr ≠ 0 ∧ m.noWord = false ∧ m.task = none
    (¬ go → exec (.launchComplete k) s = .next s) ∧
    (go → ¬ word → exec (.launchComplete k) s = .next (s1.endLaunch k)) ∧
    ∀ s2 pa, go → word → s1.dispAccess m.die m.ctx m.compAddr .write = (s2, .ok pa) →
      exec (.launchComplete k) s = .next (((s2.put64 pa (if m.st = .draining then m.compVal
        else m.compVal ^^^ 0x8000000000000000)).noteWrite (some k) pa 8).endLaunch k)) ∧
  (∀ k s l, s.launches.get? k = some l →
    (l.st ≠ .replaying → exec (.launchReplay k) s = .next s) ∧
    (l.st = .replaying → l.nonReplay = true → exec (.launchReplay k) s = .next (s.setLaunch k fun l => { l with st := .failed })) ∧
    (l.st = .replaying → l.nonReplay = false → ∃ t, exec (.launchReplay k) s = .next t ∧ (t.launch k).st = .dispatching ∧
      (t.launch k).replayed = true ∧ ∀ h ∈ (t.launch k).shadows, h.copied = false)) ∧
  (∀ k s l, s.launches.get? k = some l →
    (l.done = true ∨ l.st = .killed ∨ l.st = .complete ∨ l.st = .failed → exec (.launchKill k) s = .next s) ∧
    (l.done = false → l.st ≠ .killed → l.st ≠ .complete → l.st ≠ .failed →
      (l.marker = true → exec (.launchKill k) s = .next (s.endMarker k true)) ∧
      (l.marker = false → ∃ t, exec (.launchKill k) s = .next t ∧ (t.launch k).st = .killed ∧ (t.launch k).parked = false))) ∧
  ∀ k s l, s.launches.get? k = some l →
    exec (.deadlineMiss k) s = .next (if l.done = false ∧ l.marker = false ∧ l.deadline ≠ 0 ∧ l.deadline < s.clk ∧ l.missed = false
      then (s.setLaunch k fun l => { l with missed := true }).count 9 else s)

/-- Eviction, restore, fetch, ageing and budgets: effect (R77, R78, R79, R80, R87, R241, R340, R382, R386, R394, R399,
R400). -/
def Obligations.SavedWork : Prop :=
  (∀ k core slot s w, s.waves.get? k = some w →
    let go := (w.status = .evicted ∨ (w.status = .adjourned ∧ w.ready = true)) ∧ (s.crew w.crew).space = none ∧
      s.running (s.ctxOf w) = true ∧ s.waveFits w core = true ∧ slot ∈ s.freeSlots core
    (¬ go → exec (.waveRestore k core slot) s = .next s) ∧
    (go → s.sealOk k w = false → exec (.waveRestore k core slot) s = .next (s.sealFault k w cSEAL)) ∧
    (go → s.sealOk k w = true → pcForm (s.get64 (w.save + 8)) = false →
      exec (.waveRestore k core slot) s = .next (s.sealFault k w cBADTARGET)) ∧
    (go → s.sealOk k w = true → pcForm (s.get64 (w.save + 8)) = true → ∃ x : Wave, exec (.waveRestore k core slot) s =
        .next (x.ids.foldl (fun s id => s.acquire core id w.crew .crw) (s.putWave k x)) ∧ x.core = core ∧ x.slot = slot ∧
      x.status = .resident ∧ x.crew = w.crew ∧ x.wid = w.wid ∧ x.gran = w.gran ∧ x.frag (s.savedSide w) = some (s.savedFrag w) ∧
      (∀ r, r < 60 → x.s.read r = s.get64 (w.save + 0x100 + 8 * r)) ∧
      ∀ r l, r < w.n → l < 96 → x.readV r l = BitVec.ofNat 32 (s.getNat (w.save + 0x400 + 384 * r + 4 * l) 4))) ∧
  (∀ k s w f, Coherent s → s.waves.get? k = some w → w.fa = some f → (∀ x ∈ s.stores.preds, x.2.wave ≠ k) →
    w.bad = [] → w.save + saveSize w.gran ≤ 2 ^ 52 →
    ∃ x, (s.evictWave k).waves.get? k = some x ∧ x.status = .evicted ∧ x.save = w.save ∧
      ((s.evictWave k).get64 (w.save + 8)).setWidth 56 = f.pc ∧
      (∀ r, r < 60 → (s.evictWave k).get64 (w.save + 0x100 + 8 * r) = w.s.read r) ∧
      ∀ r l, r < w.n → l < 96 →
        BitVec.ofNat 32 ((s.evictWave k).getNat (w.save + 0x400 + 384 * r + 4 * l) 4) = w.readV r l) ∧
  (∀ k s i, s.seqs.get? k = some i →
    let l := s.launch (s.crew i.crew).launch
    exec (.sequencerPark k) s = .next (if i.parkable = true ∧ s.instYields i = true then s.parkInst k else s) ∧
    ((s.ctx l.ctx).st = .suspended → s.instYields i = true) ∧
    (∀ y ∈ s.seqs, s.instCandidate y.2 = true → y.2.core = i.core → l.rank < (s.launch (s.crew y.2.crew).launch).rank →
      s.instYields i = true) ∧
    exec (.sequencerRestore k) s = .next (if s.instCandidate i = true ∧ s.seqFree ((s.instCore i).getD i.core) = true
      then s.restoreOn k i else s)) ∧
  (∀ k s, (s.crewYields k = false → exec (.crewEviction k) s = .next s) ∧
    ((s.ctx (s.launch (s.crew k).launch).ctx).st = .suspended → s.crewYields k = true) ∧
    ∀ t, s.crewYields k = true → s.evictCrew k = .ok t → exec (.crewEviction k) s = .next t) ∧
  (∀ k s0 c, s0.crews.get? k = some c → let s := s0.tidyCluster c.clus
    exec (.crewRestore k) s0 = .next (if c.space.isSome = true ∧ s.running (s.launch c.launch).ctx = true ∧ s.crewFits c = true
      then s.restoreCrew k c else s0)) ∧
  (∀ k b s h, s.fragment k b = some h →
    (∀ s1, h.enterLine s = .ok s1 → exec (.lineFetch k b) s = .next s1) ∧
    (256 ≤ h.f.age → exec (.fragmentAged k b) s =
      .next (s.putWave k (h.w.setFrag b (some { h.f with aged := true })))) ∧
    (h.f.age < 256 → exec (.fragmentAged k b) s = .next s)) ∧
  (∀ k s w, s.waves.get? k = some w →
    (w.status ≠ .live ∨ w.budget ≠ 0 ∨ w.mustWait s k = true → exec (.budgetExhausted false k) s = .next s) ∧
    ∀ h side, w.status = .live → w.budget = 0 → w.mustWait s k = false →
      side = (if (w.frag w.issuedB).isSome then w.issuedB else !w.issuedB) → s.fragment k side = some h →
      exec (.budgetExhausted false k) s = .next (s.adjourn k side (h.report cBUDGET))) ∧
  ∀ k s i, s.seqs.get? k = some i → exec (.budgetExhausted true k) s =
    .next (if i.status = .live ∧ i.budget = 0 ∧ i.ops = [] then s.adjournInst k { causes := cBUDGET, pc := i.pc.setWidth 64 } else s)

/-- A step runs the instruction that the line at the PC decodes to (R87, R97, R102, R108, R109, R385, R386, R394, R478).
-/
def Obligations.StepRunsDecoded : Prop :=
  (∀ s k b rest h0 s1 h l, s.health.inReset = false → s.agenda = .issue k b :: rest →
    let s0 := { s with agenda := rest }
    s0.fragment k b = some h0 → h0.w.budget ≠ 0 → h0.f.arrived = false → h0.enterLine s0 = .ok s1 →
    let s2 := { s1 with cur := some (.frag k b) }
    s2.fragment k b = some h → h.f.fetch = .line l → ¬ (h.f.wait = .none ∧ s2.outranked k b h = true) →
    h.w.held h.side h.f = false → linePair l (slotOf h.f.pc) = false →
    let w := lineWord l (slotOf h.f.pc)
    (∀ i, waveStream w = true → decode w = .ok i → step s = s0.turned (h.after (exec i s2))) ∧
    ((waveStream w = false ∨ ∀ i, decode w ≠ .ok i) → h.w.mustWait s2 h.key = false →
      step s = s0.turned (h.after (.next (s2.adjourn h.key h.side (h.report cILL)))))) ∧
  (∀ (s : State) (h : Here), (h.hasIssued s = false → h.after (.next s) = .next s) ∧
    (h.hasIssued s = true → h.after (.next s) = .next ((s.noteIssue h (h.f.instr? == some .yield)).passedBy h))) ∧
  (∀ (s : State) (h : Here) y k w, s.waves.get? k = some w →
    (w.core ≠ h.w.core → (s.noteIssue h y).waves.get? k = some w) ∧
    (w.core = h.w.core → ∃ v, (s.noteIssue h y).waves.get? k = some v ∧
      { v with fa := w.fa, fb := w.fb, issuedB := w.issuedB } = w ∧ (v.issuedB = if k = h.key then h.side else w.issuedB) ∧
      ∀ b, v.frag b = (w.frag b).map fun f => if k = h.key ∧ b = h.side
        then { f with age := 0, aged := false, idle := 0, yielded := y } else { f with idle := f.idle + 1, yielded := false })) ∧
  (∀ s k rest h0 s1 h l, s.health.inReset = false → s.agenda = .seqIssue k :: rest →
    let s0 := { s with agenda := rest }
    ({ s0 with cur := some (.seq k) } : State).seqHere = some h0 → h0.i.budget ≠ 0 → h0.enterLine s0 = .ok s1 →
    let s2 := { (s1.noteSeqIssue k) with cur := some (.seq k), seqs := (s1.noteSeqIssue k).seqs.modify k fun i => { i with steps := i.steps + 1 } }
    s2.seqHere = some h → h.i.fetch = .line l →
    let w := lineWord l (slotOf h.i.pc)
    (∀ i, seqStream w = true → decode w = .ok i → step s = s0.turned (exec i s2)) ∧
    ((seqStream w = false ∨ ∀ i, decode w ≠ .ok i) → h.i.ops = [] →
      step s = s0.turned (.next (s2.adjournInst h.key (h.report cILL))))) ∧
  (∀ s i rest, s.health.inReset = false → s.agenda = .event i :: rest → encodeFields i = none →
    let s0 := { s with agenda := rest }
    step s = s0.turned (exec i { s0 with cur := none })) ∧
  (∀ s n rest, s.health.inReset = false → s.agenda = .elapse n :: rest →
    let s0 := { s with agenda := rest }
    step s = s0.turned (.next { s0 with clk := s.clk + n })) ∧
  (∀ s t rest, s.health.inReset = true → s.agenda = t :: rest → t.inReset = false →
    let s0 := { s with agenda := rest }
    step s = s0.turned (.next s0)) ∧
  (∀ s t : State, s.clk = t.clk → s.turned (.next t) = .next (s.afterTurn t) ∧
    (t.stores.owner = [] → (t.waves.all fun x => !x.2.onFlag) = true → (∀ d, d < 8 → t.candCtxs d = []) →
      (∀ x ∈ t.ctxs, x.2.had = 0) → s.afterTurn t = t)) ∧
  ∀ (s : State) core ctx addr s1 pa, s.translate core ctx addr .fetch = (s1, .ok pa) → s1.poisoned (pa / 128) = false →
    let l : CodeLine := BitVec.ofNat 512 (s1.getNat pa 64)
    (s.fetchLine core ctx addr).2 = .ok (if parityOk l = true then some l else none) ∧
    (∀ j, j < 64 → byteOf l j = s1.readAt (pa + j)) ∧
    (Coherent s1 → pa + 64 ≤ 2 ^ 52 → ∀ j, j < 64 → byteOf l j = s1.mem.byteAt (pa + j))

/-- Words written out from the encoding tables decode to their instructions (R92, R93, R94, R96, R103, R108, R109). -/
def Obligations.DecodedWords : Prop :=
  decode 0x000000000000F00000000000#96 = .ok .nop ∧
  decode 0x0100000000000000FFFFFFF9#96 = .ok (.br 0xFFFFFFF9) ∧
  decode 0x030000000200001000000004#96 = .ok (.brv 2 4 0x10) ∧
  decode 0x110005060000F00800001000#96 = .ok (.add ⟨.n64, .none, 5, 6, .imm 0x1000, 0⟩) ∧
  decode 0x10040506073FF00600000000#96 = .ok (.mad ⟨.n16, .none, 5, 6, .reg 7, 63⟩) ∧
  decode 0x0700000A0000000000000000#96 = .ok (.ret 10) ∧
  (∀ i, decode 0x000000000000F00000000001#96 ≠ .ok i) ∧
  ∀ i, decode 0x0F0000000000F00000000000#96 ≠ .ok i

/-- Decoding what an instruction encodes to gives it back (R92, R93, R94, R108). -/
def Obligations.RoundTrip : Prop :=
  (∀ i f, wellFormed i = true → encodeFields i = some f → decode f.toWord = .ok i ∧ decodeBytes (bytesOfWord f.toWord) = .ok i) ∧
  (∀ i j f, wellFormed i = true → wellFormed j = true → encodeFields i = some f → encodeFields j = some f → i = j) ∧
  ∀ w i, decode w = .ok i → wellFormed i = true ∧ ∃ f, encodeFields i = some f ∧ f.toWord = w

/-- Every step keeps main memory in its canonical form (R268, R269, R272). -/
def Obligations.MemoryStaysCanonical : Prop := ∀ s t : State, s.memWf → step s = .next t → t.memWf

/-- The state at reset (R110, R338, R451, R470, R471, R478). -/
def Obligations.ResetState : Prop :=
  let s := State.reset
  s.cur = none ∧ s.waves = [] ∧ s.seqs = [] ∧ s.crews = [] ∧ s.launches = [] ∧ s.copies = [] ∧ s.records = [] ∧ s.detached = [] ∧
  s.mem.tlb = [] ∧ (∀ k, (s.qp k).st = .reset) ∧ (∀ c q, (s.queue c q).st = .disabled) ∧ (s.ctx 0).st = .created ∧
  (∀ c, c ≠ 0 → (s.ctx c).st = .free) ∧ s.health.jbase = 0 ∧ s.health.qptab = 0 ∧ s.health.c0desc = 0 ∧ s.health.errst = 0 ∧
  (∀ e, s.health.counters.read e = 0) ∧ (∀ p r, s.partReg p r = 0) ∧ s.memWf ∧ Coherent s ∧ ∀ a, s.mem.byteAt a = 0
end

