-- ==== Sys2Proof/Laws/Cells.lean ====
section
/-!
SUPPORT. Laws of the sparse stores: a read after a write, the canonical form kept by every write, tables.
-/
namespace Sys2Proof.Machine

/-- A list without the key reads 0. -/
theorem Cells.read_absent {w : Nat} (m : Cells w) (k : Nat) (h : ∀ x ∈ m, x.1 ≠ k) : Cells.read m k = 0 := by
  induction m with
  | nil => rfl
  | cons x m ih =>
    obtain ⟨a, v⟩ := x
    have : a ≠ k := h (a, v) (by simp)
    simp only [Cells.read, this, if_false]
    exact ih fun y hy => h y (by simp [hy])

theorem Cells.read_append_left {w : Nat} (m m' : Cells w) (k : Nat) (h : ∀ x ∈ m, x.1 ≠ k) :
    Cells.read (m ++ m') k = Cells.read m' k := by
  induction m with
  | nil => rfl
  | cons x m ih =>
    obtain ⟨a, v⟩ := x
    have : a ≠ k := h (a, v) (by simp)
    simp only [List.cons_append, Cells.read, this, if_false]
    exact ih fun y hy => h y (by simp [hy])

theorem Cells.read_append_right {w : Nat} (m m' : Cells w) (k : Nat) (h : ∀ x ∈ m', x.1 ≠ k) :
    Cells.read (m ++ m') k = Cells.read m k := by
  induction m with
  | nil => simp [Cells.read, Cells.read_absent m' k h]
  | cons x m ih =>
    obtain ⟨a, v⟩ := x
    simp only [List.cons_append, Cells.read]
    split <;> simp_all

/-- Dropping other keys keeps what a key reads as. -/
theorem Cells.read_filter {w : Nat} (m : Cells w) (p : Nat → Bool) (k : Nat) (h : p k = true) :
    Cells.read (m.filter fun x => p x.1) k = Cells.read m k := by
  induction m with
  | nil => rfl
  | cons x m ih =>
    obtain ⟨a, v⟩ := x
    by_cases hp : p a = true
    · simp only [List.filter_cons, hp, if_true, Cells.read, ih]
    · have : a ≠ k := fun e => hp (e ▸ h)
      simp only [List.filter_cons, hp, Cells.read, this, if_false]
      exact ih

theorem Cells.fresh_keys {w : Nat} (f : Nat → BitVec w) : ∀ (n lo : Nat) (x : Nat × BitVec w),
    x ∈ Cells.fresh lo f n → lo ≤ x.1 ∧ x.1 < lo + n
  | 0, _, x, h => by simp [Cells.fresh] at h
  | n + 1, lo, x, h => by
    simp only [Cells.fresh] at h
    split at h
    · have := Cells.fresh_keys f n (lo + 1) x h
      omega
    · rcases List.mem_cons.1 h with e | h'
      · subst e; simp
      · have := Cells.fresh_keys f n (lo + 1) x h'
        omega

theorem Cells.read_fresh {w : Nat} (f : Nat → BitVec w) (k : Nat) : ∀ (n lo : Nat), lo ≤ k → k < lo + n →
    Cells.read (Cells.fresh lo f n) k = f k
  | 0, lo, h1, h2 => by omega
  | n + 1, lo, h1, h2 => by
    by_cases e : lo = k
    · subst e
      by_cases z : f lo = 0
      · simp only [Cells.fresh, z, if_true]
        exact Cells.read_absent _ _ fun x hx => by
          have := Cells.fresh_keys f n (lo + 1) x hx
          omega
      · rw [Cells.fresh, if_neg z]
        simp [Cells.read]
    · by_cases z : f lo = 0
      · simp only [Cells.fresh, z, if_true]
        exact Cells.read_fresh f k n (lo + 1) (by omega) (by omega)
      · simp only [Cells.fresh, z, if_false, Cells.read, e]
        exact Cells.read_fresh f k n (lo + 1) (by omega) (by omega)

/-- A read after a write, of any list. -/
theorem Cells.read_update {w : Nat} (m : Cells w) (lo n : Nat) (f : Nat → BitVec w) (k : Nat) :
    Cells.read (m.update lo n f) k = if lo ≤ k ∧ k < lo + n then f k else Cells.read m k := by
  unfold Cells.update
  split
  · rename_i h
    rw [List.append_assoc, Cells.read_append_left]
    · rw [Cells.read_append_right]
      · exact Cells.read_fresh f k n lo h.1 h.2
      · intro x hx
        have := List.mem_filter.1 hx
        have := of_decide_eq_true this.2
        omega
    · intro x hx
      have := List.mem_filter.1 hx
      have := of_decide_eq_true this.2
      omega
  · rename_i h
    by_cases hk : k < lo
    · rw [Cells.read_append_right, Cells.read_append_right]
      · exact Cells.read_filter m (fun a => decide (a < lo)) k (by simpa using hk)
      · intro x hx
        have := Cells.fresh_keys f n lo x hx
        omega
      · intro x hx
        have := List.mem_filter.1 hx
        have := of_decide_eq_true this.2
        omega
    · have hk' : lo + n ≤ k := by
        by_contra c
        exact h ⟨by omega, by omega⟩
      rw [Cells.read_append_left]
      · exact Cells.read_filter m (fun a => decide (lo + n ≤ a)) k (by simpa using hk')
      · intro x hx
        rcases List.mem_append.1 hx with hx | hx
        · have := List.mem_filter.1 hx
          have := of_decide_eq_true this.2
          omega
        · have := Cells.fresh_keys f n lo x hx
          omega

@[simp] theorem Cells.read_write {w : Nat} (m : Cells w) (i : Nat) (v : BitVec w) (k : Nat) :
    Cells.read (m.write i v) k = if k = i then v else Cells.read m k := by
  unfold Cells.write
  rw [Cells.read_update]
  by_cases h : k = i
  · simp [h]
  · have : ¬(i ≤ k ∧ k < i + 1) := by omega
    rw [if_neg this, if_neg h]

theorem Cells.read_clear {w : Nat} (m : Cells w) (lo n k : Nat) :
    Cells.read (m.clear lo n) k = if lo ≤ k ∧ k < lo + n then 0 else Cells.read m k := by
  unfold Cells.clear
  split
  · rename_i h
    refine Cells.read_absent _ _ fun x hx => ?_
    have := (List.mem_filter.1 hx).2
    simp only [Bool.or_eq_true, decide_eq_true_eq] at this
    omega
  · rename_i h
    exact Cells.read_filter m (fun a => decide (a < lo) || decide (lo + n ≤ a)) k (by
      simp only [Bool.or_eq_true, decide_eq_true_eq]; omega)

theorem Memory.read_update (m : Memory) (lo n : Nat) (f : Nat → Byte) (k : Nat) :
    (Memory.update m lo n f).read k = if lo ≤ k ∧ k < lo + n then f k else m.read k :=
  Cells.read_update (w := 8) m lo n f k

/-- The canonical form as an order on keys and words that are not 0. -/
theorem Cells.wfFrom_iff {w : Nat} : ∀ (m : Cells w) (lo : Nat), Cells.wfFrom lo m = true ↔
    (∀ x ∈ m, lo ≤ x.1 ∧ x.2 ≠ 0) ∧ m.Pairwise fun x y => x.1 < y.1
  | [], lo => by simp [Cells.wfFrom]
  | (k, v) :: m, lo => by
    simp only [Cells.wfFrom, Bool.and_eq_true, decide_eq_true_eq, Cells.wfFrom_iff m (k + 1), List.pairwise_cons,
      List.mem_cons, forall_eq_or_imp]
    constructor
    · rintro ⟨⟨h1, h2⟩, h3, h4⟩
      exact ⟨⟨⟨h1, h2⟩, fun x hx => ⟨by have := (h3 x hx).1; omega, (h3 x hx).2⟩⟩,
        fun x hx => by have := (h3 x hx).1; omega, h4⟩
    · rintro ⟨⟨⟨h1, h2⟩, h3⟩, h4, h5⟩
      exact ⟨⟨h1, h2⟩, fun x hx => ⟨h4 x hx, (h3 x hx).2⟩, h5⟩

theorem Cells.wf_iff {w : Nat} (m : Cells w) : m.wf = true ↔ (∀ x ∈ m, x.2 ≠ 0) ∧ m.Pairwise fun x y => x.1 < y.1 := by
  simp [Cells.wf, Cells.wfFrom_iff]

theorem Cells.fresh_wf {w : Nat} (f : Nat → BitVec w) : ∀ (n lo : Nat), Cells.wfFrom lo (Cells.fresh lo f n) = true
  | 0, lo => rfl
  | n + 1, lo => by
    have ih := Cells.fresh_wf f n (lo + 1)
    by_cases z : f lo = 0
    · simp only [Cells.fresh, z, if_true]
      rw [Cells.wfFrom_iff] at ih ⊢
      exact ⟨fun x hx => ⟨by have := (ih.1 x hx).1; omega, (ih.1 x hx).2⟩, ih.2⟩
    · rw [Cells.fresh, if_neg z]
      simpa [Cells.wfFrom, ih] using z

/-- Every write keeps the canonical form. -/
theorem Cells.wf_update {w : Nat} (m : Cells w) (lo n : Nat) (f : Nat → BitVec w) (h : m.wf = true) :
    (m.update lo n f).wf = true := by
  rw [Cells.wf_iff] at h ⊢
  have hf := (Cells.wfFrom_iff _ _).1 (Cells.fresh_wf f n lo)
  unfold Cells.update
  constructor
  · intro x hx
    rcases List.mem_append.1 hx with hx | hx
    · rcases List.mem_append.1 hx with hx | hx
      · exact h.1 x (List.mem_filter.1 hx).1
      · exact (hf.1 x hx).2
    · exact h.1 x (List.mem_filter.1 hx).1
  · rw [List.pairwise_append, List.pairwise_append]
    refine ⟨⟨h.2.filter _, hf.2, ?_⟩, h.2.filter _, ?_⟩
    · intro x hx y hy
      have h1 := of_decide_eq_true (List.mem_filter.1 hx).2
      have h2 := Cells.fresh_keys f n lo y hy
      omega
    · intro x hx y hy
      have h2 := of_decide_eq_true (List.mem_filter.1 hy).2
      rcases List.mem_append.1 hx with hx | hx
      · have h1 := of_decide_eq_true (List.mem_filter.1 hx).2
        omega
      · have h1 := Cells.fresh_keys f n lo x hx
        omega

theorem Cells.wf_write {w : Nat} (m : Cells w) (k : Nat) (v : BitVec w) (h : m.wf = true) : (m.write k v).wf = true :=
  Cells.wf_update m k 1 _ h

theorem Cells.wf_clear {w : Nat} (m : Cells w) (lo n : Nat) (h : m.wf = true) : (m.clear lo n).wf = true := by
  rw [Cells.wf_iff] at h ⊢
  exact ⟨fun x hx => h.1 x (List.mem_filter.1 hx).1, h.2.filter _⟩

theorem Cells.wf_splice {w : Nat} (m : Cells w) (lo n : Nat) (c : Cells w) (h : m.wf = true) : (m.splice lo n c).wf = true := by
  suffices ∀ (l m : Cells w), m.wf = true → (l.foldl (fun m x => m.write (lo + x.1) x.2) m).wf = true from
    this _ _ (wf_clear m lo n h)
  intro l
  induction l with
  | nil => exact fun _ h => h
  | cons x l ih => exact fun m h => ih _ (wf_write m _ _ h)

theorem Memory.wf_update (m : Memory) (lo n : Nat) (f : Nat → Byte) (h : m.wf = true) : (Memory.update m lo n f).wf = true :=
  Cells.wf_update (w := 8) m lo n f h

@[simp] theorem Table.get?_put_same {α : Type} (t : Table α) (n : Nat) (x : α) : (t.put n x).get? n = some x := by
  induction t with
  | nil => simp [Table.put, Table.get?]
  | cons e t ih =>
    obtain ⟨k, v⟩ := e
    simp only [Table.put]
    split
    · simp [Table.get?]
    · split
      · simp [Table.get?]
      · rename_i h1 h2
        simp [Table.get?, h1, ih]

theorem Table.get?_put_other {α : Type} (t : Table α) (n k : Nat) (x : α) (h : k ≠ n) : (t.put n x).get? k = t.get? k := by
  induction t with
  | nil => simp [Table.put, Table.get?, Ne.symm h]
  | cons e t ih =>
    obtain ⟨a, v⟩ := e
    simp only [Table.put]
    split
    · rename_i h1
      subst h1
      simp [Table.get?, Ne.symm h]
    · split
      · simp [Table.get?, Ne.symm h]
      · simp [Table.get?, ih]

theorem Table.get?_put {α : Type} (t : Table α) (n k : Nat) (x : α) :
    (t.put n x).get? k = if k = n then some x else t.get? k := by
  split
  · rename_i h; subst h; simp
  · rename_i h; exact Table.get?_put_other t n k x h

@[simp] theorem Table.get?_erase_same {α : Type} (t : Table α) (n : Nat) : (t.erase n).get? n = none := by
  induction t with
  | nil => rfl
  | cons e t ih =>
    obtain ⟨a, v⟩ := e
    by_cases h : a = n
    · simpa [Table.erase, h] using ih
    · simpa [Table.erase, h, Table.get?] using ih

theorem Table.get?_erase_other {α : Type} (t : Table α) (n k : Nat) (h : k ≠ n) : (t.erase n).get? k = t.get? k := by
  induction t with
  | nil => rfl
  | cons e t ih =>
    obtain ⟨a, v⟩ := e
    by_cases h1 : a = n
    · subst h1
      simpa [Table.erase, Table.get?, Ne.symm h] using ih
    · by_cases h2 : a = k
      · simp [Table.erase, Table.get?, h2, h]
      · simpa [Table.erase, h1, Table.get?, h2] using ih

end Sys2Proof.Machine
end

