-- ==== Sys2Proof/Laws/Canonical.lean ====
section
/-!
SUPPORT. Every operation over main memory keeps its canonical form.
-/
namespace Sys2Proof.Machine

theorem memWf_setMem {s : State} {m : MemSys} (h : m.ram.wf = true) : (s.setMem m).memWf := h

/-- An update that leaves main memory alone keeps the canonical form. -/
theorem memWf_of_ram {s t : State} (e : t.mem.ram = s.mem.ram) (h : s.memWf) : t.memWf := by
  unfold State.memWf at *; rw [e]; exact h

/-- A fold of steps that each keep the form keeps it. -/
theorem memWf_foldl {α : Type} (f : State → α → State) (hf : ∀ s x, s.memWf → (f s x).memWf) :
    ∀ (l : List α) (s : State), s.memWf → (l.foldl f s).memWf
  | [], _, h => h
  | x :: l, s, h => memWf_foldl f hf l (f s x) (hf s x h)

theorem wf_putRamLine (m : MemSys) (l : Nat) (d : MemLine) (h : m.ram.wf = true) : (m.putRamLine l d).ram.wf = true :=
  Memory.wf_update _ _ _ _ h

theorem wf_recallFrom (l : Nat) : ∀ (dies : List Nat) (m : MemSys), m.ram.wf = true → (m.recallFrom l dies).ram.wf = true
  | [], _, h => h
  | d :: dies, m, h => by
    unfold MemSys.recallFrom
    rw [List.foldl_cons]
    refine wf_recallFrom l dies _ ?_
    split
    · dsimp only
      split
      · exact wf_putRamLine _ _ _ h
      · exact h
    · exact h

theorem memWf_invalidateWords {s : State} (lo n : Nat) (k : Option (Nat × Nat)) (h : s.memWf) :
    (s.invalidateWords lo n k).memWf := h

theorem memWf_probe {s : State} (l : Nat) (ts : List Nat) (h : s.memWf) : (s.probe l ts).1.memWf := by
  unfold State.probe
  exact memWf_foldl (fun s d => s.probeDrop l d) (fun _ _ h => h) _ s h

theorem memWf_recoverLine {s : State} (l : Nat) (h : s.memWf) : (s.recoverLine l).memWf := by
  unfold State.recoverLine
  split
  · exact wf_recallFrom _ _ _ h
  · exact h

theorem memWf_doGetS {s : State} (d l : Nat) (h : s.memWf) : (s.doGetS d l).memWf := by
  have h1 := memWf_recoverLine l h
  unfold State.doGetS
  dsimp only
  split
  · split
    · exact h1
    · exact h1
  · rename_i e _
    obtain ⟨own, sh⟩ := e
    split
    · exact h1
    · cases own with
      | none => have h2 := memWf_probe l [] h1; split <;> exact h2
      | some o =>
        have h2 := memWf_probe l [o] h1
        dsimp only
        generalize (s.recoverLine l).probe l [o] = q at h2 ⊢
        cases q.1.mem.l2.get? (l2Key o l) with
        | none => split <;> exact h2
        | some c =>
          by_cases he : q.2.isEmpty = true
          · simp only [he, if_true]; split <;> exact h2
          · simp only [he]
            by_cases hc : c.st = Moesi.e ∨ c.st = Moesi.s
            · simp only [hc, if_true]; split <;> exact h2
            · simp only [hc, if_false]; split <;> exact h2

theorem memWf_doGetM {s : State} (d l : Nat) (h : s.memWf) : (s.doGetM d l).memWf := by
  have h1 := memWf_recoverLine l h
  unfold State.doGetM
  dsimp only
  split
  · split
    · exact h1
    · exact wf_recallFrom _ _ _ (memWf_probe l _ h1)
  · split
    · exact wf_recallFrom _ _ _ (memWf_probe l _ h1)
    · exact wf_recallFrom _ _ _ (memWf_probe l _ h1)

theorem memWf_recall {s : State} (l : Nat) (h : s.memWf) : (s.recall l).memWf := by
  have h1 := memWf_recoverLine l h
  unfold State.recall
  dsimp only
  split
  · exact h1
  · exact wf_recallFrom _ _ _ (memWf_probe l _ h1)

theorem memWf_homeWrite {s : State} (pa n : Nat) (f : Nat → Byte) (k : Option (Nat × Nat)) (h : s.memWf) :
    (s.homeWrite pa n f k).memWf :=
  Memory.wf_update _ _ _ _ (memWf_foldl _ (fun _ _ h => memWf_recall _ h) _ _ h)

theorem memWf_recallRange {s : State} (pa n : Nat) (h : s.memWf) : (s.recallRange pa n).memWf :=
  memWf_foldl _ (fun _ _ h => memWf_recall _ h) _ _ h

theorem memWf_putImage {s : State} (pa n : Nat) (c : Cells 8) (h : s.memWf) : (s.putImage pa n c).memWf :=
  Cells.wf_splice _ _ _ _ (memWf_recallRange _ _ h)

theorem memWf_putBytes {s : State} (pa : Nat) (l : List Byte) (h : s.memWf) : (s.putBytes pa l).memWf :=
  memWf_homeWrite _ _ _ _ h

theorem memWf_put64 {s : State} (pa : Nat) (v : W64) (h : s.memWf) : (s.put64 pa v).memWf := memWf_putBytes _ _ h

theorem memWf_coreWrite {s : State} (core pa n : Nat) (f : Nat → Byte) (h : s.memWf) : (s.coreWrite core pa n f).memWf := by
  unfold State.coreWrite
  refine memWf_foldl (s := s) _ (fun s l h => ?_) (linesOf pa n) h
  dsimp only
  split
  · exact memWf_homeWrite _ _ _ _ h
  · exact memWf_doGetM _ _ h

theorem memWf_coreLine {s : State} (core l : Nat) (alloc : Bool) (h : s.memWf) : (s.coreLine core l alloc).1.memWf := by
  have h1 : ∀ t : State, t.memWf → ∀ x, (if alloc = true then t.setMem { t.mem with l1 := x } else t).memWf := by
    intro t ht x; split <;> exact ht
  unfold State.coreLine
  split
  · exact h
  · dsimp only
    cases s.mem.l2.get? (l2Key (core / 512) l) with
    | some c => exact h1 _ h _
    | none => exact h1 _ (memWf_doGetS _ _ h) _

theorem reset_memWf : State.reset.memWf := rfl

end Sys2Proof.Machine
end

