-- ==== Sys2Proof/Laws/Encoding.lean ====
section
/-!
SUPPORT. Decoding and encoding: what a decoded word says about its fields.
-/
namespace Sys2Proof

/-- A word whose fields are those of a well-formed instruction, and whose opcode's candidate is it, decodes to it. -/
theorem decode_of_candidate (i : Instr) (f : Fields) (h : encodeFields i = some f) (hf : fieldsOf f.toWord = f)
    (hc : candidate f = some i) (hw : wellFormed i = true) : decode f.toWord = .ok i := by
  simp [decode, hf, hc, h, hw]

/-- R108: a decoded word is the encoding of its instruction, which is well-formed. -/
theorem wellFormed_of_decode (w : BitVec 96) (i : Instr) (h : decode w = .ok i) :
    wellFormed i = true ∧ encodeFields i = some (fieldsOf w) := by
  unfold decode at h
  split at h
  · cases h
  · rename_i j hj
    by_cases he : encodeFields j = some (fieldsOf w) <;> by_cases hw : wellFormed j = true <;> simp_all

end Sys2Proof
end

