-- ==== Sys2Proof/Laws/State.lean ====
section
/-!
SUPPORT. One lemma per field and update of State, so that no proof unfolds a record update.
-/
namespace Sys2Proof.Machine

@[simp] theorem State.putWave_clk (s : State) (k : Nat) (w : Wave) : (s.putWave k w).clk = s.clk := rfl
@[simp] theorem State.putWave_agenda (s : State) (k : Nat) (w : Wave) : (s.putWave k w).agenda = s.agenda := rfl
@[simp] theorem State.putWave_draw (s : State) (k : Nat) (w : Wave) : (s.putWave k w).draw = s.draw := rfl
@[simp] theorem State.putWave_cur (s : State) (k : Nat) (w : Wave) : (s.putWave k w).cur = s.cur := rfl
@[simp] theorem State.putWave_mem (s : State) (k : Nat) (w : Wave) : (s.putWave k w).mem = s.mem := rfl
@[simp] theorem State.putWave_stores (s : State) (k : Nat) (w : Wave) : (s.putWave k w).stores = s.stores := rfl
@[simp] theorem State.putWave_seqs (s : State) (k : Nat) (w : Wave) : (s.putWave k w).seqs = s.seqs := rfl
@[simp] theorem State.putWave_crews (s : State) (k : Nat) (w : Wave) : (s.putWave k w).crews = s.crews := rfl
@[simp] theorem State.putWave_launches (s : State) (k : Nat) (w : Wave) : (s.putWave k w).launches = s.launches := rfl
@[simp] theorem State.putWave_ctxs (s : State) (k : Nat) (w : Wave) : (s.putWave k w).ctxs = s.ctxs := rfl
@[simp] theorem State.putWave_queues (s : State) (k : Nat) (w : Wave) : (s.putWave k w).queues = s.queues := rfl
@[simp] theorem State.putWave_copies (s : State) (k : Nat) (w : Wave) : (s.putWave k w).copies = s.copies := rfl
@[simp] theorem State.putWave_records (s : State) (k : Nat) (w : Wave) : (s.putWave k w).records = s.records := rfl
@[simp] theorem State.putWave_detached (s : State) (k : Nat) (w : Wave) : (s.putWave k w).detached = s.detached := rfl
@[simp] theorem State.putWave_samples (s : State) (k : Nat) (w : Wave) : (s.putWave k w).samples = s.samples := rfl
@[simp] theorem State.putWave_link (s : State) (k : Nat) (w : Wave) : (s.putWave k w).link = s.link := rfl
@[simp] theorem State.putWave_health (s : State) (k : Nat) (w : Wave) : (s.putWave k w).health = s.health := rfl
@[simp] theorem State.putWave_spoilt (s : State) (k : Nat) (w : Wave) : (s.putWave k w).spoilt = s.spoilt := rfl

@[simp] theorem State.setCrew_clk (s : State) (k : Nat) (f : Crew → Crew) : (s.setCrew k f).clk = s.clk := rfl
@[simp] theorem State.setCrew_agenda (s : State) (k : Nat) (f : Crew → Crew) : (s.setCrew k f).agenda = s.agenda := rfl
@[simp] theorem State.setCrew_draw (s : State) (k : Nat) (f : Crew → Crew) : (s.setCrew k f).draw = s.draw := rfl
@[simp] theorem State.setCrew_cur (s : State) (k : Nat) (f : Crew → Crew) : (s.setCrew k f).cur = s.cur := rfl
@[simp] theorem State.setCrew_mem (s : State) (k : Nat) (f : Crew → Crew) : (s.setCrew k f).mem = s.mem := rfl
@[simp] theorem State.setCrew_stores (s : State) (k : Nat) (f : Crew → Crew) : (s.setCrew k f).stores = s.stores := rfl
@[simp] theorem State.setCrew_waves (s : State) (k : Nat) (f : Crew → Crew) : (s.setCrew k f).waves = s.waves := rfl
@[simp] theorem State.setCrew_seqs (s : State) (k : Nat) (f : Crew → Crew) : (s.setCrew k f).seqs = s.seqs := rfl
@[simp] theorem State.setCrew_launches (s : State) (k : Nat) (f : Crew → Crew) : (s.setCrew k f).launches = s.launches := rfl
@[simp] theorem State.setCrew_ctxs (s : State) (k : Nat) (f : Crew → Crew) : (s.setCrew k f).ctxs = s.ctxs := rfl
@[simp] theorem State.setCrew_queues (s : State) (k : Nat) (f : Crew → Crew) : (s.setCrew k f).queues = s.queues := rfl
@[simp] theorem State.setCrew_copies (s : State) (k : Nat) (f : Crew → Crew) : (s.setCrew k f).copies = s.copies := rfl
@[simp] theorem State.setCrew_records (s : State) (k : Nat) (f : Crew → Crew) : (s.setCrew k f).records = s.records := rfl
@[simp] theorem State.setCrew_detached (s : State) (k : Nat) (f : Crew → Crew) : (s.setCrew k f).detached = s.detached := rfl
@[simp] theorem State.setCrew_samples (s : State) (k : Nat) (f : Crew → Crew) : (s.setCrew k f).samples = s.samples := rfl
@[simp] theorem State.setCrew_link (s : State) (k : Nat) (f : Crew → Crew) : (s.setCrew k f).link = s.link := rfl
@[simp] theorem State.setCrew_health (s : State) (k : Nat) (f : Crew → Crew) : (s.setCrew k f).health = s.health := rfl
@[simp] theorem State.setCrew_spoilt (s : State) (k : Nat) (f : Crew → Crew) : (s.setCrew k f).spoilt = s.spoilt := rfl

@[simp] theorem State.setLaunch_clk (s : State) (k : Nat) (f : Launch → Launch) : (s.setLaunch k f).clk = s.clk := rfl
@[simp] theorem State.setLaunch_agenda (s : State) (k : Nat) (f : Launch → Launch) : (s.setLaunch k f).agenda = s.agenda := rfl
@[simp] theorem State.setLaunch_draw (s : State) (k : Nat) (f : Launch → Launch) : (s.setLaunch k f).draw = s.draw := rfl
@[simp] theorem State.setLaunch_cur (s : State) (k : Nat) (f : Launch → Launch) : (s.setLaunch k f).cur = s.cur := rfl
@[simp] theorem State.setLaunch_mem (s : State) (k : Nat) (f : Launch → Launch) : (s.setLaunch k f).mem = s.mem := rfl
@[simp] theorem State.setLaunch_stores (s : State) (k : Nat) (f : Launch → Launch) : (s.setLaunch k f).stores = s.stores := rfl
@[simp] theorem State.setLaunch_waves (s : State) (k : Nat) (f : Launch → Launch) : (s.setLaunch k f).waves = s.waves := rfl
@[simp] theorem State.setLaunch_seqs (s : State) (k : Nat) (f : Launch → Launch) : (s.setLaunch k f).seqs = s.seqs := rfl
@[simp] theorem State.setLaunch_crews (s : State) (k : Nat) (f : Launch → Launch) : (s.setLaunch k f).crews = s.crews := rfl
@[simp] theorem State.setLaunch_ctxs (s : State) (k : Nat) (f : Launch → Launch) : (s.setLaunch k f).ctxs = s.ctxs := rfl
@[simp] theorem State.setLaunch_queues (s : State) (k : Nat) (f : Launch → Launch) : (s.setLaunch k f).queues = s.queues := rfl
@[simp] theorem State.setLaunch_copies (s : State) (k : Nat) (f : Launch → Launch) : (s.setLaunch k f).copies = s.copies := rfl
@[simp] theorem State.setLaunch_records (s : State) (k : Nat) (f : Launch → Launch) : (s.setLaunch k f).records = s.records := rfl
@[simp] theorem State.setLaunch_detached (s : State) (k : Nat) (f : Launch → Launch) : (s.setLaunch k f).detached = s.detached := rfl
@[simp] theorem State.setLaunch_samples (s : State) (k : Nat) (f : Launch → Launch) : (s.setLaunch k f).samples = s.samples := rfl
@[simp] theorem State.setLaunch_link (s : State) (k : Nat) (f : Launch → Launch) : (s.setLaunch k f).link = s.link := rfl
@[simp] theorem State.setLaunch_health (s : State) (k : Nat) (f : Launch → Launch) : (s.setLaunch k f).health = s.health := rfl
@[simp] theorem State.setLaunch_spoilt (s : State) (k : Nat) (f : Launch → Launch) : (s.setLaunch k f).spoilt = s.spoilt := rfl

@[simp] theorem State.setMem_clk (s : State) (m : MemSys) : (s.setMem m).clk = s.clk := rfl
@[simp] theorem State.setMem_agenda (s : State) (m : MemSys) : (s.setMem m).agenda = s.agenda := rfl
@[simp] theorem State.setMem_draw (s : State) (m : MemSys) : (s.setMem m).draw = s.draw := rfl
@[simp] theorem State.setMem_cur (s : State) (m : MemSys) : (s.setMem m).cur = s.cur := rfl
@[simp] theorem State.setMem_stores (s : State) (m : MemSys) : (s.setMem m).stores = s.stores := rfl
@[simp] theorem State.setMem_waves (s : State) (m : MemSys) : (s.setMem m).waves = s.waves := rfl
@[simp] theorem State.setMem_seqs (s : State) (m : MemSys) : (s.setMem m).seqs = s.seqs := rfl
@[simp] theorem State.setMem_crews (s : State) (m : MemSys) : (s.setMem m).crews = s.crews := rfl
@[simp] theorem State.setMem_launches (s : State) (m : MemSys) : (s.setMem m).launches = s.launches := rfl
@[simp] theorem State.setMem_ctxs (s : State) (m : MemSys) : (s.setMem m).ctxs = s.ctxs := rfl
@[simp] theorem State.setMem_queues (s : State) (m : MemSys) : (s.setMem m).queues = s.queues := rfl
@[simp] theorem State.setMem_copies (s : State) (m : MemSys) : (s.setMem m).copies = s.copies := rfl
@[simp] theorem State.setMem_records (s : State) (m : MemSys) : (s.setMem m).records = s.records := rfl
@[simp] theorem State.setMem_detached (s : State) (m : MemSys) : (s.setMem m).detached = s.detached := rfl
@[simp] theorem State.setMem_samples (s : State) (m : MemSys) : (s.setMem m).samples = s.samples := rfl
@[simp] theorem State.setMem_link (s : State) (m : MemSys) : (s.setMem m).link = s.link := rfl
@[simp] theorem State.setMem_health (s : State) (m : MemSys) : (s.setMem m).health = s.health := rfl
@[simp] theorem State.setMem_spoilt (s : State) (m : MemSys) : (s.setMem m).spoilt = s.spoilt := rfl

@[simp] theorem State.setCtx_clk (s : State) (c : Nat) (f : Ctx → Ctx) : (s.setCtx c f).clk = s.clk := rfl
@[simp] theorem State.setCtx_agenda (s : State) (c : Nat) (f : Ctx → Ctx) : (s.setCtx c f).agenda = s.agenda := rfl
@[simp] theorem State.setCtx_draw (s : State) (c : Nat) (f : Ctx → Ctx) : (s.setCtx c f).draw = s.draw := rfl
@[simp] theorem State.setCtx_cur (s : State) (c : Nat) (f : Ctx → Ctx) : (s.setCtx c f).cur = s.cur := rfl
@[simp] theorem State.setCtx_mem (s : State) (c : Nat) (f : Ctx → Ctx) : (s.setCtx c f).mem = s.mem := rfl
@[simp] theorem State.setCtx_stores (s : State) (c : Nat) (f : Ctx → Ctx) : (s.setCtx c f).stores = s.stores := rfl
@[simp] theorem State.setCtx_waves (s : State) (c : Nat) (f : Ctx → Ctx) : (s.setCtx c f).waves = s.waves := rfl
@[simp] theorem State.setCtx_seqs (s : State) (c : Nat) (f : Ctx → Ctx) : (s.setCtx c f).seqs = s.seqs := rfl
@[simp] theorem State.setCtx_crews (s : State) (c : Nat) (f : Ctx → Ctx) : (s.setCtx c f).crews = s.crews := rfl
@[simp] theorem State.setCtx_launches (s : State) (c : Nat) (f : Ctx → Ctx) : (s.setCtx c f).launches = s.launches := rfl
@[simp] theorem State.setCtx_queues (s : State) (c : Nat) (f : Ctx → Ctx) : (s.setCtx c f).queues = s.queues := rfl
@[simp] theorem State.setCtx_copies (s : State) (c : Nat) (f : Ctx → Ctx) : (s.setCtx c f).copies = s.copies := rfl
@[simp] theorem State.setCtx_records (s : State) (c : Nat) (f : Ctx → Ctx) : (s.setCtx c f).records = s.records := rfl
@[simp] theorem State.setCtx_detached (s : State) (c : Nat) (f : Ctx → Ctx) : (s.setCtx c f).detached = s.detached := rfl
@[simp] theorem State.setCtx_samples (s : State) (c : Nat) (f : Ctx → Ctx) : (s.setCtx c f).samples = s.samples := rfl
@[simp] theorem State.setCtx_link (s : State) (c : Nat) (f : Ctx → Ctx) : (s.setCtx c f).link = s.link := rfl
@[simp] theorem State.setCtx_health (s : State) (c : Nat) (f : Ctx → Ctx) : (s.setCtx c f).health = s.health := rfl
@[simp] theorem State.setCtx_spoilt (s : State) (c : Nat) (f : Ctx → Ctx) : (s.setCtx c f).spoilt = s.spoilt := rfl

@[simp] theorem State.putInst_clk (s : State) (k : Nat) (i : Inst) : (s.putInst k i).clk = s.clk := rfl
@[simp] theorem State.putInst_agenda (s : State) (k : Nat) (i : Inst) : (s.putInst k i).agenda = s.agenda := rfl
@[simp] theorem State.putInst_draw (s : State) (k : Nat) (i : Inst) : (s.putInst k i).draw = s.draw := rfl
@[simp] theorem State.putInst_cur (s : State) (k : Nat) (i : Inst) : (s.putInst k i).cur = s.cur := rfl
@[simp] theorem State.putInst_mem (s : State) (k : Nat) (i : Inst) : (s.putInst k i).mem = s.mem := rfl
@[simp] theorem State.putInst_stores (s : State) (k : Nat) (i : Inst) : (s.putInst k i).stores = s.stores := rfl
@[simp] theorem State.putInst_waves (s : State) (k : Nat) (i : Inst) : (s.putInst k i).waves = s.waves := rfl
@[simp] theorem State.putInst_crews (s : State) (k : Nat) (i : Inst) : (s.putInst k i).crews = s.crews := rfl
@[simp] theorem State.putInst_launches (s : State) (k : Nat) (i : Inst) : (s.putInst k i).launches = s.launches := rfl
@[simp] theorem State.putInst_ctxs (s : State) (k : Nat) (i : Inst) : (s.putInst k i).ctxs = s.ctxs := rfl
@[simp] theorem State.putInst_queues (s : State) (k : Nat) (i : Inst) : (s.putInst k i).queues = s.queues := rfl
@[simp] theorem State.putInst_copies (s : State) (k : Nat) (i : Inst) : (s.putInst k i).copies = s.copies := rfl
@[simp] theorem State.putInst_records (s : State) (k : Nat) (i : Inst) : (s.putInst k i).records = s.records := rfl
@[simp] theorem State.putInst_detached (s : State) (k : Nat) (i : Inst) : (s.putInst k i).detached = s.detached := rfl
@[simp] theorem State.putInst_samples (s : State) (k : Nat) (i : Inst) : (s.putInst k i).samples = s.samples := rfl
@[simp] theorem State.putInst_link (s : State) (k : Nat) (i : Inst) : (s.putInst k i).link = s.link := rfl
@[simp] theorem State.putInst_health (s : State) (k : Nat) (i : Inst) : (s.putInst k i).health = s.health := rfl
@[simp] theorem State.putInst_spoilt (s : State) (k : Nat) (i : Inst) : (s.putInst k i).spoilt = s.spoilt := rfl

@[simp] theorem State.drawn_clk (s : State) : (s.drawn).clk = s.clk := rfl
@[simp] theorem State.drawn_agenda (s : State) : (s.drawn).agenda = s.agenda := rfl
@[simp] theorem State.drawn_cur (s : State) : (s.drawn).cur = s.cur := rfl
@[simp] theorem State.drawn_mem (s : State) : (s.drawn).mem = s.mem := rfl
@[simp] theorem State.drawn_stores (s : State) : (s.drawn).stores = s.stores := rfl
@[simp] theorem State.drawn_waves (s : State) : (s.drawn).waves = s.waves := rfl
@[simp] theorem State.drawn_seqs (s : State) : (s.drawn).seqs = s.seqs := rfl
@[simp] theorem State.drawn_crews (s : State) : (s.drawn).crews = s.crews := rfl
@[simp] theorem State.drawn_launches (s : State) : (s.drawn).launches = s.launches := rfl
@[simp] theorem State.drawn_ctxs (s : State) : (s.drawn).ctxs = s.ctxs := rfl
@[simp] theorem State.drawn_queues (s : State) : (s.drawn).queues = s.queues := rfl
@[simp] theorem State.drawn_copies (s : State) : (s.drawn).copies = s.copies := rfl
@[simp] theorem State.drawn_records (s : State) : (s.drawn).records = s.records := rfl
@[simp] theorem State.drawn_detached (s : State) : (s.drawn).detached = s.detached := rfl
@[simp] theorem State.drawn_samples (s : State) : (s.drawn).samples = s.samples := rfl
@[simp] theorem State.drawn_link (s : State) : (s.drawn).link = s.link := rfl
@[simp] theorem State.drawn_health (s : State) : (s.drawn).health = s.health := rfl
@[simp] theorem State.drawn_spoilt (s : State) : (s.drawn).spoilt = s.spoilt := rfl

@[simp] theorem State.putA_clk (s : State) (clus a n : Nat) (f : Nat → Byte) : (s.putA clus a n f).clk = s.clk := rfl
@[simp] theorem State.putA_agenda (s : State) (clus a n : Nat) (f : Nat → Byte) : (s.putA clus a n f).agenda = s.agenda := rfl
@[simp] theorem State.putA_draw (s : State) (clus a n : Nat) (f : Nat → Byte) : (s.putA clus a n f).draw = s.draw := rfl
@[simp] theorem State.putA_cur (s : State) (clus a n : Nat) (f : Nat → Byte) : (s.putA clus a n f).cur = s.cur := rfl
@[simp] theorem State.putA_mem (s : State) (clus a n : Nat) (f : Nat → Byte) : (s.putA clus a n f).mem = s.mem := rfl
@[simp] theorem State.putA_waves (s : State) (clus a n : Nat) (f : Nat → Byte) : (s.putA clus a n f).waves = s.waves := rfl
@[simp] theorem State.putA_seqs (s : State) (clus a n : Nat) (f : Nat → Byte) : (s.putA clus a n f).seqs = s.seqs := rfl
@[simp] theorem State.putA_crews (s : State) (clus a n : Nat) (f : Nat → Byte) : (s.putA clus a n f).crews = s.crews := rfl
@[simp] theorem State.putA_launches (s : State) (clus a n : Nat) (f : Nat → Byte) : (s.putA clus a n f).launches = s.launches := rfl
@[simp] theorem State.putA_ctxs (s : State) (clus a n : Nat) (f : Nat → Byte) : (s.putA clus a n f).ctxs = s.ctxs := rfl
@[simp] theorem State.putA_queues (s : State) (clus a n : Nat) (f : Nat → Byte) : (s.putA clus a n f).queues = s.queues := rfl
@[simp] theorem State.putA_copies (s : State) (clus a n : Nat) (f : Nat → Byte) : (s.putA clus a n f).copies = s.copies := rfl
@[simp] theorem State.putA_records (s : State) (clus a n : Nat) (f : Nat → Byte) : (s.putA clus a n f).records = s.records := rfl
@[simp] theorem State.putA_detached (s : State) (clus a n : Nat) (f : Nat → Byte) : (s.putA clus a n f).detached = s.detached := rfl
@[simp] theorem State.putA_samples (s : State) (clus a n : Nat) (f : Nat → Byte) : (s.putA clus a n f).samples = s.samples := rfl
@[simp] theorem State.putA_link (s : State) (clus a n : Nat) (f : Nat → Byte) : (s.putA clus a n f).link = s.link := rfl
@[simp] theorem State.putA_health (s : State) (clus a n : Nat) (f : Nat → Byte) : (s.putA clus a n f).health = s.health := rfl
@[simp] theorem State.putA_spoilt (s : State) (clus a n : Nat) (f : Nat → Byte) : (s.putA clus a n f).spoilt = s.spoilt := rfl

@[simp] theorem State.invalidateWords_clk (s : State) (lo n : Nat) (x : Option (Nat × Nat)) : (s.invalidateWords lo n x).clk = s.clk := rfl
@[simp] theorem State.invalidateWords_agenda (s : State) (lo n : Nat) (x : Option (Nat × Nat)) : (s.invalidateWords lo n x).agenda = s.agenda := rfl
@[simp] theorem State.invalidateWords_draw (s : State) (lo n : Nat) (x : Option (Nat × Nat)) : (s.invalidateWords lo n x).draw = s.draw := rfl
@[simp] theorem State.invalidateWords_cur (s : State) (lo n : Nat) (x : Option (Nat × Nat)) : (s.invalidateWords lo n x).cur = s.cur := rfl
@[simp] theorem State.invalidateWords_mem (s : State) (lo n : Nat) (x : Option (Nat × Nat)) : (s.invalidateWords lo n x).mem = s.mem := rfl
@[simp] theorem State.invalidateWords_stores (s : State) (lo n : Nat) (x : Option (Nat × Nat)) : (s.invalidateWords lo n x).stores = s.stores := rfl
@[simp] theorem State.invalidateWords_waves (s : State) (lo n : Nat) (x : Option (Nat × Nat)) : (s.invalidateWords lo n x).waves = s.waves := rfl
@[simp] theorem State.invalidateWords_seqs (s : State) (lo n : Nat) (x : Option (Nat × Nat)) : (s.invalidateWords lo n x).seqs = s.seqs := rfl
@[simp] theorem State.invalidateWords_launches (s : State) (lo n : Nat) (x : Option (Nat × Nat)) : (s.invalidateWords lo n x).launches = s.launches := rfl
@[simp] theorem State.invalidateWords_ctxs (s : State) (lo n : Nat) (x : Option (Nat × Nat)) : (s.invalidateWords lo n x).ctxs = s.ctxs := rfl
@[simp] theorem State.invalidateWords_queues (s : State) (lo n : Nat) (x : Option (Nat × Nat)) : (s.invalidateWords lo n x).queues = s.queues := rfl
@[simp] theorem State.invalidateWords_copies (s : State) (lo n : Nat) (x : Option (Nat × Nat)) : (s.invalidateWords lo n x).copies = s.copies := rfl
@[simp] theorem State.invalidateWords_records (s : State) (lo n : Nat) (x : Option (Nat × Nat)) : (s.invalidateWords lo n x).records = s.records := rfl
@[simp] theorem State.invalidateWords_detached (s : State) (lo n : Nat) (x : Option (Nat × Nat)) : (s.invalidateWords lo n x).detached = s.detached := rfl
@[simp] theorem State.invalidateWords_samples (s : State) (lo n : Nat) (x : Option (Nat × Nat)) : (s.invalidateWords lo n x).samples = s.samples := rfl
@[simp] theorem State.invalidateWords_link (s : State) (lo n : Nat) (x : Option (Nat × Nat)) : (s.invalidateWords lo n x).link = s.link := rfl
@[simp] theorem State.invalidateWords_health (s : State) (lo n : Nat) (x : Option (Nat × Nat)) : (s.invalidateWords lo n x).health = s.health := rfl
@[simp] theorem State.invalidateWords_spoilt (s : State) (lo n : Nat) (x : Option (Nat × Nat)) : (s.invalidateWords lo n x).spoilt = s.spoilt := rfl

@[simp] theorem State.setHealth_clk (s : State) (f : Health → Health) : (s.setHealth f).clk = s.clk := rfl
@[simp] theorem State.setHealth_agenda (s : State) (f : Health → Health) : (s.setHealth f).agenda = s.agenda := rfl
@[simp] theorem State.setHealth_draw (s : State) (f : Health → Health) : (s.setHealth f).draw = s.draw := rfl
@[simp] theorem State.setHealth_cur (s : State) (f : Health → Health) : (s.setHealth f).cur = s.cur := rfl
@[simp] theorem State.setHealth_mem (s : State) (f : Health → Health) : (s.setHealth f).mem = s.mem := rfl
@[simp] theorem State.setHealth_stores (s : State) (f : Health → Health) : (s.setHealth f).stores = s.stores := rfl
@[simp] theorem State.setHealth_waves (s : State) (f : Health → Health) : (s.setHealth f).waves = s.waves := rfl
@[simp] theorem State.setHealth_seqs (s : State) (f : Health → Health) : (s.setHealth f).seqs = s.seqs := rfl
@[simp] theorem State.setHealth_crews (s : State) (f : Health → Health) : (s.setHealth f).crews = s.crews := rfl
@[simp] theorem State.setHealth_launches (s : State) (f : Health → Health) : (s.setHealth f).launches = s.launches := rfl
@[simp] theorem State.setHealth_ctxs (s : State) (f : Health → Health) : (s.setHealth f).ctxs = s.ctxs := rfl
@[simp] theorem State.setHealth_queues (s : State) (f : Health → Health) : (s.setHealth f).queues = s.queues := rfl
@[simp] theorem State.setHealth_copies (s : State) (f : Health → Health) : (s.setHealth f).copies = s.copies := rfl
@[simp] theorem State.setHealth_records (s : State) (f : Health → Health) : (s.setHealth f).records = s.records := rfl
@[simp] theorem State.setHealth_detached (s : State) (f : Health → Health) : (s.setHealth f).detached = s.detached := rfl
@[simp] theorem State.setHealth_samples (s : State) (f : Health → Health) : (s.setHealth f).samples = s.samples := rfl
@[simp] theorem State.setHealth_link (s : State) (f : Health → Health) : (s.setHealth f).link = s.link := rfl
@[simp] theorem State.setHealth_spoilt (s : State) (f : Health → Health) : (s.setHealth f).spoilt = s.spoilt := rfl

@[simp] theorem State.setQueue_clk (s : State) (c q : Nat) (f : Queue → Queue) : (s.setQueue c q f).clk = s.clk := rfl
@[simp] theorem State.setQueue_agenda (s : State) (c q : Nat) (f : Queue → Queue) : (s.setQueue c q f).agenda = s.agenda := rfl
@[simp] theorem State.setQueue_draw (s : State) (c q : Nat) (f : Queue → Queue) : (s.setQueue c q f).draw = s.draw := rfl
@[simp] theorem State.setQueue_cur (s : State) (c q : Nat) (f : Queue → Queue) : (s.setQueue c q f).cur = s.cur := rfl
@[simp] theorem State.setQueue_mem (s : State) (c q : Nat) (f : Queue → Queue) : (s.setQueue c q f).mem = s.mem := rfl
@[simp] theorem State.setQueue_stores (s : State) (c q : Nat) (f : Queue → Queue) : (s.setQueue c q f).stores = s.stores := rfl
@[simp] theorem State.setQueue_waves (s : State) (c q : Nat) (f : Queue → Queue) : (s.setQueue c q f).waves = s.waves := rfl
@[simp] theorem State.setQueue_seqs (s : State) (c q : Nat) (f : Queue → Queue) : (s.setQueue c q f).seqs = s.seqs := rfl
@[simp] theorem State.setQueue_crews (s : State) (c q : Nat) (f : Queue → Queue) : (s.setQueue c q f).crews = s.crews := rfl
@[simp] theorem State.setQueue_launches (s : State) (c q : Nat) (f : Queue → Queue) : (s.setQueue c q f).launches = s.launches := rfl
@[simp] theorem State.setQueue_ctxs (s : State) (c q : Nat) (f : Queue → Queue) : (s.setQueue c q f).ctxs = s.ctxs := rfl
@[simp] theorem State.setQueue_copies (s : State) (c q : Nat) (f : Queue → Queue) : (s.setQueue c q f).copies = s.copies := rfl
@[simp] theorem State.setQueue_records (s : State) (c q : Nat) (f : Queue → Queue) : (s.setQueue c q f).records = s.records := rfl
@[simp] theorem State.setQueue_detached (s : State) (c q : Nat) (f : Queue → Queue) : (s.setQueue c q f).detached = s.detached := rfl
@[simp] theorem State.setQueue_samples (s : State) (c q : Nat) (f : Queue → Queue) : (s.setQueue c q f).samples = s.samples := rfl
@[simp] theorem State.setQueue_link (s : State) (c q : Nat) (f : Queue → Queue) : (s.setQueue c q f).link = s.link := rfl
@[simp] theorem State.setQueue_health (s : State) (c q : Nat) (f : Queue → Queue) : (s.setQueue c q f).health = s.health := rfl
@[simp] theorem State.setQueue_spoilt (s : State) (c q : Nat) (f : Queue → Queue) : (s.setQueue c q f).spoilt = s.spoilt := rfl

@[simp] theorem State.setQp_clk (s : State) (k : Nat) (f : Qp → Qp) : (s.setQp k f).clk = s.clk := rfl
@[simp] theorem State.setQp_agenda (s : State) (k : Nat) (f : Qp → Qp) : (s.setQp k f).agenda = s.agenda := rfl
@[simp] theorem State.setQp_draw (s : State) (k : Nat) (f : Qp → Qp) : (s.setQp k f).draw = s.draw := rfl
@[simp] theorem State.setQp_cur (s : State) (k : Nat) (f : Qp → Qp) : (s.setQp k f).cur = s.cur := rfl
@[simp] theorem State.setQp_mem (s : State) (k : Nat) (f : Qp → Qp) : (s.setQp k f).mem = s.mem := rfl
@[simp] theorem State.setQp_stores (s : State) (k : Nat) (f : Qp → Qp) : (s.setQp k f).stores = s.stores := rfl
@[simp] theorem State.setQp_waves (s : State) (k : Nat) (f : Qp → Qp) : (s.setQp k f).waves = s.waves := rfl
@[simp] theorem State.setQp_seqs (s : State) (k : Nat) (f : Qp → Qp) : (s.setQp k f).seqs = s.seqs := rfl
@[simp] theorem State.setQp_crews (s : State) (k : Nat) (f : Qp → Qp) : (s.setQp k f).crews = s.crews := rfl
@[simp] theorem State.setQp_launches (s : State) (k : Nat) (f : Qp → Qp) : (s.setQp k f).launches = s.launches := rfl
@[simp] theorem State.setQp_ctxs (s : State) (k : Nat) (f : Qp → Qp) : (s.setQp k f).ctxs = s.ctxs := rfl
@[simp] theorem State.setQp_queues (s : State) (k : Nat) (f : Qp → Qp) : (s.setQp k f).queues = s.queues := rfl
@[simp] theorem State.setQp_copies (s : State) (k : Nat) (f : Qp → Qp) : (s.setQp k f).copies = s.copies := rfl
@[simp] theorem State.setQp_records (s : State) (k : Nat) (f : Qp → Qp) : (s.setQp k f).records = s.records := rfl
@[simp] theorem State.setQp_detached (s : State) (k : Nat) (f : Qp → Qp) : (s.setQp k f).detached = s.detached := rfl
@[simp] theorem State.setQp_samples (s : State) (k : Nat) (f : Qp → Qp) : (s.setQp k f).samples = s.samples := rfl
@[simp] theorem State.setQp_health (s : State) (k : Nat) (f : Qp → Qp) : (s.setQp k f).health = s.health := rfl
@[simp] theorem State.setQp_spoilt (s : State) (k : Nat) (f : Qp → Qp) : (s.setQp k f).spoilt = s.spoilt := rfl

@[simp] theorem State.count_clk (s : State) (e k : Nat) : (s.count e k).clk = s.clk := rfl
@[simp] theorem State.count_agenda (s : State) (e k : Nat) : (s.count e k).agenda = s.agenda := rfl
@[simp] theorem State.count_draw (s : State) (e k : Nat) : (s.count e k).draw = s.draw := rfl
@[simp] theorem State.count_cur (s : State) (e k : Nat) : (s.count e k).cur = s.cur := rfl
@[simp] theorem State.count_mem (s : State) (e k : Nat) : (s.count e k).mem = s.mem := rfl
@[simp] theorem State.count_stores (s : State) (e k : Nat) : (s.count e k).stores = s.stores := rfl
@[simp] theorem State.count_waves (s : State) (e k : Nat) : (s.count e k).waves = s.waves := rfl
@[simp] theorem State.count_seqs (s : State) (e k : Nat) : (s.count e k).seqs = s.seqs := rfl
@[simp] theorem State.count_crews (s : State) (e k : Nat) : (s.count e k).crews = s.crews := rfl
@[simp] theorem State.count_launches (s : State) (e k : Nat) : (s.count e k).launches = s.launches := rfl
@[simp] theorem State.count_ctxs (s : State) (e k : Nat) : (s.count e k).ctxs = s.ctxs := rfl
@[simp] theorem State.count_queues (s : State) (e k : Nat) : (s.count e k).queues = s.queues := rfl
@[simp] theorem State.count_copies (s : State) (e k : Nat) : (s.count e k).copies = s.copies := rfl
@[simp] theorem State.count_records (s : State) (e k : Nat) : (s.count e k).records = s.records := rfl
@[simp] theorem State.count_detached (s : State) (e k : Nat) : (s.count e k).detached = s.detached := rfl
@[simp] theorem State.count_samples (s : State) (e k : Nat) : (s.count e k).samples = s.samples := rfl
@[simp] theorem State.count_link (s : State) (e k : Nat) : (s.count e k).link = s.link := rfl
@[simp] theorem State.count_spoilt (s : State) (e k : Nat) : (s.count e k).spoilt = s.spoilt := rfl

@[simp] theorem State.putWave_get (s : State) (k : Nat) (w : Wave) : (s.putWave k w).waves.get? k = some w := by
  simp [State.putWave]
@[simp] theorem State.setMem_mem (s : State) (m : MemSys) : (s.setMem m).mem = m := rfl
@[simp] theorem State.drawn_draw (s : State) : s.drawn.draw = s.draw + 1 := rfl
@[simp] theorem State.setHealth_health (s : State) (f : Health → Health) : (s.setHealth f).health = f s.health := rfl

@[simp] theorem Wave.setFrag_core (w : Wave) (b : Bool) (f : Option Fragment) : (w.setFrag b f).core = w.core := by cases b <;> rfl
@[simp] theorem Wave.setFrag_slot (w : Wave) (b : Bool) (f : Option Fragment) : (w.setFrag b f).slot = w.slot := by cases b <;> rfl
@[simp] theorem Wave.setFrag_crew (w : Wave) (b : Bool) (f : Option Fragment) : (w.setFrag b f).crew = w.crew := by cases b <;> rfl
@[simp] theorem Wave.setFrag_wid (w : Wave) (b : Bool) (f : Option Fragment) : (w.setFrag b f).wid = w.wid := by cases b <;> rfl
@[simp] theorem Wave.setFrag_status (w : Wave) (b : Bool) (f : Option Fragment) : (w.setFrag b f).status = w.status := by cases b <;> rfl
@[simp] theorem Wave.setFrag_gran (w : Wave) (b : Bool) (f : Option Fragment) : (w.setFrag b f).gran = w.gran := by cases b <;> rfl
@[simp] theorem Wave.setFrag_s (w : Wave) (b : Bool) (f : Option Fragment) : (w.setFrag b f).s = w.s := by cases b <;> rfl
@[simp] theorem Wave.setFrag_v (w : Wave) (b : Bool) (f : Option Fragment) : (w.setFrag b f).v = w.v := by cases b <;> rfl
@[simp] theorem Wave.setFrag_p (w : Wave) (b : Bool) (f : Option Fragment) : (w.setFrag b f).p = w.p := by cases b <;> rfl
@[simp] theorem Wave.setFrag_mode (w : Wave) (b : Bool) (f : Option Fragment) : (w.setFrag b f).mode = w.mode := by cases b <;> rfl
@[simp] theorem Wave.setFrag_flags (w : Wave) (b : Bool) (f : Option Fragment) : (w.setFrag b f).flags = w.flags := by cases b <;> rfl
@[simp] theorem Wave.setFrag_stack (w : Wave) (b : Bool) (f : Option Fragment) : (w.setFrag b f).stack = w.stack := by cases b <;> rfl
@[simp] theorem Wave.setFrag_budget (w : Wave) (b : Bool) (f : Option Fragment) : (w.setFrag b f).budget = w.budget := by cases b <;> rfl
@[simp] theorem Wave.setFrag_openB (w : Wave) (b : Bool) (f : Option Fragment) : (w.setFrag b f).openB = w.openB := by cases b <;> rfl
@[simp] theorem Wave.setFrag_lastB (w : Wave) (b : Bool) (f : Option Fragment) : (w.setFrag b f).lastB = w.lastB := by cases b <;> rfl
@[simp] theorem Wave.setFrag_level (w : Wave) (b : Bool) (f : Option Fragment) : (w.setFrag b f).level = w.level := by cases b <;> rfl
@[simp] theorem Wave.setFrag_st0 (w : Wave) (b : Bool) (f : Option Fragment) : (w.setFrag b f).st0 = w.st0 := by cases b <;> rfl
@[simp] theorem Wave.setFrag_st1 (w : Wave) (b : Bool) (f : Option Fragment) : (w.setFrag b f).st1 = w.st1 := by cases b <;> rfl
@[simp] theorem Wave.setFrag_st2 (w : Wave) (b : Bool) (f : Option Fragment) : (w.setFrag b f).st2 = w.st2 := by cases b <;> rfl
@[simp] theorem Wave.setFrag_opbuf (w : Wave) (b : Bool) (f : Option Fragment) : (w.setFrag b f).opbuf = w.opbuf := by cases b <;> rfl
@[simp] theorem Wave.setFrag_save (w : Wave) (b : Bool) (f : Option Fragment) : (w.setFrag b f).save = w.save := by cases b <;> rfl
@[simp] theorem Wave.setFrag_bad (w : Wave) (b : Bool) (f : Option Fragment) : (w.setFrag b f).bad = w.bad := by cases b <;> rfl
@[simp] theorem Wave.setFrag_retry (w : Wave) (b : Bool) (f : Option Fragment) : (w.setFrag b f).retry = w.retry := by cases b <;> rfl
@[simp] theorem Wave.setFrag_watch (w : Wave) (b : Bool) (f : Option Fragment) : (w.setFrag b f).watch = w.watch := by cases b <;> rfl
@[simp] theorem Wave.setFrag_watchId (w : Wave) (b : Bool) (f : Option Fragment) : (w.setFrag b f).watchId = w.watchId := by cases b <;> rfl
@[simp] theorem Wave.setFrag_issuedB (w : Wave) (b : Bool) (f : Option Fragment) : (w.setFrag b f).issuedB = w.issuedB := by cases b <;> rfl
@[simp] theorem Wave.setFrag_sealTag (w : Wave) (b : Bool) (f : Option Fragment) : (w.setFrag b f).sealTag = w.sealTag := by cases b <;> rfl
@[simp] theorem Wave.setFrag_clear (w : Wave) (b : Bool) (f : Option Fragment) : (w.setFrag b f).clear = w.clear := by cases b <;> rfl
@[simp] theorem Wave.setFrag_ready (w : Wave) (b : Bool) (f : Option Fragment) : (w.setFrag b f).ready = w.ready := by cases b <;> rfl
@[simp] theorem Wave.setFrag_mend (w : Wave) (b : Bool) (f : Option Fragment) : (w.setFrag b f).mend = w.mend := by cases b <;> rfl

@[simp] theorem Wave.writeV_core (w : Wave) (r : Nat) (m : Lanes) (f : Nat → W32) : (w.writeV r m f).core = w.core := by rfl
@[simp] theorem Wave.writeV_slot (w : Wave) (r : Nat) (m : Lanes) (f : Nat → W32) : (w.writeV r m f).slot = w.slot := by rfl
@[simp] theorem Wave.writeV_crew (w : Wave) (r : Nat) (m : Lanes) (f : Nat → W32) : (w.writeV r m f).crew = w.crew := by rfl
@[simp] theorem Wave.writeV_wid (w : Wave) (r : Nat) (m : Lanes) (f : Nat → W32) : (w.writeV r m f).wid = w.wid := by rfl
@[simp] theorem Wave.writeV_status (w : Wave) (r : Nat) (m : Lanes) (f : Nat → W32) : (w.writeV r m f).status = w.status := by rfl
@[simp] theorem Wave.writeV_gran (w : Wave) (r : Nat) (m : Lanes) (f : Nat → W32) : (w.writeV r m f).gran = w.gran := by rfl
@[simp] theorem Wave.writeV_s (w : Wave) (r : Nat) (m : Lanes) (f : Nat → W32) : (w.writeV r m f).s = w.s := by rfl
@[simp] theorem Wave.writeV_p (w : Wave) (r : Nat) (m : Lanes) (f : Nat → W32) : (w.writeV r m f).p = w.p := by rfl
@[simp] theorem Wave.writeV_mode (w : Wave) (r : Nat) (m : Lanes) (f : Nat → W32) : (w.writeV r m f).mode = w.mode := by rfl
@[simp] theorem Wave.writeV_flags (w : Wave) (r : Nat) (m : Lanes) (f : Nat → W32) : (w.writeV r m f).flags = w.flags := by rfl
@[simp] theorem Wave.writeV_stack (w : Wave) (r : Nat) (m : Lanes) (f : Nat → W32) : (w.writeV r m f).stack = w.stack := by rfl
@[simp] theorem Wave.writeV_budget (w : Wave) (r : Nat) (m : Lanes) (f : Nat → W32) : (w.writeV r m f).budget = w.budget := by rfl
@[simp] theorem Wave.writeV_openB (w : Wave) (r : Nat) (m : Lanes) (f : Nat → W32) : (w.writeV r m f).openB = w.openB := by rfl
@[simp] theorem Wave.writeV_lastB (w : Wave) (r : Nat) (m : Lanes) (f : Nat → W32) : (w.writeV r m f).lastB = w.lastB := by rfl
@[simp] theorem Wave.writeV_level (w : Wave) (r : Nat) (m : Lanes) (f : Nat → W32) : (w.writeV r m f).level = w.level := by rfl
@[simp] theorem Wave.writeV_st0 (w : Wave) (r : Nat) (m : Lanes) (f : Nat → W32) : (w.writeV r m f).st0 = w.st0 := by rfl
@[simp] theorem Wave.writeV_st1 (w : Wave) (r : Nat) (m : Lanes) (f : Nat → W32) : (w.writeV r m f).st1 = w.st1 := by rfl
@[simp] theorem Wave.writeV_st2 (w : Wave) (r : Nat) (m : Lanes) (f : Nat → W32) : (w.writeV r m f).st2 = w.st2 := by rfl
@[simp] theorem Wave.writeV_opbuf (w : Wave) (r : Nat) (m : Lanes) (f : Nat → W32) : (w.writeV r m f).opbuf = w.opbuf := by rfl
@[simp] theorem Wave.writeV_save (w : Wave) (r : Nat) (m : Lanes) (f : Nat → W32) : (w.writeV r m f).save = w.save := by rfl
@[simp] theorem Wave.writeV_retry (w : Wave) (r : Nat) (m : Lanes) (f : Nat → W32) : (w.writeV r m f).retry = w.retry := by rfl
@[simp] theorem Wave.writeV_watch (w : Wave) (r : Nat) (m : Lanes) (f : Nat → W32) : (w.writeV r m f).watch = w.watch := by rfl
@[simp] theorem Wave.writeV_watchId (w : Wave) (r : Nat) (m : Lanes) (f : Nat → W32) : (w.writeV r m f).watchId = w.watchId := by rfl
@[simp] theorem Wave.writeV_issuedB (w : Wave) (r : Nat) (m : Lanes) (f : Nat → W32) : (w.writeV r m f).issuedB = w.issuedB := by rfl
@[simp] theorem Wave.writeV_sealTag (w : Wave) (r : Nat) (m : Lanes) (f : Nat → W32) : (w.writeV r m f).sealTag = w.sealTag := by rfl
@[simp] theorem Wave.writeV_clear (w : Wave) (r : Nat) (m : Lanes) (f : Nat → W32) : (w.writeV r m f).clear = w.clear := by rfl
@[simp] theorem Wave.writeV_ready (w : Wave) (r : Nat) (m : Lanes) (f : Nat → W32) : (w.writeV r m f).ready = w.ready := by rfl
@[simp] theorem Wave.writeV_mend (w : Wave) (r : Nat) (m : Lanes) (f : Nat → W32) : (w.writeV r m f).mend = w.mend := by rfl

@[simp] theorem Wave.writeP_core (w : Wave) (r : Nat) (m x : Lanes) : (w.writeP r m x).core = w.core := by unfold Wave.writeP; split <;> rfl
@[simp] theorem Wave.writeP_slot (w : Wave) (r : Nat) (m x : Lanes) : (w.writeP r m x).slot = w.slot := by unfold Wave.writeP; split <;> rfl
@[simp] theorem Wave.writeP_crew (w : Wave) (r : Nat) (m x : Lanes) : (w.writeP r m x).crew = w.crew := by unfold Wave.writeP; split <;> rfl
@[simp] theorem Wave.writeP_wid (w : Wave) (r : Nat) (m x : Lanes) : (w.writeP r m x).wid = w.wid := by unfold Wave.writeP; split <;> rfl
@[simp] theorem Wave.writeP_status (w : Wave) (r : Nat) (m x : Lanes) : (w.writeP r m x).status = w.status := by unfold Wave.writeP; split <;> rfl
@[simp] theorem Wave.writeP_gran (w : Wave) (r : Nat) (m x : Lanes) : (w.writeP r m x).gran = w.gran := by unfold Wave.writeP; split <;> rfl
@[simp] theorem Wave.writeP_s (w : Wave) (r : Nat) (m x : Lanes) : (w.writeP r m x).s = w.s := by unfold Wave.writeP; split <;> rfl
@[simp] theorem Wave.writeP_v (w : Wave) (r : Nat) (m x : Lanes) : (w.writeP r m x).v = w.v := by unfold Wave.writeP; split <;> rfl
@[simp] theorem Wave.writeP_mode (w : Wave) (r : Nat) (m x : Lanes) : (w.writeP r m x).mode = w.mode := by unfold Wave.writeP; split <;> rfl
@[simp] theorem Wave.writeP_flags (w : Wave) (r : Nat) (m x : Lanes) : (w.writeP r m x).flags = w.flags := by unfold Wave.writeP; split <;> rfl
@[simp] theorem Wave.writeP_stack (w : Wave) (r : Nat) (m x : Lanes) : (w.writeP r m x).stack = w.stack := by unfold Wave.writeP; split <;> rfl
@[simp] theorem Wave.writeP_budget (w : Wave) (r : Nat) (m x : Lanes) : (w.writeP r m x).budget = w.budget := by unfold Wave.writeP; split <;> rfl
@[simp] theorem Wave.writeP_openB (w : Wave) (r : Nat) (m x : Lanes) : (w.writeP r m x).openB = w.openB := by unfold Wave.writeP; split <;> rfl
@[simp] theorem Wave.writeP_lastB (w : Wave) (r : Nat) (m x : Lanes) : (w.writeP r m x).lastB = w.lastB := by unfold Wave.writeP; split <;> rfl
@[simp] theorem Wave.writeP_level (w : Wave) (r : Nat) (m x : Lanes) : (w.writeP r m x).level = w.level := by unfold Wave.writeP; split <;> rfl
@[simp] theorem Wave.writeP_st0 (w : Wave) (r : Nat) (m x : Lanes) : (w.writeP r m x).st0 = w.st0 := by unfold Wave.writeP; split <;> rfl
@[simp] theorem Wave.writeP_st1 (w : Wave) (r : Nat) (m x : Lanes) : (w.writeP r m x).st1 = w.st1 := by unfold Wave.writeP; split <;> rfl
@[simp] theorem Wave.writeP_st2 (w : Wave) (r : Nat) (m x : Lanes) : (w.writeP r m x).st2 = w.st2 := by unfold Wave.writeP; split <;> rfl
@[simp] theorem Wave.writeP_opbuf (w : Wave) (r : Nat) (m x : Lanes) : (w.writeP r m x).opbuf = w.opbuf := by unfold Wave.writeP; split <;> rfl
@[simp] theorem Wave.writeP_save (w : Wave) (r : Nat) (m x : Lanes) : (w.writeP r m x).save = w.save := by unfold Wave.writeP; split <;> rfl
@[simp] theorem Wave.writeP_retry (w : Wave) (r : Nat) (m x : Lanes) : (w.writeP r m x).retry = w.retry := by unfold Wave.writeP; split <;> rfl
@[simp] theorem Wave.writeP_watch (w : Wave) (r : Nat) (m x : Lanes) : (w.writeP r m x).watch = w.watch := by unfold Wave.writeP; split <;> rfl
@[simp] theorem Wave.writeP_watchId (w : Wave) (r : Nat) (m x : Lanes) : (w.writeP r m x).watchId = w.watchId := by unfold Wave.writeP; split <;> rfl
@[simp] theorem Wave.writeP_issuedB (w : Wave) (r : Nat) (m x : Lanes) : (w.writeP r m x).issuedB = w.issuedB := by unfold Wave.writeP; split <;> rfl
@[simp] theorem Wave.writeP_sealTag (w : Wave) (r : Nat) (m x : Lanes) : (w.writeP r m x).sealTag = w.sealTag := by unfold Wave.writeP; split <;> rfl
@[simp] theorem Wave.writeP_clear (w : Wave) (r : Nat) (m x : Lanes) : (w.writeP r m x).clear = w.clear := by unfold Wave.writeP; split <;> rfl
@[simp] theorem Wave.writeP_ready (w : Wave) (r : Nat) (m x : Lanes) : (w.writeP r m x).ready = w.ready := by unfold Wave.writeP; split <;> rfl
@[simp] theorem Wave.writeP_mend (w : Wave) (r : Nat) (m x : Lanes) : (w.writeP r m x).mend = w.mend := by unfold Wave.writeP; split <;> rfl

end Sys2Proof.Machine
end

