-- ==== Sys2Proof/Laws/Wave.lean ====
section
/-!
SUPPORT. Registers of a wave: what a read gives after a write.
-/
namespace Sys2Proof.Machine

theorem Wave.readV_writeV (w : Wave) (r : Nat) (m : Lanes) (f : Nat → W32) (r' l : Nat) (hl : l < 96) :
    (w.writeV r m f).readV r' l = if r' = r ∧ m.getLsbD l then f l else w.readV r' l := by
  simp only [Wave.readV, Wave.writeV, Cells.read_update]
  by_cases h : r' = r
  · subst h
    have h1 : 96 * r' ≤ 96 * r' + l ∧ 96 * r' + l < 96 * r' + 96 := by omega
    have h2 : 96 * r' + l - 96 * r' = l := by omega
    simp only [h1, and_self, if_true, h2, true_and]
  · have h1 : ¬ (96 * r ≤ 96 * r' + l ∧ 96 * r' + l < 96 * r + 96) := by omega
    simp [h1, h]

@[simp] theorem Wave.readV_writeS (w : Wave) (side : Bool) (r : Nat) (v : W64) (r' l : Nat) :
    (w.writeS side r v).readV r' l = w.readV r' l := by
  simp only [Wave.readV, Wave.writeS]
  split
  · rfl
  · split
    · split
      · simp only [Wave.setFrag]; split <;> rfl
      · rfl
    · rfl

@[simp] theorem Wave.readV_writeP (w : Wave) (p : Nat) (m v : Lanes) (r l : Nat) :
    (w.writeP p m v).readV r l = w.readV r l := by
  simp only [Wave.readV, Wave.writeP]
  split <;> rfl

theorem Wave.readP_writeP (w : Wave) (p : Nat) (m v : Lanes) (p' : Nat) :
    (w.writeP p m v).readP p' =
      if p' = p ∧ p ≠ 15 then (w.readP p &&& ~~~m) ||| (v &&& m) else w.readP p' := by
  simp only [Wave.readP, Wave.writeP]
  by_cases h : p = 15
  · simp [h]
  · by_cases h' : p' = p
    · subst h'; simp [h]
    · by_cases h'' : p' = 15
      · subst h''; simp [h, Ne.symm h]
      · simp [h, h', h'']

@[simp] theorem Wave.readP_writeV (w : Wave) (r : Nat) (m : Lanes) (f : Nat → W32) (p : Nat) :
    (w.writeV r m f).readP p = w.readP p := rfl

@[simp] theorem Wave.p_writeS (w : Wave) (side : Bool) (r : Nat) (v : W64) : (w.writeS side r v).p = w.p := by
  simp only [Wave.writeS]
  split
  · rfl
  · split
    · split
      · simp only [Wave.setFrag]; split <;> rfl
      · rfl
    · rfl

@[simp] theorem Wave.readP_writeS (w : Wave) (side : Bool) (r : Nat) (v : W64) (p : Nat) :
    (w.writeS side r v).readP p = w.readP p := by simp [Wave.readP]

/-- R61: a scalar register after a write; s63 is never written. -/
theorem Wave.s_writeS (w : Wave) (side : Bool) (r : Nat) (v : W64) (r' : Nat) (h : r' < 60) :
    (w.writeS side r v).s.read r' = if r' = r then v else w.s.read r' := by
  simp only [Wave.writeS]
  split
  · simp
  · rw [if_neg (by omega : ¬ r' = r)]
    split
    · split
      · simp only [Wave.setFrag]; split <;> rfl
      · rfl
    · rfl

/-- The registers of a wave a predicate's or a vector's write leaves: everything but them. -/
theorem Wave.writeV_eq (w : Wave) (r : Nat) (m : Lanes) (f : Nat → W32) :
    w.writeV r m f = { w with v := (w.writeV r m f).v, bad := (w.writeV r m f).bad } := rfl

theorem beatMask_bit (i l : Nat) (hi : i < 3) (hl : l < 96) : (beatMask i).getLsbD l = decide (l / 32 = i) := by
  unfold beatMask
  interval_cases i <;> interval_cases l <;> rfl

theorem Wave.readS_writeS (w : Wave) (side : Bool) (r : Nat) (v : W64) (f : Fragment) (h : w.frag side = some f) :
    (w.writeS side r v).readS side r =
      if r < 60 then v
      else if r < 63 then v &&& ((f.owned.extractLsb' (32 * (r - 60)) 32).setWidth 64)
      else 0 := by
  by_cases h60 : r < 60
  · simp [Wave.readS, Wave.writeS, h60]
  · by_cases h63 : r < 63
    · have e : (w.writeS side r v).frag side = some (f.setEm (r - 60) v) := by
        simp only [Wave.writeS, h60, h63, if_true, if_false, h]
        cases side <;> rfl
      simp only [Wave.readS, h60, h63, if_true, if_false, e]
      obtain ⟨i, hi, rfl⟩ : ∃ i, i < 3 ∧ r = 60 + i := ⟨r - 60, by omega, by omega⟩
      ext l hl
      by_cases h32 : l < 32
      · have h96 : 32 * i + l < 96 := by omega
        have hb := beatMask_bit i (32 * i + l) hi h96
        rw [decide_eq_true (by omega : (32 * i + l) / 32 = i)] at hb
        have hl96 : l < 96 := by omega
        simp only [Fragment.setEm, Nat.add_sub_cancel_left, BitVec.getElem_setWidth, BitVec.getLsbD_extractLsb',
          BitVec.getLsbD_or, BitVec.getLsbD_and, BitVec.getLsbD_not, hb, BitVec.getLsbD_shiftLeft, BitVec.getElem_and,
          BitVec.getLsbD_setWidth]
        simp [h32, h96, hl96, hl]
      · simp [h32]
    · simp [Wave.readS, h60, h63]

/-- A number written digit by digit in base `b`. -/
theorem digits_foldr (b : Nat) (d : Nat → Nat) (c : Nat) : ∀ l : List Nat,
    l.foldr (fun j n => d j * b ^ j + n) c = l.foldr (fun j n => d j * b ^ j + n) 0 + c
  | [] => by simp
  | j :: l => by simp [digits_foldr b d c l, Nat.add_assoc]

theorem digits_lt (b : Nat) (d : Nat → Nat) (hd : ∀ j, d j < b) : ∀ n,
    (List.range n).foldr (fun j n => d j * b ^ j + n) 0 < b ^ n
  | 0 => by simp
  | n + 1 => by
    rw [List.range_succ, List.foldr_append, digits_foldr]
    have h := digits_lt b d hd n
    have h2 : d n * b ^ n + b ^ n ≤ b ^ (n + 1) := by
      rw [pow_succ, ← Nat.succ_mul, Nat.mul_comm (b ^ n) b]
      exact Nat.mul_le_mul_right _ (hd n)
    simp only [List.foldr_cons, List.foldr_nil]
    omega

theorem digit_of_digits (b : Nat) (d : Nat → Nat) (hd : ∀ j, d j < b) (hb : 0 < b) (j : Nat) : ∀ n, j < n →
    (List.range n).foldr (fun j n => d j * b ^ j + n) 0 / b ^ j % b = d j
  | 0, h => by omega
  | n + 1, h => by
    rw [List.range_succ, List.foldr_append, digits_foldr]
    simp only [List.foldr_cons, List.foldr_nil, Nat.add_zero]
    have hp : 0 < b ^ j := Nat.pow_pos hb
    by_cases hj : j = n
    · subst hj
      rw [Nat.add_mul_div_right _ _ hp, Nat.div_eq_of_lt (digits_lt b d hd j), Nat.zero_add, Nat.mod_eq_of_lt (hd j)]
    · obtain ⟨k, rfl⟩ : ∃ k, n = j + 1 + k := ⟨n - (j + 1), by omega⟩
      have e : d (j + 1 + k) * b ^ (j + 1 + k) = b * (d (j + 1 + k) * b ^ k) * b ^ j := by ring
      rw [e, Nat.add_mul_div_right _ _ hp, Nat.add_mul_mod_self_left]
      exact digit_of_digits b d hd hb j _ (by omega)

/-- R33: a sub-element of a lane word built from its sub-elements. -/
theorem bits_packLane (wd : Nat) (f : Nat → Nat) (j : Nat) (hw : wd * (32 / wd) = 32) (hj : j < 32 / wd) :
    bits (packLane wd f) (wd * j) wd = f j % 2 ^ wd := by
  have hd : ∀ j, f j % 2 ^ wd < 2 ^ wd := fun j => Nat.mod_lt _ (Nat.two_pow_pos _)
  have e : (List.range (32 / wd)).foldr (fun j n => f j % 2 ^ wd * 2 ^ (wd * j) + n) 0 =
      (List.range (32 / wd)).foldr (fun j n => f j % 2 ^ wd * (2 ^ wd) ^ j + n) 0 := by simp only [pow_mul]
  have hlt := digits_lt (2 ^ wd) (fun j => f j % 2 ^ wd) hd (32 / wd)
  rw [← pow_mul, hw] at hlt
  rw [bits, packLane, BitVec.extractLsb'_toNat, BitVec.toNat_ofNat, e, Nat.mod_eq_of_lt hlt, Nat.shiftRight_eq_div_pow,
    pow_mul]
  exact digit_of_digits (2 ^ wd) (fun j => f j % 2 ^ wd) hd (Nat.two_pow_pos _) j _ hj

end Sys2Proof.Machine
end

