-- ==== Sys2Proof/Laws/Memory.lean ====
section
/-!
SUPPORT. Coherent memory: what the requests of the directory keep, and what a write at home or by a core leaves elsewhere.
-/
namespace Sys2Proof.Machine

theorem leNat_digit : ∀ (l : List Byte) (i : Nat), i < l.length → leNat l / 256 ^ i % 256 = (l.getD i 0).toNat
  | [], i, h => by simp at h
  | b :: l, 0, _ => by
    have := b.isLt
    simp only [leNat, List.foldr_cons, List.getD_cons_zero, pow_zero, Nat.div_one]
    omega
  | b :: l, i + 1, h => by
    have hb := b.isLt
    have ih := leNat_digit l i (by simpa using h)
    rw [List.getD_cons_succ, ← ih, pow_succ, Nat.mul_comm, ← Nat.div_div_eq_div_mul]
    congr 2
    show (b.toNat + 256 * leNat l) / 256 = leNat l
    omega

theorem leNat_lt (l : List Byte) : leNat l < 256 ^ l.length := by
  induction l with
  | nil => simp [leNat]
  | cons b l ih =>
    have := b.isLt
    show b.toNat + 256 * leNat l < 256 ^ (l.length + 1)
    rw [pow_succ]
    omega

/-- Byte `i` of a word assembled from its bytes. -/
theorem byteOf_leNat (n : Nat) (f : Nat → Byte) (i : Nat) (h : i < n) :
    byteOf (BitVec.ofNat (8 * n) (leNat ((List.range n).map f))) i = f i := by
  have hl : ((List.range n).map f).length = n := by simp
  have h1 := leNat_digit ((List.range n).map f) i (by simpa using h)
  have h2 := leNat_lt ((List.range n).map f)
  rw [hl, show (256 : Nat) = 2 ^ 8 by rfl, ← pow_mul] at h2
  have h3 : ((List.range n).map f).getD i 0 = f i := by simp [List.getD_eq_getElem?_getD, h]
  rw [h3] at h1
  apply BitVec.eq_of_toNat_eq
  rw [byteOf, BitVec.extractLsb'_toNat, BitVec.toNat_ofNat, Nat.mod_eq_of_lt h2, Nat.shiftRight_eq_div_pow, pow_mul, ← h1]
  rfl

theorem byteOf_ramLine (m : MemSys) (l i : Nat) (h : i < 128) : byteOf (m.ramLine l) i = m.ram.read (128 * l + i) :=
  byteOf_leNat 128 _ i h

/-- The value of a byte is the byte of its line's value. -/
theorem byteAt_eq (m : MemSys) (a : Nat) : m.byteAt a = byteOf (m.lineVal (a / 128)) (a % 128) := by
  unfold MemSys.byteAt MemSys.lineVal
  cases m.ownerData (a / 128) with
  | some d => rfl
  | none =>
    simp only [Option.getD_none]
    rw [byteOf_ramLine m _ _ (Nat.mod_lt _ (by omega)), Nat.div_add_mod]

theorem memLine_ext {x y : MemLine} (h : ∀ i, i < 128 → byteOf x i = byteOf y i) : x = y := by
  ext k hk
  have := congrArg (fun b : Byte => b.getLsbD (k % 8)) (h (k / 8) (by omega))
  simp only [byteOf, BitVec.getLsbD_extractLsb', Nat.mod_lt _ (by omega : 0 < 8), decide_true, Bool.true_and,
    Nat.div_add_mod] at this
  simpa [BitVec.getLsbD_eq_getElem hk] using this

theorem l2Key_inj {d d' l l' : Nat} (hl : l < 2 ^ 45) (hl' : l' < 2 ^ 45) : l2Key d l = l2Key d' l' ↔ d = d' ∧ l = l' := by
  unfold l2Key
  constructor
  · intro h; omega
  · rintro ⟨rfl, rfl⟩; rfl

/-- Two memories agree on a line: home copy, copies, entry. -/
structure SameLine (m m' : MemSys) (l : Nat) : Prop where
  dir : m'.dir.get? l = m.dir.get? l
  l2 : ∀ d, m'.l2.get? (l2Key d l) = m.l2.get? (l2Key d l)
  ram : ∀ i, i < 128 → m'.ram.read (128 * l + i) = m.ram.read (128 * l + i)
  bad : l ∈ m'.dirBad ↔ l ∈ m.dirBad

theorem SameLine.refl (m : MemSys) (l : Nat) : SameLine m m l := ⟨rfl, fun _ => rfl, fun _ _ => rfl, Iff.rfl⟩

theorem SameLine.trans {m m' m'' : MemSys} {l : Nat} (a : SameLine m m' l) (b : SameLine m' m'' l) : SameLine m m'' l :=
  ⟨b.dir.trans a.dir, fun d => (b.l2 d).trans (a.l2 d), fun i h => (b.ram i h).trans (a.ram i h), b.bad.trans a.bad⟩

theorem SameLine.ramLine {m m' : MemSys} {l : Nat} (a : SameLine m m' l) : m'.ramLine l = m.ramLine l := by
  apply memLine_ext
  intro i hi
  rw [byteOf_ramLine _ _ _ hi, byteOf_ramLine _ _ _ hi, a.ram i hi]

theorem SameLine.lineVal {m m' : MemSys} {l : Nat} (a : SameLine m m' l) : m'.lineVal l = m.lineVal l := by
  simp only [MemSys.lineVal, MemSys.ownerData, a.dir, a.l2, a.ramLine]

theorem SameLine.lineOk {s s' : State} {l : Nat} (a : SameLine s.mem s'.mem l) (hp : ∀ d, s'.probeOk l d = s.probeOk l d)
    (hw : s'.winDies l false = s.winDies l false) (h : LineOk s l) : LineOk s' l where
  readable := fun hb => h.readable (a.bad.mp hb)
  owner e o he := by rw [a.dir] at he; exact h.owner e o he
  delivered e d he hd := (hp d).trans (h.delivered e d (by rw [← a.dir]; exact he) hd)
  reached d hd := (hp d).trans (h.reached d (by rw [← hw]; exact hd))
  tracked d c hc := by rw [a.dir]; exact h.tracked d c (by rw [← a.l2]; exact hc)
  owned d c e hc hs he := h.owned d c e (by rw [← a.l2]; exact hc) hs (by rw [← a.dir]; exact he)
  single d c d' c' h1 hs h2 := h.single d c d' c' (by rw [← a.l2]; exact h1) hs (by rw [← a.l2]; exact h2)
  copies d c hc := by rw [a.lineVal]; exact h.copies d c (by rw [← a.l2]; exact hc)

/-- What a request on line `l` may do: every other line stays, and so does its own value. -/
structure Request (s s' : State) (l : Nat) : Prop where
  only : s' = s.setMem s'.mem
  probe : ∀ l d, s'.probeOk l d = s.probeOk l d
  others : ∀ l', l' < 2 ^ 45 → l' ≠ l → SameLine s.mem s'.mem l'
  value : s'.mem.lineVal l = s.mem.lineVal l
  ok : LineOk s' l

theorem Request.wins {s s' : State} {l : Nat} (r : Request s s' l) (l' : Nat) : s'.winDies l' false = s.winDies l' false := by
  rw [r.only]; rfl

theorem Request.coherent {s s' : State} {l : Nat} (r : Request s s' l) (h : Coherent s) : Coherent s' := by
  intro l' hl'
  by_cases e : l' = l
  · subst e; exact r.ok
  · exact (r.others l' hl' e).lineOk (r.probe l') (r.wins l') (h l' hl')

theorem Request.byteAt {s s' : State} {l : Nat} (r : Request s s' l) (a : Nat) (ha : a < 2 ^ 52) :
    s'.mem.byteAt a = s.mem.byteAt a := by
  rw [byteAt_eq, byteAt_eq]
  by_cases e : a / 128 = l
  · rw [e, r.value]
  · rw [(r.others _ (by omega) e).lineVal]

theorem Request.refl {s : State} {l : Nat} (h : LineOk s l) : Request s s l :=
  ⟨rfl, fun _ _ => rfl, fun _ _ _ => SameLine.refl _ _, rfl, h⟩

theorem recoverLine_eq {s : State} {l : Nat} (h : LineOk s l) : s.recoverLine l = s := by
  simp [State.recoverLine, h.readable]

theorem probe_eq {s : State} {l : Nat} (ts : List Nat) (ht : ∀ d ∈ ts, s.probeOk l d = true) : s.probe l ts = (s, ts) := by
  have h1 : ts.filter (fun d => !s.probeOk l d) = [] := by
    simp only [List.filter_eq_nil_iff]
    intro d hd; simp [ht d hd]
  have h2 : ts.filter (fun d => s.probeOk l d) = ts := by
    simp only [List.filter_eq_self]
    exact ht
  simp [State.probe, h1, h2]

theorem mem_holders (e : DirEntry) (d : Nat) : d ∈ e.holders ↔ d < 8 ∧ (e.sharers.getLsbD d = true ∨ e.owner = some d) := by
  simp [DirEntry.holders]

/-- The dirty copy of a line, if any die holds one. -/
theorem lineVal_of_dirty {s : State} {l : Nat} (h : LineOk s l) {d : Nat} {c : L2Line}
    (hc : s.mem.l2.get? (l2Key d l) = some c) : s.mem.lineVal l = c.data := (h.copies d c hc).symm

theorem lineVal_of_clean (m : MemSys) (l : Nat)
    (h : ∀ d c, m.l2.get? (l2Key d l) = some c → c.st ≠ .m ∧ c.st ≠ .o) : m.lineVal l = m.ramLine l := by
  have : m.ownerData l = none := by
    unfold MemSys.ownerData
    split
    · split
      · split
        · rename_i c hc
          have := h _ _ hc
          simp [this.1, this.2]
        · rfl
      · rfl
    · rfl
  simp [MemSys.lineVal, this]

theorem ram_putRamLine (m : MemSys) (l : Nat) (x : MemLine) (l' i : Nat) (hi : i < 128) :
    (m.putRamLine l x).ram.read (128 * l' + i) = if l' = l then byteOf x i else m.ram.read (128 * l' + i) := by
  simp only [MemSys.putRamLine, Memory.read_update]
  by_cases h : l' = l
  · subst h
    rw [if_pos (by omega), if_pos rfl]
    congr 1; omega
  · rw [if_neg (by omega), if_neg h]

/-- R272, R273: what a recall from some dies leaves, when only one die at most holds the line dirty, with value `x`. -/
theorem recallFrom_spec (l : Nat) (hl : l < 2 ^ 45) (x : MemLine) : ∀ (dies : List Nat) (m : MemSys),
    (∀ d c, m.l2.get? (l2Key d l) = some c → (c.st = .m ∨ c.st = .o) → c.data = x) →
    let m' := m.recallFrom l dies
    m'.dir = m.dir ∧ m'.dirBad = m.dirBad ∧ (∀ l', l' < 2 ^ 45 → l' ≠ l → SameLine m m' l') ∧
    (∀ d, m'.l2.get? (l2Key d l) = if d ∈ dies then none else m.l2.get? (l2Key d l)) ∧
    ∀ i, i < 128 → m'.ram.read (128 * l + i) =
      if ∃ d ∈ dies, ∃ c, m.l2.get? (l2Key d l) = some c ∧ (c.st = .m ∨ c.st = .o) then byteOf x i
      else m.ram.read (128 * l + i)
  | [], m, _ => by
    exact ⟨rfl, rfl, fun _ _ _ => SameLine.refl _ _, fun _ => by simp [MemSys.recallFrom], fun i _ => by simp [MemSys.recallFrom]⟩
  | d0 :: ds, m, hx => by
    have step : m.recallFrom l (d0 :: ds) = (m.recallFrom l [d0]).recallFrom l ds := rfl
    rw [step]
    -- one die
    obtain ⟨m1, hm1⟩ : ∃ m1, m1 = m.recallFrom l [d0] := ⟨_, rfl⟩
    rw [← hm1]
    have hone : m1.dir = m.dir ∧ m1.dirBad = m.dirBad ∧ (∀ l', l' < 2 ^ 45 → l' ≠ l → SameLine m m1 l') ∧
        (∀ d, m1.l2.get? (l2Key d l) = if d = d0 then none else m.l2.get? (l2Key d l)) ∧
        ∀ i, i < 128 → m1.ram.read (128 * l + i) =
          if ∃ c, m.l2.get? (l2Key d0 l) = some c ∧ (c.st = .m ∨ c.st = .o) then byteOf x i
          else m.ram.read (128 * l + i) := by
      subst hm1
      cases hc : m.l2.get? (l2Key d0 l) with
      | none =>
        have e : m.recallFrom l [d0] = m := by simp [MemSys.recallFrom, hc]
        rw [e]
        refine ⟨rfl, rfl, fun l' _ _ => SameLine.refl _ _, fun d => ?_, fun i _ => by simp⟩
        by_cases e : d = d0
        · subst e; simp [hc]
        · simp [e]
      | some c =>
        have hk : ∀ d l', l' < 2 ^ 45 → (d ≠ d0 ∨ l' ≠ l) → l2Key d l' ≠ l2Key d0 l := by
          intro d l' h' hne he
          have := (l2Key_inj h' hl).mp he
          omega
        have hget : ∀ d, (m.l2.erase (l2Key d0 l)).get? (l2Key d l) = if d = d0 then none else m.l2.get? (l2Key d l) := by
          intro d
          by_cases e : d = d0
          · subst e; simp
          · rw [if_neg e, Table.get?_erase_other _ _ _ (hk d l hl (.inl e))]
        by_cases hd : c.st = .m ∨ c.st = .o
        · have e : m.recallFrom l [d0] = { m.putRamLine l c.data with l2 := m.l2.erase (l2Key d0 l) } := by
            simp only [MemSys.recallFrom, List.foldl_cons, List.foldl_nil, hc, if_pos hd]
            rfl
          rw [e]
          refine ⟨rfl, rfl, fun l' h' hne => ⟨rfl, fun d => ?_, fun i hi => ?_, Iff.rfl⟩, hget, fun i hi => ?_⟩
          · exact Table.get?_erase_other _ _ _ (hk d l' h' (.inr hne))
          · have := ram_putRamLine m l c.data l' i hi
            rw [if_neg hne] at this
            exact this
          · have := ram_putRamLine m l c.data l i hi
            rw [if_pos rfl] at this
            rw [if_pos ⟨c, rfl, hd⟩, ← hx d0 c hc hd]
            exact this
        · have e : m.recallFrom l [d0] = { m with l2 := m.l2.erase (l2Key d0 l) } := by
            simp only [MemSys.recallFrom, List.foldl_cons, List.foldl_nil, hc, if_neg hd]
          rw [e]
          refine ⟨rfl, rfl, fun l' h' hne => ⟨rfl, fun d => ?_, fun i hi => rfl, Iff.rfl⟩, hget, fun i hi => ?_⟩
          · exact Table.get?_erase_other _ _ _ (hk d l' h' (.inr hne))
          · rw [if_neg]
            rintro ⟨c', hc', hs⟩
            cases hc'
            exact hd hs
    obtain ⟨o1, o2, o3, o4, o5⟩ := hone
    have hx1 : ∀ d c, m1.l2.get? (l2Key d l) = some c → (c.st = .m ∨ c.st = .o) → c.data = x := by
      intro d c hc hs
      rw [o4] at hc
      split at hc
      · cases hc
      · exact hx d c hc hs
    obtain ⟨r1, r2, r3, r4, r5⟩ := recallFrom_spec l hl x ds m1 hx1
    refine ⟨r1.trans o1, r2.trans o2, fun l' h' hne => (o3 l' h' hne).trans (r3 l' h' hne), fun d => ?_, fun i hi => ?_⟩
    · rw [r4, o4]
      by_cases h1 : d ∈ ds <;> by_cases h2 : d = d0 <;> simp [h1, h2]
    · rw [r5 i hi, o5 i hi]
      by_cases h0 : ∃ c, m.l2.get? (l2Key d0 l) = some c ∧ (c.st = .m ∨ c.st = .o)
      · have : ∃ d ∈ d0 :: ds, ∃ c, m.l2.get? (l2Key d l) = some c ∧ (c.st = .m ∨ c.st = .o) := ⟨d0, by simp, h0⟩
        rw [if_pos h0, if_pos this]
        split <;> rfl
      · rw [if_neg h0]
        congr 1
        apply propext
        constructor
        · rintro ⟨d, hd, c, hc, hs⟩
          rw [o4] at hc
          split at hc
          · cases hc
          · exact ⟨d, by simp [hd], c, hc, hs⟩
        · rintro ⟨d, hd, c, hc, hs⟩
          have hne : d ≠ d0 := by rintro rfl; exact h0 ⟨c, hc, hs⟩
          refine ⟨d, ?_, c, ?_, hs⟩
          · simpa [hne] using hd
          · rw [o4, if_neg hne]; exact hc

/-- What an operation on line `l` must leave for it to be a request: given the new entry and copies of the line. -/
theorem request_of {s : State} {m : MemSys} {l : Nat} (h : LineOk s l)
    (ho : ∀ l', l' < 2 ^ 45 → l' ≠ l → SameLine s.mem m l') (hb : m.dirBad = s.mem.dirBad)
    (hv : m.lineVal l = s.mem.lineVal l) (hw : ∀ e o, m.dir.get? l = some e → e.owner = some o → o < 8)
    (hq : ∀ e d, m.dir.get? l = some e → d ∈ e.holders → s.probeOk l d = true)
    (ht : ∀ d c, m.l2.get? (l2Key d l) = some c → ∃ e, m.dir.get? l = some e ∧ d ∈ e.holders)
    (hd : ∀ d c e, m.l2.get? (l2Key d l) = some c → c.st ≠ .s → m.dir.get? l = some e → e.owner = some d)
    (hx : ∀ d c d' c', m.l2.get? (l2Key d l) = some c → (c.st = .m ∨ c.st = .e) → m.l2.get? (l2Key d' l) = some c' → d' = d)
    (hc : ∀ d c, m.l2.get? (l2Key d l) = some c → c.data = s.mem.lineVal l) : Request s (s.setMem m) l where
  only := rfl
  probe _ _ := rfl
  others := ho
  value := hv
  ok := ⟨by simpa [hb] using h.readable, hw, hq, h.reached, ht, hd, hx, fun d c x => (hc d c x).trans hv.symm⟩

theorem setEntry_same (s : State) (m : MemSys) (l : Nat) (o : Option Nat) (sh : BitVec 8) :
    (s.setEntry m l o sh).dir.get? l = if o = none ∧ sh = 0 then none else some ⟨o, sh, s.partOf (128 * l)⟩ := by
  unfold State.setEntry
  split <;> simp

theorem setEntry_other (s : State) (m : MemSys) (l : Nat) (o : Option Nat) (sh : BitVec 8) {l' : Nat} (h : l' ≠ l) :
    (s.setEntry m l o sh).dir.get? l' = m.dir.get? l' := by
  unfold State.setEntry
  split
  · exact Table.get?_erase_other _ _ _ h
  · exact Table.get?_put_other _ _ _ _ h

theorem setEntry_some {s : State} {m : MemSys} {l : Nat} {o : Option Nat} {sh : BitVec 8} {e : DirEntry}
    (h : (s.setEntry m l o sh).dir.get? l = some e) : e = ⟨o, sh, s.partOf (128 * l)⟩ := by
  rw [setEntry_same] at h
  split at h
  · cases h
  · cases h; rfl

theorem setEntry_held {s : State} {m : MemSys} {l d : Nat} {o : Option Nat} {sh : BitVec 8}
    (h : d ∈ (⟨o, sh, none⟩ : DirEntry).holders) :
    (s.setEntry m l o sh).dir.get? l = some ⟨o, sh, s.partOf (128 * l)⟩ := by
  rw [setEntry_same, if_neg]
  rintro ⟨rfl, rfl⟩
  simp [DirEntry.holders] at h

/-- R272: another entry for a line leaves the other lines as they are. -/
theorem setEntry_sameLine (s : State) (m : MemSys) (l : Nat) (o : Option Nat) (sh : BitVec 8) (l' : Nat) (h : l' ≠ l) :
    SameLine m (s.setEntry m l o sh) l' := ⟨setEntry_other s m l o sh h, fun _ => rfl, fun _ _ => rfl, Iff.rfl⟩

/-- A new entry and copy of a line leave the other lines as they are. -/
theorem sameLine_own {s : State} {m : MemSys} {l : Nat} (hl : l < 2 ^ 45) (d0 : Nat) (c : L2Line) (o : Option Nat) (sh : BitVec 8) :
    ∀ l', l' < 2 ^ 45 → l' ≠ l → SameLine m (s.setEntry { m with l2 := m.l2.put (l2Key d0 l) c } l o sh) l' :=
  fun l' h' hne => SameLine.trans (m' := { m with l2 := m.l2.put (l2Key d0 l) c })
    ⟨rfl, fun _ => Table.get?_put_other _ _ _ _ fun e => hne ((l2Key_inj h' hl).mp e).2, fun _ _ => rfl, Iff.rfl⟩
    (setEntry_sameLine s _ l o sh l' hne)

theorem l2_put (t : Table L2Line) {l : Nat} (hl : l < 2 ^ 45) (d0 d : Nat) (c : L2Line) :
    (t.put (l2Key d0 l) c).get? (l2Key d l) = if d = d0 then some c else t.get? (l2Key d l) := by
  rw [Table.get?_put]
  by_cases h : d = d0
  · subst h; simp
  · rw [if_neg h, if_neg]
    intro e; exact h ((l2Key_inj hl hl).mp e).1

/-- The value of a line from its entry and copies. -/
theorem lineVal_of_owner (m : MemSys) (l o : Nat) (sh : BitVec 8) (c : L2Line) {p : Option Nat} (hd : m.dir.get? l = some ⟨some o, sh, p⟩)
    (hc : m.l2.get? (l2Key o l) = some c) (hs : c.st = .m ∨ c.st = .o) : m.lineVal l = c.data := by
  simp [MemSys.lineVal, MemSys.ownerData, hd, hc, hs]

theorem ownerData_none {m : MemSys} {l : Nat} (h : ∀ e, m.dir.get? l = some e → e.owner = none) : m.ownerData l = none := by
  unfold MemSys.ownerData
  split
  · rename_i e he; rw [h e he]
  · rfl

theorem lineVal_of_noOwner (m : MemSys) (l : Nat) (h : ∀ e, m.dir.get? l = some e → e.owner = none) :
    m.lineVal l = m.ramLine l := by
  simp [MemSys.lineVal, ownerData_none h]

theorem lineVal_of_cleanOwner (m : MemSys) (l o : Nat) (sh : BitVec 8) {p : Option Nat} (hd : m.dir.get? l = some ⟨some o, sh, p⟩)
    (hc : ∀ c, m.l2.get? (l2Key o l) = some c → ¬ (c.st = .m ∨ c.st = .o)) : m.lineVal l = m.ramLine l := by
  have : m.ownerData l = none := by
    unfold MemSys.ownerData
    rw [hd]
    simp only
    split
    · rename_i c h; rw [if_neg (hc c h)]
    · rfl
  simp [MemSys.lineVal, this]

theorem shl_one {d d' : Nat} (h : d < 8) (h' : d' < 8) : ((1#8) <<< d).getLsbD d' = decide (d' = d) := by
  have : ∀ a b : Fin 8, ((1#8) <<< a.val).getLsbD b.val = decide (b.val = a.val) := by decide
  exact this ⟨d, h⟩ ⟨d', h'⟩

/-- The last part of a GetS: the entry names `own` and `sh`, and a die that asked from elsewhere gets a copy. -/
theorem getS_finish {s : State} {m1 : MemSys} {l d : Nat} {own : Option Nat} {sh : BitVec 8} (hl : l < 2 ^ 45) (hd : d < 8)
    (hpd : s.probeOk l d = true) (hps : ∀ d ∈ (⟨own, sh, none⟩ : DirEntry).holders, s.probeOk l d = true)
    (h : LineOk s l) (ho : ∀ l', l' < 2 ^ 45 → l' ≠ l → SameLine s.mem m1 l') (hb : m1.dirBad = s.mem.dirBad)
    (hr : m1.ram = s.mem.ram) (hw : ∀ o, own = some o → o < 8 ∧ o ≠ d)
    (hc : ∀ d c, m1.l2.get? (l2Key d l) = some c → c.data = s.mem.lineVal l ∧ d ∈ (⟨own, sh, none⟩ : DirEntry).holders ∧
      (c.st ≠ .s → own = some d ∧ c.st = .o))
    (hn : own = none → s.mem.lineVal l = s.mem.ramLine l)
    (hs : ∀ o, own = some o → ∃ c, m1.l2.get? (l2Key o l) = some c ∧ (c.st = .m ∨ c.st = .o)) :
    Request s (s.setMem (s.setEntry m1 l own sh)) l ∧
      Request s (s.setMem (s.setEntry { m1 with l2 := m1.l2.put (l2Key d l) ⟨.s, s.mem.lineVal l⟩ } l own (sh ||| ((1#8) <<< d)))) l := by
  have hram : ∀ (x y), MemSys.ramLine { m1 with dir := x, l2 := y } l = s.mem.ramLine l := by
    intro x y; simp only [MemSys.ramLine, hr]
  constructor
  · refine request_of h (fun l' h' hne => (ho l' h' hne).trans (setEntry_sameLine s m1 l own sh l' hne)) hb ?_ ?_ ?_ ?_ ?_ ?_ ?_
    · cases own with
      | none =>
        rw [lineVal_of_noOwner, hn rfl]
        · exact hram _ _
        · intro e he; rw [setEntry_some he]
      | some o =>
        obtain ⟨c, h1, h2⟩ := hs o rfl
        exact (lineVal_of_owner _ l o sh c ((setEntry_same s m1 l _ _).trans (if_neg (by simp))) h1 h2).trans (hc o c h1).1
    · intro e o he hh
      rw [setEntry_some he] at hh; exact (hw o hh).1
    · intro e d he hh
      rw [setEntry_some he] at hh; exact hps d hh
    · exact fun d c h1 => ⟨_, setEntry_held (hc d c h1).2.1, (hc d c h1).2.1⟩
    · intro d c e h1 h2 he
      rw [setEntry_some he]; exact ((hc d c h1).2.2 h2).1
    · intro d c d' c' h1 h2 _
      have := (hc d c h1).2.2
      rcases h2 with h2 | h2 <;> rw [h2] at this <;> simp at this
    · exact fun d c h1 => (hc d c h1).1
  · have hself : d ∈ (⟨own, sh ||| ((1#8) <<< d), none⟩ : DirEntry).holders := by
      refine (mem_holders _ _).mpr ⟨hd, .inl ?_⟩
      rw [BitVec.getLsbD_or, shl_one hd hd]; simp
    have hmem : ∀ d', d' ∈ (⟨own, sh, none⟩ : DirEntry).holders → d' ∈ (⟨own, sh ||| ((1#8) <<< d), none⟩ : DirEntry).holders := by
      intro d' hm
      rw [mem_holders] at hm ⊢
      refine ⟨hm.1, hm.2.imp (fun h => ?_) id⟩
      rw [BitVec.getLsbD_or]; simp [h]
    refine request_of h (fun l' h' hne => ?_) hb ?_ ?_ ?_ ?_ ?_ ?_ ?_
    · refine (ho l' h' hne).trans (SameLine.trans (m' := { m1 with l2 := m1.l2.put (l2Key d l) ⟨.s, s.mem.lineVal l⟩ })
        ⟨rfl, fun d' => ?_, fun _ _ => rfl, Iff.rfl⟩ (setEntry_sameLine s _ l own _ l' hne))
      exact Table.get?_put_other _ _ _ _ fun e => hne ((l2Key_inj h' hl).mp e).2
    · cases own with
      | none =>
        rw [lineVal_of_noOwner, hn rfl]
        · exact hram _ _
        · intro e he; rw [setEntry_some he]
      | some o =>
        obtain ⟨c, h1, h2⟩ := hs o rfl
        refine (lineVal_of_owner _ l o (sh ||| ((1#8) <<< d)) c ((setEntry_same s _ l _ _).trans (if_neg (by simp))) ?_ h2).trans (hc o c h1).1
        exact (l2_put _ hl d o _).trans ((if_neg (hw o rfl).2).trans h1)
    · intro e o he hh
      rw [setEntry_some he] at hh; exact (hw o hh).1
    · intro e d' he hh
      rw [setEntry_some he] at hh
      obtain ⟨h8, hh⟩ := (mem_holders _ _).mp hh
      rcases hh with hh | hh
      · rw [BitVec.getLsbD_or, Bool.or_eq_true] at hh
        rcases hh with hh | hh
        · exact hps d' ((mem_holders _ _).mpr ⟨h8, .inl hh⟩)
        · rw [shl_one hd h8] at hh
          rw [of_decide_eq_true hh]; exact hpd
      · exact hps d' ((mem_holders _ _).mpr ⟨h8, .inr hh⟩)
    · intro d' c h1
      replace h1 := (l2_put m1.l2 hl d d' ⟨.s, s.mem.lineVal l⟩).symm.trans h1
      split at h1
      · rename_i e; subst e
        exact ⟨_, setEntry_held hself, hself⟩
      · exact ⟨_, setEntry_held (hmem _ (hc d' c h1).2.1), hmem _ (hc d' c h1).2.1⟩
    · intro d' c e h1 h2 he
      rw [setEntry_some he]
      replace h1 := (l2_put m1.l2 hl d d' ⟨.s, s.mem.lineVal l⟩).symm.trans h1
      split at h1
      · cases h1; simp at h2
      · exact ((hc d' c h1).2.2 h2).1
    · intro d1 c d2 c' h1 h2 _
      replace h1 := (l2_put m1.l2 hl d d1 ⟨.s, s.mem.lineVal l⟩).symm.trans h1
      split at h1
      · cases h1; simp at h2
      · have := (hc d1 c h1).2.2
        rcases h2 with h2 | h2 <;> rw [h2] at this <;> simp at this
    · intro d' c h1
      replace h1 := (l2_put m1.l2 hl d d' ⟨.s, s.mem.lineVal l⟩).symm.trans h1
      split at h1
      · cases h1; rfl
      · exact (hc d' c h1).1

/-- R272: GetS keeps every byte of memory and the coherence of every line. -/
theorem doGetS_request {s : State} {l d : Nat} (hl : l < 2 ^ 45) (hd : d < 8) (hpd : s.probeOk l d = true)
    (h : LineOk s l) :
    Request s (s.doGetS d l) l := by
  unfold State.doGetS
  simp only [recoverLine_eq h]
  cases hdir : s.mem.dir.get? l with
  | none =>
    have hno : ∀ d c, s.mem.l2.get? (l2Key d l) ≠ some c := by
      intro d c hc
      obtain ⟨e, he, -⟩ := h.tracked d c hc
      rw [hdir] at he; cases he
    have hval : s.mem.lineVal l = s.mem.ramLine l := lineVal_of_noOwner _ _ (by simp [hdir])
    simp only
    split
    · exact Request.refl h
    · have hput := fun d' => l2_put s.mem.l2 hl d d' ⟨.e, s.mem.ramLine l⟩
      refine request_of h (sameLine_own hl d _ _ _) rfl ?_ ?_ ?_ ?_ ?_ ?_ ?_
      · rw [hval]
        refine (lineVal_of_cleanOwner _ l d 0 ((setEntry_same s _ l _ _).trans (if_neg (by simp))) ?_).trans rfl
        intro c hc
        replace hc := (hput d).symm.trans hc
        rw [if_pos rfl] at hc
        cases hc; simp
      · intro e o he hh
        rw [setEntry_some he] at hh; cases hh; exact hd
      · intro e d' he hh
        rw [setEntry_some he] at hh
        obtain ⟨-, hh⟩ := (mem_holders _ _).mp hh
        rcases hh with hh | hh
        · simp at hh
        · cases hh; exact hpd
      · intro d' c hc
        replace hc := (hput d').symm.trans hc
        split at hc
        · rename_i e; subst e
          have : d' ∈ (⟨some d', 0, none⟩ : DirEntry).holders := (mem_holders _ _).mpr ⟨hd, .inr rfl⟩
          exact ⟨_, setEntry_held this, this⟩
        · exact absurd hc (hno _ _)
      · intro d' c e hc hs he
        rw [setEntry_some he]
        replace hc := (hput d').symm.trans hc
        split at hc
        · rename_i e1; subst e1; rfl
        · exact absurd hc (hno _ _)
      · intro d1 c1 d2 c2 h1 _ h2
        replace h1 := (hput d1).symm.trans h1
        replace h2 := (hput d2).symm.trans h2
        split at h1
        · split at h2
          · simp_all
          · exact absurd h2 (hno _ _)
        · exact absurd h1 (hno _ _)
      · intro d' c hc
        replace hc := (hput d').symm.trans hc
        split at hc
        · cases hc; rw [hval]
        · exact absurd hc (hno _ _)
  | some e =>
    obtain ⟨own, sh, pt⟩ := e
    have hdel := fun d => h.delivered ⟨own, sh, pt⟩ d hdir
    have hcop : ∀ d c, s.mem.l2.get? (l2Key d l) = some c → d ∈ (⟨own, sh, none⟩ : DirEntry).holders ∧
        (c.st ≠ .s → own = some d) := by
      intro d c hc
      obtain ⟨e, he, hm⟩ := h.tracked d c hc
      rw [hdir] at he; cases he
      exact ⟨hm, fun hs => h.owned d c _ hc hs hdir⟩
    cases own with
    | none =>
      have hval : s.mem.lineVal l = s.mem.ramLine l :=
        lineVal_of_noOwner _ _ (by rw [hdir]; rintro e he; cases he; rfl)
      have hp := probe_eq (s := s) (l := l) [] (by simp)
      have hf := getS_finish (m1 := s.mem) (d := d) (own := none) (sh := sh) hl hd hpd hdel h (fun _ _ _ => SameLine.refl _ _) rfl rfl
        (by simp) (fun d c hc => ⟨h.copies d c hc, (hcop d c hc).1, fun hs => by have := (hcop d c hc).2 hs; cases this⟩) (fun _ => hval) (by simp)
      simp only [hp, List.isEmpty_nil, if_true]
      simp only [hval] at hf
      simp
      split
      · simpa using hf.1
      · simpa using hf.2
    | some o =>
      have ho8 : o < 8 := h.owner _ o hdir rfl
      have hp := probe_eq (s := s) (l := l) [o] (by simpa using hdel o ((mem_holders _ _).mpr ⟨ho8, .inr rfl⟩))
      simp only [hp, List.isEmpty_cons, Bool.false_eq_true, if_false]
      split
      · exact Request.refl h
      · rename_i hne
        have hod : o ≠ d := by intro e; apply hne; simp [e]
        have hds : ∀ own' : Option Nat, own' = none ∨ own' = some o →
            ∀ d ∈ (⟨own', sh ||| ((1#8) <<< o), none⟩ : DirEntry).holders, s.probeOk l d = true := by
          intro own' hw d' hh
          obtain ⟨h8, hh⟩ := (mem_holders _ _).mp hh
          rcases hh with hh | hh
          · rw [BitVec.getLsbD_or, Bool.or_eq_true] at hh
            rcases hh with hh | hh
            · exact hdel d' ((mem_holders _ _).mpr ⟨h8, .inl hh⟩)
            · rw [shl_one ho8 h8] at hh
              exact hdel d' ((mem_holders _ _).mpr ⟨h8, .inr (by rw [of_decide_eq_true hh])⟩)
          · rcases hw with hw | hw <;> rw [hw] at hh
            · cases hh
            · cases hh; exact hdel _ ((mem_holders _ _).mpr ⟨h8, .inr rfl⟩)
        have hmo : ∀ own' d', d' ∈ (⟨some o, sh, none⟩ : DirEntry).holders →
            d' ∈ (⟨own', sh ||| ((1#8) <<< o), none⟩ : DirEntry).holders := by
          intro own' d' hm
          rw [mem_holders] at hm ⊢
          refine ⟨hm.1, .inl ?_⟩
          rw [BitVec.getLsbD_or]
          rcases hm.2 with h1 | h1
          · simp [h1]
          · have : ∀ d : Fin 8, ((1#8) <<< d.val).getLsbD d.val = true := by decide
            cases h1
            rw [this ⟨o, ho8⟩, Bool.or_true]
        cases hc : s.mem.l2.get? (l2Key o l) with
        | none =>
          have hval : s.mem.lineVal l = s.mem.ramLine l := lineVal_of_cleanOwner _ l o sh hdir (by simp [hc])
          have hf := getS_finish (m1 := s.mem) (d := d) (own := none) (sh := sh ||| ((1#8) <<< o)) hl hd hpd (hds _ (.inl rfl)) h
            (fun _ _ _ => SameLine.refl _ _) rfl rfl (by simp)
            (fun d c hk => ⟨h.copies d c hk, hmo _ _ (hcop d c hk).1, fun hs => by
              have := (hcop d c hk).2 hs
              cases this; rw [hc] at hk; cases hk⟩) (fun _ => hval) (by simp)
          simp only
          split
          · exact hf.1
          · exact hf.2
        | some c =>
          obtain ⟨st, dat⟩ := c
          have hsame : ∀ c', ∀ l', l' < 2 ^ 45 → l' ≠ l → SameLine s.mem { s.mem with l2 := s.mem.l2.put (l2Key o l) c' } l' :=
            fun c' l' h' hne => ⟨rfl, fun d => Table.get?_put_other _ _ _ _ fun e => hne ((l2Key_inj h' hl).mp e).2,
              fun _ _ => rfl, Iff.rfl⟩
          simp only
          by_cases hst : st = Moesi.e ∨ st = Moesi.s
          · have hval : s.mem.lineVal l = s.mem.ramLine l := by
              refine lineVal_of_cleanOwner _ l o sh hdir fun c hk => ?_
              rw [hc] at hk; cases hk
              rcases hst with rfl | rfl <;> simp
            have hf := getS_finish (m1 := { s.mem with l2 := s.mem.l2.put (l2Key o l) ⟨.s, dat⟩ }) (d := d) (own := none)
              (sh := sh ||| ((1#8) <<< o)) hl hd hpd (hds _ (.inl rfl)) h (hsame _) rfl rfl (by simp)
              (fun d c hk => by
                rw [l2_put _ hl] at hk
                split at hk
                · rename_i e; subst e; cases hk
                  exact ⟨h.copies d ⟨st, dat⟩ hc, hmo _ _ (hcop _ _ hc).1, by simp⟩
                · rename_i e
                  exact ⟨h.copies d c hk, hmo _ _ (hcop d c hk).1, fun hs => by
                    have := (hcop d c hk).2 hs
                    cases this; exact absurd rfl e⟩) (fun _ => hval) (by simp)
            simp only [if_pos hst]
            split
            · exact hf.1
            · exact hf.2
          · have hst' : st = .m ∨ st = .o := by cases st <;> simp_all
            have hf := getS_finish (m1 := { s.mem with l2 := s.mem.l2.put (l2Key o l) ⟨.o, dat⟩ }) (d := d) (own := some o)
              (sh := sh ||| ((1#8) <<< o)) hl hd hpd (hds _ (.inr rfl)) h (hsame _) rfl rfl (by rintro _ ⟨⟩; exact ⟨ho8, hod⟩)
              (fun d c hk => by
                rw [l2_put _ hl] at hk
                split at hk
                · rename_i e; subst e; cases hk
                  exact ⟨h.copies d ⟨st, dat⟩ hc, hmo _ _ (hcop _ _ hc).1, fun _ => ⟨rfl, rfl⟩⟩
                · rename_i e
                  exact ⟨h.copies d c hk, hmo _ _ (hcop d c hk).1, fun hs => by
                    have := (hcop d c hk).2 hs
                    cases this; exact absurd rfl e⟩) (by simp)
              (by rintro _ ⟨⟩; exact ⟨⟨.o, dat⟩, by simp, by simp⟩)
            simp only [if_neg hst]
            split
            · exact hf.1
            · exact hf.2

/-- What is left of a line when every copy has been recalled: the dies whose windows hold words of it stay sharers. -/
structure Recalled (s s' : State) (l : Nat) : Prop extends Request s s' l where
  none_left : ∀ d, s'.mem.l2.get? (l2Key d l) = none
  no_owner : ∀ e, s'.mem.dir.get? l = some e → e.owner = none

theorem winDies_lt {s : State} {l d : Nat} (h : (s.winDies l false).getLsbD d = true) : d < 8 := BitVec.lt_of_getLsbD h

theorem reached_holders {s : State} {l d : Nat} (h : LineOk s l) (o : Option Nat) (ho : ∀ x, o = some x → s.probeOk l x = true)
    (hd : d ∈ (⟨o, s.winDies l false, none⟩ : DirEntry).holders) : s.probeOk l d = true := by
  obtain ⟨-, h1 | h1⟩ := (mem_holders _ _).mp hd
  · exact h.reached d h1
  · exact ho d h1

/-- A recall from dies that include every holder; windows alone are left in the entry. -/
theorem recalled_of {s : State} {l : Nat} (hl : l < 2 ^ 45) (h : LineOk s l) (dies : List Nat)
    (hall : ∀ d c, s.mem.l2.get? (l2Key d l) = some c → d ∈ dies) :
    Recalled s (s.setMem (s.setEntry (s.mem.recallFrom l dies) l none (s.winDies l false))) l := by
  obtain ⟨r1, r2, r3, r4, r5⟩ := recallFrom_spec l hl (s.mem.lineVal l) dies s.mem fun d c hc _ => h.copies d c hc
  have hno : ∀ d, (s.mem.recallFrom l dies).l2.get? (l2Key d l) = none := by
    intro d
    rw [r4]
    split
    · rfl
    · cases hc : s.mem.l2.get? (l2Key d l) with
      | none => rfl
      | some c => exact absurd (hall d c hc) ‹_›
  refine ⟨request_of h (fun l' h' hne => ?_) r2 ?_ ?_ ?_ ?_ ?_ ?_ ?_, hno, ?_⟩
  · exact (r3 l' h' hne).trans (setEntry_sameLine s _ l _ _ l' hne)
  · refine (lineVal_of_noOwner _ _ (fun e he => by rw [setEntry_some he])).trans ?_
    apply memLine_ext
    intro i hi
    rw [byteOf_ramLine _ _ _ hi]
    refine (r5 i hi).trans ?_
    split
    · rfl
    · rename_i hnd
      rw [lineVal_of_clean, byteOf_ramLine _ _ _ hi]
      intro d c hc
      have := fun hs => hnd ⟨d, hall d c hc, c, hc, hs⟩
      exact ⟨fun e => this (.inl e), fun e => this (.inr e)⟩
  · intro e o he hh; rw [setEntry_some he] at hh; cases hh
  · intro e d he hh; rw [setEntry_some he] at hh; exact reached_holders h none (by simp) hh
  · intro d c hc; exact absurd (hc.symm.trans (hno d)) (by simp)
  · intro d c e hc; exact absurd (hc.symm.trans (hno d)) (by simp)
  · intro d c d' c' hc; exact absurd (hc.symm.trans (hno d)) (by simp)
  · intro d c hc; exact absurd (hc.symm.trans (hno d)) (by simp)
  · intro e he; rw [setEntry_some he]

/-- R272: a recall leaves the home copy alone, with the value of the line. -/
theorem recall_recalled {s : State} {l : Nat} (hl : l < 2 ^ 45) (h : LineOk s l) : Recalled s (s.recall l) l := by
  unfold State.recall
  simp only [recoverLine_eq h]
  cases hdir : s.mem.dir.get? l with
  | none =>
    refine ⟨Request.refl h, fun d => ?_, fun e he => by rw [hdir] at he; cases he⟩
    cases hc : s.mem.l2.get? (l2Key d l) with
    | none => rfl
    | some c =>
      obtain ⟨e, he, -⟩ := h.tracked d c hc
      rw [hdir] at he; cases he
  | some e =>
    have hp := probe_eq e.holders (fun d hd => h.delivered e d hdir hd)
    simp only [hp]
    refine recalled_of hl h e.holders fun d c hc => ?_
    obtain ⟨e', he, hm⟩ := h.tracked d c hc
    rw [hdir] at he; cases he; exact hm

/-- Die `d` is the only holder of a line, in M. -/
structure Owned (s s' : State) (l d : Nat) : Prop extends Request s s' l where
  copy : s'.mem.l2.get? (l2Key d l) = some ⟨.m, s.mem.lineVal l⟩
  alone : ∀ d', d' ≠ d → s'.mem.l2.get? (l2Key d' l) = none
  entry : ∃ e, s'.mem.dir.get? l = some e ∧ e.owner = some d ∧ d < 8

/-- One die's copy after a recall. -/
theorem Recalled.owned {s s' : State} {l d : Nat} (hl : l < 2 ^ 45) (hd : d < 8) (hpd : s.probeOk l d = true) (r : Recalled s s' l) :
    Owned s (s'.setMem (s'.setEntry { s'.mem with l2 := s'.mem.l2.put (l2Key d l) ⟨.m, s.mem.lineVal l⟩ } l (some d)
      (s'.winDies l false))) l d := by
  have hput := fun d' => l2_put s'.mem.l2 hl d d' ⟨.m, s.mem.lineVal l⟩
  have hcopy := hput d
  rw [if_pos rfl] at hcopy
  have hself : d ∈ (⟨some d, s'.winDies l false, none⟩ : DirEntry).holders := (mem_holders _ _).mpr ⟨hd, .inr rfl⟩
  have hget := setEntry_held (s := s') (m := { s'.mem with l2 := s'.mem.l2.put (l2Key d l) ⟨.m, s.mem.lineVal l⟩ }) (l := l) hself
  have honly : ∀ d', d' ≠ d → (s'.mem.l2.put (l2Key d l) ⟨.m, s.mem.lineVal l⟩).get? (l2Key d' l) = none := by
    intro d' hne
    rw [hput, if_neg hne, r.none_left]
  have hone : ∀ d' c, (s'.mem.l2.put (l2Key d l) ⟨.m, s.mem.lineVal l⟩).get? (l2Key d' l) = some c →
      d' = d ∧ c = ⟨.m, s.mem.lineVal l⟩ := by
    intro d' c hc
    by_cases e : d' = d
    · subst e; rw [hcopy] at hc; cases hc; exact ⟨rfl, rfl⟩
    · rw [honly d' e] at hc; cases hc
  have q : Request s' (s'.setMem (s'.setEntry { s'.mem with l2 := s'.mem.l2.put (l2Key d l) ⟨.m, s.mem.lineVal l⟩ } l (some d)
      (s'.winDies l false))) l := by
    refine request_of r.ok (sameLine_own hl d _ _ _) rfl ?_ ?_ ?_ ?_ ?_ ?_ ?_
    · exact (lineVal_of_owner _ l d _ _ hget hcopy (.inl rfl)).trans r.value.symm
    · intro e o he hh
      rw [setEntry_some he] at hh; cases hh; exact hd
    · intro e d' he hh
      rw [setEntry_some he] at hh
      exact reached_holders r.ok (some d) (by rintro x ⟨⟩; exact (r.probe l d).trans hpd) hh
    · intro d' c hc
      obtain ⟨rfl, -⟩ := hone d' c hc
      exact ⟨_, hget, hself⟩
    · intro d' c e hc _ he
      obtain ⟨rfl, -⟩ := hone d' c hc
      rw [setEntry_some he]
    · intro d1 c1 d2 c2 h1 _ h2
      rw [(hone _ _ h1).1, (hone _ _ h2).1]
    · intro d' c hc
      obtain ⟨-, rfl⟩ := hone d' c hc
      exact r.value.symm
  exact ⟨⟨by rw [q.only, r.only]; rfl, fun l d => (q.probe l d).trans (r.probe l d), fun l' h' hne => (r.others l' h' hne).trans (q.others l' h' hne),
    q.value.trans r.value, q.ok⟩, hcopy, honly, _, hget, rfl, hd⟩

theorem Owned.congr {s s' s'' : State} {l d : Nat} (hl : l < 2 ^ 45) (r : Owned s s' l d)
    (ho : s'' = s'.setMem s''.mem) (hp : ∀ l d, s''.probeOk l d = s'.probeOk l d) (hs : ∀ l', l' < 2 ^ 45 → SameLine s'.mem s''.mem l') :
    Owned s s'' l d := by
  refine ⟨⟨by rw [ho, r.only]; rfl, fun l d => (hp l d).trans (r.probe l d), fun l' h' hne => (r.others l' h' hne).trans (hs l' h'),
    (hs l hl).lineVal.trans r.value, (hs l hl).lineOk (hp l) (by rw [ho]; rfl) r.ok⟩, ?_, fun d' hne => ?_, ?_⟩
  · rw [(hs l hl).l2]; exact r.copy
  · rw [(hs l hl).l2]; exact r.alone d' hne
  · rw [(hs l hl).dir]; exact r.entry

/-- R272: what a GetM of a die that is not the line's home leaves. -/
theorem doGetM_owned {s : State} {l d : Nat} (hl : l < 2 ^ 45) (hd : d < 8) (hh : homeOf l ≠ d)
    (hpd : s.probeOk l d = true) (h : LineOk s l) :
    Owned s (s.doGetM d l) l d := by
  -- the part that both branches share: every other copy is recalled, then the die's own is put in M
  have share : ∀ dies data, (∀ d c, s.mem.l2.get? (l2Key d l) = some c → d ∈ dies) → data = s.mem.lineVal l →
      Owned s (s.setMem (s.setEntry { s.mem.recallFrom l dies with l2 := (s.mem.recallFrom l dies).l2.put (l2Key d l) ⟨.m, data⟩ } l (some d)
        (s.winDies l false))) l d := by
    rintro dies _ hall rfl
    refine ((recalled_of hl h dies hall).owned hl hd hpd).congr hl rfl (fun _ _ => rfl) fun l' _ => ?_
    refine ⟨?_, fun _ => rfl, fun _ _ => rfl, Iff.rfl⟩
    by_cases e : l' = l
    · subst e; exact (setEntry_same _ _ _ _ _).trans (setEntry_same _ _ _ _ _).symm
    · exact (setEntry_other _ _ _ _ _ e).trans ((setEntry_other _ _ _ _ _ e).trans (setEntry_other _ _ _ _ _ e)).symm
  unfold State.doGetM
  simp only [recoverLine_eq h]
  split
  · rename_i c e hc he
    have hval := h.copies d c hc
    split
    · rename_i hown
      have hall : ∀ d' c', s.mem.l2.get? (l2Key d' l) = some c' → d' = d :=
        fun d' c' hc' => h.single d c d' c' hc hown.2 hc'
      have hcopy := l2_put s.mem.l2 hl d d { c with st := .m }
      rw [if_pos rfl] at hcopy
      have hone : ∀ d' c', (s.mem.l2.put (l2Key d l) { c with st := .m }).get? (l2Key d' l) = some c' →
          d' = d ∧ c' = ⟨.m, s.mem.lineVal l⟩ := by
        intro d' c' hc'
        by_cases e : d' = d
        · subst e; rw [hcopy] at hc'; cases hc'; exact ⟨rfl, by rw [← hval]⟩
        · rw [l2_put _ hl, if_neg e] at hc'; exact absurd (hall _ _ hc') e
      obtain ⟨own, sh, pt⟩ := e
      obtain ⟨rfl, hst⟩ := hown
      refine ⟨request_of h (fun l' h' hne => ?_) rfl ?_ ?_ ?_ ?_ ?_ ?_ ?_, ?_, fun d' hne => ?_, ⟨_, he, rfl, hd⟩⟩
      · exact ⟨rfl, fun d' => Table.get?_put_other _ _ _ _ fun e => hne ((l2Key_inj h' hl).mp e).2, fun _ _ => rfl, Iff.rfl⟩
      · exact (lineVal_of_owner { s.mem with l2 := s.mem.l2.put (l2Key d l) { c with st := .m } } l d sh _ he hcopy
          (.inl rfl)).trans hval
      · exact h.owner
      · exact h.delivered
      · intro d' c' hc'
        obtain ⟨rfl, -⟩ := hone d' c' hc'
        exact ⟨_, he, (mem_holders _ _).mpr ⟨hd, .inr rfl⟩⟩
      · intro d' c' e hc' _ he'
        obtain ⟨rfl, -⟩ := hone d' c' hc'
        exact h.owner _ _ he rfl |> fun _ => by rw [he] at he'; cases he'; rfl
      · intro d1 c1 d2 c2 h1 _ h2
        rw [(hone _ _ h1).1, (hone _ _ h2).1]
      · intro d' c' hc'
        obtain ⟨-, rfl⟩ := hone d' c' hc'
        rfl
      · exact hcopy.trans (by rw [← hval])
      · cases hc' : (s.mem.l2.put (l2Key d l) { c with st := .m }).get? (l2Key d' l) with
        | none => exact hc'
        | some c' => exact absurd (hone d' c' hc').1 hne
    · have hp := probe_eq (e.holders.filter (· != d)) (fun x hx => h.delivered e x he (List.mem_of_mem_filter hx))
      simp only [hp]
      refine share _ _ (fun d' c' hc' => ?_) ?_
      · obtain ⟨e', he', hm⟩ := h.tracked d' c' hc'
        rw [he] at he'; cases he'
        by_cases e : d' = d
        · simp [e]
        · simp [hm, e]
      · split
        · exact hval
        · rename_i hne
          have : (e.owner.map fun o => (e.holders.filter (· != d)).contains o).getD true = true := by
            cases ho : e.owner with
            | none => rfl
            | some o =>
              have hod : o ≠ d := by intro e'; apply hne; simp [ho, e']
              simp [hod, (mem_holders e o).mpr ⟨h.owner e o he ho, .inr ho⟩]
          rw [if_pos this]
  · rename_i hnot
    have hnd : s.mem.l2.get? (l2Key d l) = none := by
      cases hc : s.mem.l2.get? (l2Key d l) with
      | none => rfl
      | some c =>
        obtain ⟨e, he, -⟩ := h.tracked d c hc
        exact absurd he (hnot c e hc)
    have hh' : (homeOf l == d) = false := by simpa using hh
    have fin : ∀ dies, (∀ d c, s.mem.l2.get? (l2Key d l) = some c → d ∈ dies) →
        (s.mem.recallFrom l dies).ramLine l = s.mem.lineVal l := by
      intro dies hall
      have r := recalled_of hl h _ hall
      exact Eq.trans (lineVal_of_noOwner _ l r.no_owner).symm r.value
    cases hdir : s.mem.dir.get? l with
    | none =>
      have hall : ∀ d' c', s.mem.l2.get? (l2Key d' l) = some c' → d' ∈ ([] : List Nat) := by
        intro d' c' hc'
        obtain ⟨e, he, -⟩ := h.tracked d' c' hc'
        rw [hdir] at he; cases he
      simp only [probe_eq [] (by simp), hh', Bool.false_eq_true, if_false]
      exact share _ _ hall (fin _ hall)
    | some e =>
      have hall : ∀ d' c', s.mem.l2.get? (l2Key d' l) = some c' → d' ∈ e.holders.filter (· != d) := by
        intro d' c' hc'
        obtain ⟨e', he, hm⟩ := h.tracked d' c' hc'
        rw [hdir] at he; cases he
        have : d' ≠ d := by rintro rfl; rw [hnd] at hc'; cases hc'
        simp [hm, this]
      have hp := probe_eq (e.holders.filter (· != d)) (fun x hx => h.delivered e x hdir (List.mem_of_mem_filter hx))
      simp only [hp, hh', Bool.false_eq_true, if_false]
      exact share _ _ hall (fin _ hall)

/-- A request, with what no request touches. -/
theorem Request.quiet {s s' : State} {l : Nat} (r : Request s s' l) : Quiet s s' := ⟨r.only, r.byteAt⟩

theorem Quiet.refl (s : State) : Quiet s s := ⟨rfl, fun _ _ => rfl⟩

theorem Quiet.trans {s t u : State} (a : Quiet s t) (b : Quiet t u) : Quiet s u :=
  ⟨by rw [b.1, a.1]; rfl, fun x hx => (b.2 x hx).trans (a.2 x hx)⟩

theorem Quiet.probeOk {s t : State} (a : Quiet s t) (l d : Nat) : t.probeOk l d = s.probeOk l d := by rw [a.1]; rfl

theorem Request.mono {s s' : State} {l : Nat} (r : Request s s' l) (h : Coherent s) : Coherent s' ∧ Quiet s s' :=
  ⟨r.coherent h, r.quiet⟩

/-- Two memories agree on what coherence and values depend on. -/
theorem coherent_of_same {s t : State} (hp : ∀ l d, t.probeOk l d = s.probeOk l d)
    (hw : ∀ l, t.winDies l false = s.winDies l false) (hs : ∀ l, l < 2 ^ 45 → SameLine s.mem t.mem l) (h : Coherent s) : Coherent t :=
  fun l hl => (hs l hl).lineOk (hp l) (hw l) (h l hl)

/-- R268: one line read by a core. -/
theorem coreLine_quiet {s : State} {core l : Nat} (alloc : Bool) (hl : l < 2 ^ 45) (hd : core / 512 < 8)
    (hpd : s.probeOk l (core / 512) = true) (h : Coherent s) :
    Coherent (s.coreLine core l alloc).1 ∧ Quiet s (s.coreLine core l alloc).1 := by
  unfold State.coreLine
  split
  · exact ⟨h, Quiet.refl s⟩
  · have key : ∀ t : State, Coherent t ∧ Quiet s t → ∀ x,
        Coherent (t.setMem { t.mem with l1 := x }) ∧ Quiet s (t.setMem { t.mem with l1 := x }) := fun t ht x =>
      ⟨coherent_of_same (s := t) (fun _ _ => rfl) (fun _ => rfl) (fun _ _ => ⟨rfl, fun _ => rfl, fun _ _ => rfl, Iff.rfl⟩) ht.1,
        by rw [State.setMem, ht.2.1]; rfl, fun a ha => ht.2.2 a ha⟩
    have hs : Coherent (match s.mem.l2.get? (l2Key (core / 512) l) with | some _ => s | none => s.doGetS (core / 512) l) ∧
        Quiet s (match s.mem.l2.get? (l2Key (core / 512) l) with | some _ => s | none => s.doGetS (core / 512) l) := by
      split
      · exact ⟨h, Quiet.refl s⟩
      · exact (doGetS_request hl hd hpd (h l hl)).mono h
    dsimp only
    split <;> split
    · exact key s ⟨h, Quiet.refl s⟩ _
    · exact key _ ((doGetS_request hl hd hpd (h l hl)).mono h) _
    · exact ⟨h, Quiet.refl s⟩
    · exact (doGetS_request hl hd hpd (h l hl)).mono h

/-- R268: a core that holds no L1 copy reads the line's value. -/
theorem coreLine_value {s : State} {core l : Nat} (alloc : Bool) (hl : l < 2 ^ 45) (hd : core / 512 < 8)
    (hpd : s.probeOk l (core / 512) = true) (h : Coherent s) (hn : s.mem.l1.get? (l1Key core l) = none) :
    (s.coreLine core l alloc).2 = s.mem.lineVal l := by
  unfold State.coreLine
  simp only [hn]
  split
  · rename_i c hc
    simp only [MemSys.dieLine, hc]
    exact (h l hl).copies _ _ hc
  · have r := doGetS_request hl hd hpd (h l hl)
    simp only [MemSys.dieLine]
    split
    · rename_i c hc
      exact (r.ok.copies _ _ hc).trans r.value
    · exact r.value

theorem mem_linesOf {pa n l : Nat} : l ∈ linesOf pa n ↔ 0 < n ∧ pa / 128 ≤ l ∧ l ≤ (pa + n - 1) / 128 := by
  unfold linesOf
  split
  · simp; omega
  · simp only [List.mem_map, List.mem_range]
    constructor
    · rintro ⟨i, hi, rfl⟩; omega
    · rintro ⟨h0, h1, h2⟩; exact ⟨l - pa / 128, by omega, by omega⟩

theorem Reach.mono {s t : State} {die : Nat} {ps : List Piece} (h : Reach s die ps) (q : Quiet s t) : Reach t die ps :=
  fun p hp => ⟨(h p hp).1, (h p hp).2.1, fun l hl => (q.probeOk l die).trans ((h p hp).2.2 l hl)⟩

/-- R268: several pieces read by a core. -/
theorem loadPieces_quiet {core : Nat} (alloc : Bool) (hd : core / 512 < 8) : ∀ (ps : List Piece) (s : State),
    Reach s (core / 512) ps → Coherent s → Coherent (s.loadPieces core alloc ps).1 ∧ Quiet s (s.loadPieces core alloc ps).1
  | [], s, _, h => ⟨h, Quiet.refl s⟩
  | p :: ps, s, hr, h => by
    have hp := hr p (by simp)
    have h1 := coreLine_quiet alloc (l := p.pa / 128) (by omega) hd (hp.2.2 _ (mem_linesOf.mpr (by omega))) h
    have h2 := loadPieces_quiet alloc hd ps _ (fun q hq => (Reach.mono (fun q hq => hr q (by simp [hq])) h1.2) q hq) h1.1
    exact ⟨h2.1, h1.2.trans h2.2⟩

/-- R196: several lanes. -/
theorem loadLanes_quiet {core : Nat} (alloc : Bool) (gs : List Glimpse) (hd : core / 512 < 8) : ∀ (ls : List (Nat × List Piece)) (s : State),
    (∀ x ∈ ls, Reach s (core / 512) x.2) → Coherent s →
    Coherent (State.loadLanes core alloc gs s ls).1 ∧ Quiet s (State.loadLanes core alloc gs s ls).1
  | [], s, _, h => ⟨h, Quiet.refl s⟩
  | (l, ps) :: rest, s, hr, h => by
    have h1 := loadPieces_quiet alloc hd ps s (hr (l, ps) (by simp)) h
    have h2 := loadLanes_quiet alloc gs hd rest _ (fun x hx => (hr x (by simp [hx])).mono h1.2) h1.1
    exact ⟨h2.1, h1.2.trans h2.2⟩

/-- R272: several lines recalled, one after another. -/
theorem recalls_spec : ∀ (ls : List Nat) (s : State), (∀ l ∈ ls, l < 2 ^ 45) → Coherent s →
    let t := ls.foldl (fun s l => s.recall l) s
    Coherent t ∧ Quiet s t ∧ (∀ l < 2 ^ 45, (∀ e, s.mem.dir.get? l = some e → e.owner = none) →
      (∀ d, s.mem.l2.get? (l2Key d l) = none) →
      (∀ e, t.mem.dir.get? l = some e → e.owner = none) ∧ ∀ d, t.mem.l2.get? (l2Key d l) = none) ∧
      ∀ l ∈ ls, (∀ e, t.mem.dir.get? l = some e → e.owner = none) ∧ ∀ d, t.mem.l2.get? (l2Key d l) = none
  | [], s, _, h => ⟨h, Quiet.refl s, fun _ _ h1 h2 => ⟨h1, h2⟩, by simp⟩
  | l :: ls, s, hl, h => by
    have r := recall_recalled (hl l (by simp)) (h l (hl l (by simp)))
    obtain ⟨h1, h2, h3, h4⟩ := recalls_spec ls (s.recall l) (fun x hx => hl x (by simp [hx])) (r.coherent h)
    refine ⟨h1, r.quiet.trans h2, fun l' h' hd hc => ?_, fun l' hm => ?_⟩
    · apply h3 l' h'
      · by_cases e : l' = l
        · subst e; exact r.no_owner
        · rw [(r.others l' h' e).dir]; exact hd
      · intro d
        by_cases e : l' = l
        · subst e; exact r.none_left d
        · rw [(r.others l' h' e).l2]; exact hc d
    · rcases List.mem_cons.mp hm with rfl | hm
      · exact h3 l' (hl l' (by simp)) r.no_owner r.none_left
      · exact h4 l' hm

theorem winDies_invalidate (s : State) (lo n : Nat) (skip : Option (Nat × Nat)) (l : Nat) :
    (s.invalidateWords lo n skip).winDies l false = s.winDies l false := by
  show List.foldl _ _ (List.map _ _) = _
  rw [List.foldl_map]
  rfl

/-- `t` is `s` after bytes `[pa, pa+n)` take the values of `f`: caches, poison and window words apart, nothing else changes. -/
structure Stored (s t : State) (pa n : Nat) (f : Nat → Byte) : Prop where
  coherent : Coherent t
  only : t = { s with mem := t.mem, crews := t.crews }
  bytes : ∀ a, a < 2 ^ 52 → t.mem.byteAt a = if pa ≤ a ∧ a < pa + n then f a else s.mem.byteAt a

theorem Stored.probeOk {s t : State} {pa n : Nat} {f : Nat → Byte} (h : Stored s t pa n f) (l d : Nat) :
    t.probeOk l d = s.probeOk l d := by rw [h.only]; rfl

/-- R267, R272: a write at home. -/
theorem homeWrite_stored {s : State} {pa n : Nat} (f : Nat → Byte) (skip : Option (Nat × Nat)) (hb : pa + n ≤ 2 ^ 52)
    (h : Coherent s) : Stored s (s.homeWrite pa n f skip) pa n f := by
  have hl : ∀ l ∈ linesOf pa n, l < 2 ^ 45 := by
    intro l hl; have := mem_linesOf.mp hl; omega
  obtain ⟨h1, h2, -, h4⟩ := recalls_spec (linesOf pa n) s hl h
  unfold State.homeWrite
  generalize hs1 : (linesOf pa n).foldl (fun s l => s.recall l) s = s1 at h1 h2 h4
  have hram : ∀ a, (MemSys.cleanPoison { s1.mem with ram := s1.mem.ram.update pa n f } pa n).ram.read a =
      if pa ≤ a ∧ a < pa + n then f a else s1.mem.ram.read a := fun a => Memory.read_update _ _ _ _ _
  have hsame : ∀ l, l ∉ linesOf pa n → SameLine s1.mem (MemSys.cleanPoison { s1.mem with ram := s1.mem.ram.update pa n f } pa n) l :=
    fun l hm => ⟨rfl, fun _ => rfl, fun i hi => by
      rw [hram, if_neg]
      intro hh
      exact hm (mem_linesOf.mpr (by omega)), Iff.rfl⟩
  dsimp only
  refine ⟨fun l h45 => ?_, ?_, fun a ha => ?_⟩
  · by_cases hm : l ∈ linesOf pa n
    · obtain ⟨hd, hc⟩ := h4 l hm
      have ok := h1 l h45
      refine ⟨ok.readable, fun e o he => ok.owner e o he, fun e d he => ok.delivered e d he,
        fun d hw => ok.reached d ((congrArg (·.getLsbD d) (winDies_invalidate _ pa n skip l)).symm.trans hw), ok.tracked,
        ok.owned, ok.single, ?_⟩
      intro d c hk
      exact absurd ((hc d).symm.trans hk) (by simp)
    · exact (hsame l hm).lineOk (s := s1) (fun _ => rfl) (winDies_invalidate _ pa n skip l) (h1 l h45)
  · rw [h2.1]; rfl
  · show MemSys.byteAt (MemSys.cleanPoison { s1.mem with ram := s1.mem.ram.update pa n f } pa n) a = _
    rw [← h2.2 a ha]
    by_cases hm : a / 128 ∈ linesOf pa n
    · have e1 : MemSys.byteAt (MemSys.cleanPoison { s1.mem with ram := s1.mem.ram.update pa n f } pa n) a =
          (MemSys.cleanPoison { s1.mem with ram := s1.mem.ram.update pa n f } pa n).ram.read a := by
        simp only [MemSys.byteAt, ownerData_none (m := MemSys.cleanPoison { s1.mem with ram := s1.mem.ram.update pa n f } pa n) (h4 _ hm).1]
      have e2 : s1.mem.byteAt a = s1.mem.ram.read a := by
        simp only [MemSys.byteAt, ownerData_none (h4 _ hm).1]
      rw [e1, e2, hram]
    · rw [byteAt_eq, (hsame _ hm).lineVal, ← byteAt_eq, if_neg]
      intro hh
      exact hm (mem_linesOf.mpr (by omega))

theorem byteOf_patchLine (x : MemLine) (l pa n i : Nat) (f : Nat → Byte) (hi : i < 128) :
    byteOf (patchLine x l pa n f) i =
      if pa ≤ 128 * l + i ∧ 128 * l + i < pa + n then f (128 * l + i) else byteOf x i := by
  refine (byteOf_leNat 128 _ i hi).trans ?_
  simp

/-- R268, R269: one line of a core's write: the die of the line's home writes at home, another die its own copy. -/
def State.writeLine (s : State) (die pa n : Nat) (f : Nat → Byte) (l : Nat) : State :=
  let lo := max pa (128 * l)
  let len := min (pa + n) (128 * l + 128) - lo
  if homeOf l == die then s.homeWrite lo len f
  else
    let s1 := s.doGetM die l
    let s2 := s1.setMem ({ s1.mem with l2 := s1.mem.l2.modify (l2Key die l) fun c =>
      { c with data := patchLine c.data l lo len f } }.cleanPoison lo len)
    s2.invalidateWords lo len

theorem coreWrite_eq (s : State) (core pa n : Nat) (f : Nat → Byte) : ∃ x, s.coreWrite core pa n f =
    let t := (linesOf pa n).foldl (fun s l => s.writeLine (core / 512) pa n f l) s
    t.setMem { t.mem with l1 := x } := ⟨_, rfl⟩

theorem only_of {s s1 : State} (h : s1 = s.setMem s1.mem) (M : MemSys) (lo len : Nat) :
    (s1.setMem M).invalidateWords lo len = { s with mem := ((s1.setMem M).invalidateWords lo len).mem,
                                                    crews := ((s1.setMem M).invalidateWords lo len).crews } := by
  obtain ⟨m, rfl⟩ : ∃ m, s1 = s.setMem m := ⟨_, h⟩
  rfl

theorem writeLine_stored {s : State} {die pa n l : Nat} (f : Nat → Byte) (hl : l ∈ linesOf pa n) (hb : pa + n ≤ 2 ^ 52)
    (hd : die < 8) (hpd : s.probeOk l die = true) (h : Coherent s) :
    Stored s (s.writeLine die pa n f l) (max pa (128 * l)) (min (pa + n) (128 * l + 128) - max pa (128 * l)) f := by
  have hm := mem_linesOf.mp hl
  have h45 : l < 2 ^ 45 := by omega
  unfold State.writeLine
  dsimp only
  generalize hlo : max pa (128 * l) = lo
  generalize hlen : min (pa + n) (128 * l + 128) - lo = len
  split
  · exact homeWrite_stored f none (by omega) h
  · rename_i hh
    have o := doGetM_owned h45 hd (by simpa using hh) hpd (h l h45)
    generalize s.doGetM die l = s1 at o
    obtain ⟨e, he, ho, -⟩ := o.entry
    have hmod : s1.mem.l2.modify (l2Key die l) (fun c => { c with data := patchLine c.data l lo len f }) =
        s1.mem.l2.put (l2Key die l) ⟨.m, patchLine (s.mem.lineVal l) l lo len f⟩ := by
      simp only [Table.modify, o.copy]
    rw [hmod]
    have hcopy := l2_put s1.mem.l2 h45 die die ⟨.m, patchLine (s.mem.lineVal l) l lo len f⟩
    rw [if_pos rfl] at hcopy
    have hone : ∀ d c, (s1.mem.l2.put (l2Key die l) ⟨.m, patchLine (s.mem.lineVal l) l lo len f⟩).get? (l2Key d l) = some c →
        d = die ∧ c = ⟨.m, patchLine (s.mem.lineVal l) l lo len f⟩ := by
      intro d c hc
      by_cases e : d = die
      · subst e; rw [hcopy] at hc; cases hc; exact ⟨rfl, rfl⟩
      · rw [l2_put _ h45, if_neg e, o.alone d e] at hc; cases hc
    obtain ⟨M, hM⟩ : ∃ M, M = MemSys.cleanPoison { s1.mem with
      l2 := s1.mem.l2.put (l2Key die l) ⟨.m, patchLine (s.mem.lineVal l) l lo len f⟩ } lo len := ⟨_, rfl⟩
    have hdir : M.dir = s1.mem.dir := by rw [hM]; rfl
    have hl2 : M.l2 = s1.mem.l2.put (l2Key die l) ⟨.m, patchLine (s.mem.lineVal l) l lo len f⟩ := by rw [hM]; rfl
    have hsame : ∀ l', l' < 2 ^ 45 → l' ≠ l → SameLine s1.mem M l' := fun l' h' hne =>
      ⟨by rw [hdir], fun d => by rw [hl2]; exact Table.get?_put_other _ _ _ _ fun e => hne ((l2Key_inj h' h45).mp e).2,
        fun _ _ => by rw [hM]; rfl, by rw [hM]; rfl⟩
    have hval : M.lineVal l = patchLine (s.mem.lineVal l) l lo len f := by
      obtain ⟨own, sh, pt⟩ := e
      cases ho
      have hd1 : M.dir.get? l = some ⟨some die, sh, pt⟩ := by rw [hdir]; exact he
      have hc1 : M.l2.get? (l2Key die l) = some ⟨.m, patchLine (s.mem.lineVal l) l lo len f⟩ := by rw [hl2]; exact hcopy
      have := lineVal_of_owner M l die sh _ hd1 hc1 (.inl rfl)
      exact this
    rw [← hM]
    refine ⟨fun l' h' => ?_, ?_, fun a ha => ?_⟩
    · by_cases e' : l' = l
      · subst e'
        have ok := o.ok
        refine ⟨by show l' ∉ M.dirBad; rw [hM]; exact ok.readable, ?_, ?_, ?_, ?_, ?_, ?_, ?_⟩
        · intro e o he; exact ok.owner e o (by rw [← hdir]; exact he)
        · intro e d he; exact ok.delivered e d (by rw [← hdir]; exact he)
        · intro d hw; exact ok.reached d ((congrArg (·.getLsbD d) (winDies_invalidate _ lo len none l')).symm.trans hw)
        · intro d c hc
          have := hone d c (by rw [← hl2]; exact hc)
          rw [this.1]
          exact ⟨e, by show M.dir.get? l' = some e; rw [hdir]; exact he, (mem_holders _ _).mpr ⟨hd, .inr ho⟩⟩
        · intro d c e' hc _ he'
          have := hone d c (by rw [← hl2]; exact hc)
          have he'' : s1.mem.dir.get? l' = some e' := by rw [← hdir]; exact he'
          rw [he] at he''; cases he''
          rw [this.1, ho]
        · intro d c d' c' h1 _ h2
          rw [(hone d c (by rw [← hl2]; exact h1)).1, (hone d' c' (by rw [← hl2]; exact h2)).1]
        · intro d c hc
          have := hone d c (by rw [← hl2]; exact hc)
          rw [this.2]; exact hval.symm
      · exact (((o.others l' h' e').trans (hsame l' h' e'))).lineOk (s := s) (fun d => o.probe l' d) ((winDies_invalidate _ lo len none l').trans (o.wins l')) (h l' h')
    · exact only_of o.only M lo len
    · show M.byteAt a = _
      by_cases e' : a / 128 = l
      · rw [byteAt_eq, e', hval, byteOf_patchLine _ _ _ _ _ _ (Nat.mod_lt _ (by omega)), show 128 * l + a % 128 = a by omega,
          byteAt_eq s.mem, e']
      · rw [byteAt_eq, (hsame _ (by omega) e').lineVal, ← byteAt_eq, o.byteAt a ha, if_neg]
        omega

/-- The lines of a write, one after another. -/
theorem writeLines_stored {die pa n : Nat} (f : Nat → Byte) (hb : pa + n ≤ 2 ^ 52) (hd : die < 8) : ∀ (ls : List Nat) (s : State),
    (∀ l ∈ ls, l ∈ linesOf pa n ∧ s.probeOk l die = true) → Coherent s →
    let t := ls.foldl (fun s l => s.writeLine die pa n f l) s
    Coherent t ∧ t = { s with mem := t.mem, crews := t.crews } ∧
      ∀ a, a < 2 ^ 52 → t.mem.byteAt a = if pa ≤ a ∧ a < pa + n ∧ a / 128 ∈ ls then f a else s.mem.byteAt a
  | [], s, _, h => ⟨h, rfl, fun a _ => by simp⟩
  | l :: ls, s, hl, h => by
    have h0 := hl l (by simp)
    have st := writeLine_stored f h0.1 hb hd h0.2 h
    obtain ⟨h1, h2, h3⟩ := writeLines_stored f hb hd ls (s.writeLine die pa n f l)
      (fun x hx => ⟨(hl x (by simp [hx])).1, (st.probeOk x die).trans (hl x (by simp [hx])).2⟩) st.coherent
    refine ⟨h1, by show _ = _; rw [List.foldl_cons, h2, st.only], fun a ha => ?_⟩
    rw [List.foldl_cons, h3 a ha, st.bytes a ha]
    by_cases h4 : pa ≤ a ∧ a < pa + n
    · by_cases h5 : a / 128 = l
      · subst h5
        rw [if_pos (show max pa (128 * (a / 128)) ≤ a ∧ a < max pa (128 * (a / 128)) +
          (min (pa + n) (128 * (a / 128) + 128) - max pa (128 * (a / 128))) by omega), if_pos (show pa ≤ a ∧ a < pa + n ∧ a / 128 ∈ a / 128 :: ls from ⟨h4.1, h4.2, List.mem_cons_self⟩)]
        split <;> rfl
      · rw [if_neg (c := max pa (128 * l) ≤ a ∧ _) (by omega)]
        simp [h4, h5]
    · rw [if_neg (by tauto), if_neg (by omega), if_neg (by tauto)]

/-- R268, R269: the bytes that a core writes, and no others. -/
theorem coreWrite_stored {s : State} {core pa n : Nat} (f : Nat → Byte) (hb : pa + n ≤ 2 ^ 52) (hd : core / 512 < 8)
    (hpd : ∀ l ∈ linesOf pa n, s.probeOk l (core / 512) = true) (h : Coherent s) :
    Stored s (s.coreWrite core pa n f) pa n f := by
  obtain ⟨x, hx⟩ := coreWrite_eq s core pa n f
  obtain ⟨h1, h2, h3⟩ := writeLines_stored f hb hd (linesOf pa n) s (fun l hl => ⟨hl, hpd l hl⟩) h
  rw [hx]
  generalize (linesOf pa n).foldl (fun s l => s.writeLine (core / 512) pa n f l) s = t at h1 h2 h3
  refine ⟨coherent_of_same (s := t) (fun _ _ => rfl) (fun _ => rfl) (fun _ _ => ⟨rfl, fun _ => rfl, fun _ _ => rfl, Iff.rfl⟩) h1, ?_,
    fun a ha => (h3 a ha).trans ?_⟩
  · show t.setMem _ = _
    rw [h2]; rfl
  · by_cases h4 : pa ≤ a ∧ a < pa + n
    · rw [if_pos ⟨h4.1, h4.2, mem_linesOf.mpr (by omega)⟩, if_pos h4]
    · rw [if_neg (by tauto), if_neg h4]

theorem Wrote.trans {s t u : State} {f g : Nat → Byte} (a : Wrote s t f) (b : Wrote t u g) : Wrote s u g :=
  ⟨by rw [b.1, a.1], b.2⟩

theorem Wrote.probeOk {s t : State} {f : Nat → Byte} (h : Wrote s t f) (l d : Nat) : t.probeOk l d = s.probeOk l d := by
  rw [h.1]; rfl

theorem patched_congr : ∀ (ps : List Piece) (bs : List Byte) (f g : Nat → Byte) (a : Nat), f a = g a →
    patched ps bs f a = patched ps bs g a
  | [], _, _, _, _, h => h
  | p :: ps, bs, f, g, a, h => patched_congr ps _ _ _ a (by simp only [h])

theorem patched_outside : ∀ (ps : List Piece) (bs : List Byte) (f : Nat → Byte) (a : Nat),
    (∀ p ∈ ps, ¬ (p.pa ≤ a ∧ a < p.pa + p.len)) → patched ps bs f a = f a
  | [], _, _, _, _ => rfl
  | p :: ps, bs, f, a, h => by
    rw [patched, patched_outside ps _ _ a fun q hq => h q (by simp [hq]), if_neg (h p (by simp))]

/-- R197: the bytes that a core stores to some pieces. -/
theorem storePieces_wrote {core : Nat} (who : Option Nat) (hd : core / 512 < 8) : ∀ (ps : List Piece) (bs : List Byte)
    (s : State), Reach s (core / 512) ps → Coherent s →
    Coherent (s.storePieces core who ps bs) ∧ Wrote s (s.storePieces core who ps bs) (patched ps bs s.mem.byteAt)
  | [], _, s, _, h => ⟨h, rfl, fun _ _ => rfl⟩
  | p :: ps, bs, s, hr, h => by
    obtain ⟨hb, hn, hp⟩ := hr p (by simp)
    have st := coreWrite_stored (bytesFn p.pa (bs.take p.len)) hb hd hp h
    have hw : Wrote s ((s.coreWrite core p.pa p.len (bytesFn p.pa (bs.take p.len))).noteWrite who p.pa p.len)
        (fun a => if p.pa ≤ a ∧ a < p.pa + p.len then bs.getD (a - p.pa) 0 else s.mem.byteAt a) := by
      refine ⟨?_, fun a ha => (st.bytes a ha).trans ?_⟩
      · have ho := st.only
        generalize s.coreWrite core p.pa p.len (bytesFn p.pa (bs.take p.len)) = t at ho
        obtain ⟨m, c, rfl⟩ : ∃ m c, t = { s with mem := m, crews := c } := ⟨_, _, ho⟩
        rfl
      · beta_reduce
        split
        · rename_i h2
          simp only [bytesFn, List.getD_eq_getElem?_getD, List.getElem?_take]
          rw [if_pos (by omega)]
        · rfl
    have ih := storePieces_wrote who hd ps (bs.drop p.len) _ (fun q hq => ⟨(hr q (by simp [hq])).1, (hr q (by simp [hq])).2.1,
      fun l hl => (hw.probeOk l _).trans ((hr q (by simp [hq])).2.2 l hl)⟩)
      (coherent_of_same (s := s.coreWrite core p.pa p.len (bytesFn p.pa (bs.take p.len))) (fun _ _ => rfl) (fun _ => rfl)
        (fun _ _ => ⟨rfl, fun _ => rfl, fun _ _ => rfl, Iff.rfl⟩) st.coherent)
    refine ⟨ih.1, (hw.trans ih.2).1, fun a ha => ((hw.trans ih.2).2 a ha).trans ?_⟩
    rw [patched]
    exact patched_congr _ _ _ _ _ (hw.2 a ha)

/-- R197: the bytes that the lanes of a vector store leave, in increasing order of lane. -/
theorem storeLanes_wrote {core : Nat} (who : Option Nat) (hd : core / 512 < 8) (data : Nat → List Byte) :
    ∀ (ls : List (Nat × List Piece)) (s : State), (∀ x ∈ ls, Reach s (core / 512) x.2) → Coherent s →
    let t := ls.foldl (fun s x => s.storePieces core who x.2 (data x.1)) s
    Coherent t ∧ Wrote s t (ls.foldl (fun f x => patched x.2 (data x.1) f) s.mem.byteAt)
  | [], s, _, h => ⟨h, rfl, fun _ _ => rfl⟩
  | x :: ls, s, hr, h => by
    have h1 := storePieces_wrote who hd x.2 (data x.1) s (hr x (by simp)) h
    have ih := storeLanes_wrote who hd data ls (s.storePieces core who x.2 (data x.1))
      (fun y hy p hp => ⟨(hr y (by simp [hy]) p hp).1, (hr y (by simp [hy]) p hp).2.1,
        fun l hl => (h1.2.probeOk l _).trans ((hr y (by simp [hy]) p hp).2.2 l hl)⟩) h1.1
    refine ⟨ih.1, (h1.2.trans ih.2).1, fun a ha => (ih.2.2 a ha).trans ?_⟩
    have : ∀ (ls : List (Nat × List Piece)) (f g : Nat → Byte), f a = g a →
        ls.foldl (fun f x => patched x.2 (data x.1) f) f a = ls.foldl (fun f x => patched x.2 (data x.1) f) g a := by
      intro ls
      induction ls with
      | nil => exact fun _ _ h => h
      | cons y ys ih => exact fun f g h => ih _ _ (patched_congr _ _ _ _ _ h)
    exact this ls _ _ (h1.2.2 a ha)

end Sys2Proof.Machine
end

