-- ==== Sys2Proof/Laws/Ops.lean ====
section
/-!
SUPPORT. The frame that every instruction of a wave runs in: what it answers when nothing stands in its way, what it can
answer at all, and how the effect of an instruction on its wave composes (`Body`, from which `Framed` follows).
-/
namespace Sys2Proof.Machine

/-- The executing fragment is a live fragment of a wave. -/
theorem here_spec {s : State} {h : Here} (e : s.here = some h) :
    s.waves.get? h.key = some h.w ∧ h.w.status = .live ∧ h.w.frag h.side = some h.f ∧ s.cur = some (.frag h.key h.side) := by
  unfold State.here at e
  split at e
  · rename_i k side hc
    unfold State.fragment at e
    split at e
    · rename_i w hw
      split at e
      · rename_i f hs hf
        cases e
        exact ⟨hw, hs, hf, hc⟩
      · cases e
    · cases e
  · cases e

theorem onWave_of_here {s : State} {h : Here} (e : s.here = some h) (g : Guard) (u : Uses)
    (k : Here → Except Abort State) :
    onWave g u s k = h.finish (h.settle s (h.check s (h.part g) u >>= fun _ => k h)) := by
  simp [onWave, e]

/-- An instruction of a wave answers the next state in which it completes, adjourns its wave, or holds it (at issue by `hazard`); it faults only by
a stop of its meaning, and is refused only when nothing executes. -/
theorem onWave_next {s t : State} {g : Guard} {u : Uses} {k : Here → Except Abort State} (e : onWave g u s k = .next t) :
    ∃ h, s.here = some h ∧
      ((∃ a, h.check s (h.part g) u = .ok a ∧ k h = .ok t) ∨
        (∃ (r : Report) (s1 : State), t = s1.adjourn h.key h.side r) ∨ h.hazard s = .hold t ∨
        ∃ a, h.check s (h.part g) u = .ok a ∧ k h = .error (.hold t)) := by
  unfold onWave at e
  split at e
  · cases e
  rename_i h hh
  refine ⟨h, hh, ?_⟩
  cases hc : h.check s (h.part g) u with
  | error x =>
    simp only [hc, bind, Except.bind] at e
    cases x with
    | trap r s1 =>
      simp only [Here.settle] at e
      split at e <;> simp only [Here.finish] at e <;> cases e
      · exact .inr (.inr (.inl rfl))
      · exact .inr (.inl ⟨_, _, rfl⟩)
    | hold s1 =>
      simp only [Here.settle, Here.finish] at e
      cases e
      refine .inr (.inr (.inl ?_))
      unfold Here.check at hc
      split at hc
      · cases hc
      · split at hc
        · injection hc
        · unfold Here.ecc at hc; split at hc <;> cases hc
    | stop x => simp [Here.settle, Here.finish] at e
  | ok a =>
    simp only [hc, bind, Except.bind] at e
    cases hk : k h with
    | ok s1 =>
      simp only [hk, Here.settle, Here.finish] at e
      cases e
      exact .inl ⟨a, rfl, rfl⟩
    | error x =>
      cases x with
      | trap r s1 =>
        simp only [hk, Here.settle] at e
        split at e <;> simp only [Here.finish] at e <;> cases e
        · exact .inr (.inr (.inl rfl))
        · exact .inr (.inl ⟨_, _, rfl⟩)
      | hold s1 =>
        simp only [hk, Here.settle, Here.finish] at e
        cases e
        exact .inr (.inr (.inr ⟨a, rfl, rfl⟩))
      | stop x => simp [hk, Here.settle, Here.finish] at e

/-- R57, R76, R316: with nothing in its way an instruction that names only the registers `rs` passes the checks. -/
theorem Clear.check {s : State} {h : Here} {rs : List Nat} (c : Clear s h rs) (m : Lanes) (u : Uses)
    (hu : ∀ r ∈ u.vr ++ u.nm ++ u.vw, r ∈ rs)
    (hi : u.indexed = false ∨ ∀ x ∈ s.stores.preds, x.2.wave ≠ h.key) : h.check s m u = .ok () := by
  have h1 : u.inRange h.w.n = true := by
    simp only [Uses.inRange, List.all_eq_true, decide_eq_true_eq]
    exact fun r hr => c.exist r (hu r hr)
  have h2 : s.scoreboard h.key u = false := by
    simp only [State.scoreboard, List.any_eq_false, Bool.and_eq_true, beq_iff_eq, not_and, Bool.or_eq_true, not_or,
      List.contains_iff_mem]
    intro x hx e
    refine ⟨?_, fun hd => c.board x hx e (hu _ hd)⟩
    rcases hi with hi | hi
    · simp [hi]
    · exact absurd e (hi x hx)
  have h3 : (u.codes m).find? (fun c => h.w.bad.contains c) = none := by
    simp [c.words]
  simp only [Here.check, h1, h2, Here.ecc, h3, Bool.not_true, Bool.false_eq_true, if_false]

/-- An instruction of a wave that meets no obstacle and whose meaning gives a state answers that state. -/
theorem Clear.onWave_ok {s t : State} {h : Here} {rs : List Nat} (c : Clear s h rs) (g : Guard) (u : Uses)
    (k : Here → Except Abort State) (hu : ∀ r ∈ u.vr ++ u.nm ++ u.vw, r ∈ rs)
    (hi : u.indexed = false ∨ ∀ x ∈ s.stores.preds, x.2.wave ≠ h.key) (hk : k h = .ok t) : onWave g u s k = .next t := by
  simp [onWave_of_here c.here, c.check (h.part g) u hu hi, hk, bind, Except.bind, Here.settle, Here.finish]

/-- The same where the meaning meets a cause and nothing of the wave must finish first. -/
theorem Clear.onWave_trap {s s1 : State} {h : Here} {rs : List Nat} (c : Clear s h rs) (g : Guard) (u : Uses)
    (k : Here → Except Abort State) (hu : ∀ r ∈ u.vr ++ u.nm ++ u.vw, r ∈ rs)
    (hi : u.indexed = false ∨ ∀ x ∈ s.stores.preds, x.2.wave ≠ h.key) {r : Report} (hw : h.w.mustWait s h.key = false)
    (hk : k h = .error (.trap r s1)) : onWave g u s k = .next (s1.adjourn h.key h.side r) := by
  simp [onWave_of_here c.here, c.check (h.part g) u hu hi, hk, bind, Except.bind, Here.settle, Here.finish, hw]

/-- What `Kept` says, before the fragment goes on: the wave `w` differs from the executing wave in nothing but `x`. -/
structure Body (h : Here) (x : Writes) (w : Wave) : Prop where
  vector : ∀ r l, l < 96 → (r ∉ x.v ∨ x.m.getLsbD l = false) → w.readV r l = h.w.readV r l
  scalar : ∀ r, r < 60 → r ∉ x.s → w.s.read r = h.w.s.read r
  predicate : ∀ r l, l < 96 → (r ∉ x.p ∨ x.m.getLsbD l = false) → (w.readP r).getLsbD l = (h.w.readP r).getLsbD l
  flags : x.flags = false → w.flags = h.w.flags
  mode : x.mode = false → w.mode = h.w.mode
  other : w.frag (!h.side) = h.w.frag (!h.side)
  fragment : ∃ f, w.frag h.side = some f ∧ f.pc = h.f.pc ∧ f.fetch = h.f.fetch ∧ f.owned = h.f.owned ∧
    f.recon = h.f.recon ∧ (x.z = false → f.z = h.f.z) ∧
    ∀ l, l < 96 → 60 + l / 32 ∉ x.s → f.mask.getLsbD l = h.f.mask.getLsbD l
  rest : { w with s := h.w.s, v := h.w.v, p := h.w.p, mode := h.w.mode, flags := h.w.flags, fa := h.w.fa, fb := h.w.fb } = h.w
  words : w.bad = []

theorem Body.refl {s : State} {h : Here} {rs : List Nat} (c : Clear s h rs) (x : Writes) : Body h x h.w where
  vector _ _ _ _ := rfl
  scalar _ _ _ := rfl
  predicate _ _ _ _ := rfl
  flags _ := rfl
  mode _ := rfl
  other := rfl
  fragment := ⟨h.f, (here_spec c.here).2.2.1, rfl, rfl, rfl, rfl, fun _ => rfl, fun _ _ _ => rfl⟩
  rest := rfl
  words := c.words

theorem Body.writeV {h : Here} {x : Writes} {w : Wave} (b : Body h x w) (r : Nat) (m : Lanes) (f : Nat → W32)
    (hr : r ∈ x.v) (hm : ∀ l, l < 96 → m.getLsbD l = true → x.m.getLsbD l = true) : Body h x (w.writeV r m f) where
  vector r' l hl ho := by
    rw [Wave.readV_writeV _ _ _ _ _ _ hl, if_neg, b.vector r' l hl ho]
    rintro ⟨rfl, hm'⟩
    rcases ho with ho | ho
    · exact ho hr
    · simp [hm l hl hm'] at ho
  scalar := b.scalar
  predicate := b.predicate
  flags := b.flags
  mode := b.mode
  other := b.other
  fragment := b.fragment
  rest := by
    rw [← b.rest]
    simp only [Wave.writeV, b.words, List.filter_nil]
  words := by simp [Wave.writeV, b.words]

theorem Body.writeP {h : Here} {x : Writes} {w : Wave} (b : Body h x w) (r : Nat) (m v : Lanes) (hr : r ∈ x.p ∨ r = 15)
    (hm : ∀ l, l < 96 → m.getLsbD l = true → x.m.getLsbD l = true) : Body h x (w.writeP r m v) where
  vector r' l hl ho := by rw [Wave.readV_writeP, b.vector r' l hl ho]
  scalar r' h60 h' := by rw [Wave.writeP_s, b.scalar r' h60 h']
  predicate r' l hl ho := by
    rw [Wave.readP_writeP]
    split
    · rename_i e
      obtain ⟨rfl, h15⟩ := e
      have hml : m.getLsbD l = false := by
        rcases ho with ho | ho
        · exact absurd (hr.resolve_right h15) ho
        · by_contra hc; simp [hm l hl (by simpa using hc)] at ho
      rw [← b.predicate r' l hl ho]
      simp only [BitVec.getLsbD_or, BitVec.getLsbD_and, BitVec.getLsbD_not, hml, hl]; simp
    · exact b.predicate r' l hl ho
  flags e := by rw [Wave.writeP_flags, b.flags e]
  mode e := by rw [Wave.writeP_mode, b.mode e]
  other := by rw [← b.other]; unfold Wave.writeP; split <;> rfl
  fragment := by
    have := b.fragment
    unfold Wave.writeP; split <;> exact this
  rest := by
    rw [← b.rest]
    unfold Wave.writeP
    split
    · rfl
    · simp only [b.words, List.filter_nil]
  words := by
    unfold Wave.writeP
    split
    · exact b.words
    · simp [b.words]

theorem Body.raised {h : Here} {x : Writes} {w : Wave} (b : Body h x w) (fl : Flags) (z : W32)
    (hf : x.flags = true) (hz : x.z = true ∨ z = h.f.z) : Body h x (w.raised h.side fl z) := by
  obtain ⟨f, e, e1, e2, e3, e4, e5, e6⟩ := b.fragment
  have e' : Wave.frag { w with flags := w.flags ||| fl } h.side = some f := e
  unfold Wave.raised
  simp only [e']
  refine ⟨fun r l hl ho => ?_, fun r h60 hr => ?_, fun r l hl ho => ?_, fun a => ?_, fun a => ?_, ?_, ?_, ?_, ?_⟩
  · rw [← b.vector r l hl ho]; cases h.side <;> rfl
  · rw [← b.scalar r h60 hr]; cases h.side <;> rfl
  · rw [← b.predicate r l hl ho]; cases h.side <;> rfl
  · simp [hf] at a
  · rw [← b.mode a]; cases h.side <;> rfl
  · rw [← b.other]; cases h.side <;> rfl
  · refine ⟨{ f with z }, by cases h.side <;> rfl, e1, e2, e3, e4, fun a => ?_, e6⟩
    rcases hz with hz | hz
    · simp [hz] at a
    · exact hz
  · refine Eq.trans ?_ b.rest; cases h.side <;> rfl
  · rw [← b.words]; cases h.side <;> rfl

theorem Fragment.setEm_mask (f : Fragment) (i : Nat) (v : W64) (l : Nat) (hl : l < 96) (hi : i < 3) (h : l / 32 ≠ i) :
    (f.setEm i v).mask.getLsbD l = f.mask.getLsbD l := by
  have h1 : (beatMask i).getLsbD l = false := by rw [beatMask_bit i l hi hl, decide_eq_false h]
  have h2 : ((((v.setWidth 32).setWidth 96 : Lanes) <<< (32 * i))).getLsbD l = false := by
    rw [BitVec.getLsbD_shiftLeft, BitVec.getLsbD_setWidth, BitVec.getLsbD_setWidth]
    by_cases h3 : l < 32 * i
    · simp [h3]
    · have : ¬ l - 32 * i < 32 := by omega
      simp [this]
  simp only [Fragment.setEm, BitVec.getLsbD_or, BitVec.getLsbD_and, BitVec.getLsbD_not, h1, h2, hl]; simp

theorem Body.writeS {h : Here} {x : Writes} {w : Wave} (b : Body h x w) (r : Nat) (v : W64) (hr : r ∈ x.s ∨ 63 ≤ r) :
    Body h x (w.writeS h.side r v) := by
  obtain ⟨f, e, e1, e2, e3, e4, e5, e6⟩ := b.fragment
  have hx : ∀ r', r' < 60 → r' ∉ x.s → r < 60 → r' ≠ r := by
    rintro r' - hn h60 rfl
    rcases hr with hr | hr
    · exact hn hr
    · omega
  by_cases h60 : r < 60
  · have : w.writeS h.side r v = { w with s := w.s.write r v, bad := w.bad.filter (· != 1000 + r) } := by
      simp [Wave.writeS, h60]
    rw [this]
    refine ⟨b.vector, fun r' a c => ?_, b.predicate, b.flags, b.mode, b.other, b.fragment, ?_, by simp [b.words]⟩
    · simp only [Cells.read_write, hx r' a c h60, if_false]; exact b.scalar r' a c
    · rw [← b.rest]; simp [b.words]
  · by_cases h63 : r < 63
    · have : w.writeS h.side r v = w.setFrag h.side (some (f.setEm (r - 60) v)) := by simp [Wave.writeS, h60, h63, e]
      rw [this]
      refine ⟨fun r l hl ho => ?_, fun r h60 hr => ?_, fun r l hl ho => ?_, fun a => ?_, fun a => ?_, ?_, ?_, ?_, ?_⟩
      · rw [← b.vector r l hl ho]; cases h.side <;> rfl
      · rw [← b.scalar r h60 hr]; cases h.side <;> rfl
      · rw [← b.predicate r l hl ho]; cases h.side <;> rfl
      · rw [← b.flags a]; cases h.side <;> rfl
      · rw [← b.mode a]; cases h.side <;> rfl
      · rw [← b.other]; cases h.side <;> rfl
      · refine ⟨f.setEm (r - 60) v, by cases h.side <;> rfl, e1, e2, e3, e4, e5, fun l hl ho => ?_⟩
        rw [Fragment.setEm_mask _ _ _ _ hl (by omega), e6 l hl ho]
        rintro hh
        rcases hr with hr | hr
        · exact ho (by rw [hh]; convert hr using 1; omega)
        · omega
      · refine Eq.trans ?_ b.rest; cases h.side <;> rfl
      · rw [← b.words]; cases h.side <;> rfl
    · have : w.writeS h.side r v = w := by simp [Wave.writeS, h60, h63]
      rw [this]; exact b

theorem Body.writeV64 {h : Here} {x : Writes} {w : Wave} (b : Body h x w) (r : Nat) (m : Lanes) (f : Nat → W64)
    (hr : r ∈ x.v) (hr1 : r + 1 ∈ x.v) (hm : ∀ l, l < 96 → m.getLsbD l = true → x.m.getLsbD l = true) :
    Body h x (w.writeV64 r m f) := (b.writeV r m _ hr hm).writeV _ m _ hr1 hm

theorem Body.writeElems {h : Here} {x : Writes} {w : Wave} (b : Body h x w) (t : Ty) (r : Nat) (m : Lanes)
    (f : Nat → Nat → Nat) (hr : ∀ r' ∈ regsOf t r, r' ∈ x.v)
    (hm : ∀ l, l < 96 → m.getLsbD l = true → x.m.getLsbD l = true) : Body h x (w.writeElems t.width r m f) := by
  unfold regsOf at hr
  unfold Wave.writeElems
  split
  · rename_i e
    simp only [e, if_true, List.mem_cons, List.not_mem_nil, or_false] at hr
    exact b.writeV64 _ _ _ (hr r (.inl rfl)) (hr (r + 1) (.inr rfl)) hm
  · rename_i e
    simp only [e, if_false, List.mem_cons, List.not_mem_nil, or_false] at hr
    exact b.writeV _ _ _ (hr r rfl) hm

/-- The frame of an instruction that completes: what its effect on the wave keeps is kept. -/
theorem Body.framed {s : State} {h : Here} {x : Writes} (g : Wave → Wave) (b : Body h x (g h.w)) :
    Framed s (h.done s g) h x := by
  obtain ⟨f, e, e1, e2, e3, e4, e5, e6⟩ := b.fragment
  refine ⟨⟨_, rfl, ?_⟩, fun _ => rfl⟩
  simp only [e, Option.getD_some]
  refine ⟨fun r l hl ho => ?_, fun r h60 hr => ?_, fun r l hl ho => ?_, fun a => ?_, fun a => ?_, ?_, ?_, ?_⟩
  · rw [← b.vector r l hl ho]; cases h.side <;> rfl
  · rw [← b.scalar r h60 hr]; cases h.side <;> rfl
  · rw [← b.predicate r l hl ho]; cases h.side <;> rfl
  · rw [← b.flags a]; cases h.side <;> rfl
  · rw [← b.mode a]; cases h.side <;> rfl
  · rw [← b.other]; cases h.side <;> rfl
  · refine ⟨f.advance, by cases h.side <;> rfl, ?_, e3, e4, rfl, e5, e6⟩
    simp only [Fragment.advance, e1, e2]
  · refine Eq.trans ?_ b.rest; cases h.side <;> rfl

end Sys2Proof.Machine
end

