-- ==== Sys2Proof/Laws/PerInstr.lean ====
section
/-!
SUPPORT. One lemma per constructor of `Instr`: every opcode that the encoder writes is assigned by the opcode map (R101).
-/
namespace Sys2Proof.Laws.Coded

/-- R101: how many minor opcodes each class assigns. -/
def minors : List Nat := [14, 2, 13, 3, 3, 9, 16, 13, 5, 7, 10, 10, 6, 10, 10, 16]

/-- R101: the opcode map assigns the opcode. -/
def assigned (op : BitVec 8) : Bool := op.toNat % 16 < minors.getD (op.toNat / 16) 0

/-- The word of the instruction, if it has one, has an assigned opcode. -/
def Statement (i : Instr) : Prop := ∀ f, encodeFields i = some f → assigned f.op = true

theorem of_op {f : Fields} {n : Nat} (h : f.op = n8 n) (ha : assigned (n8 n) = true) : assigned f.op = true := by
  rw [h]; exact ha

theorem nop : Statement .nop := fun _ h => by cases h; exact of_op rfl (by decide)
theorem br (t : W32) : Statement (.br t) := fun _ h => by cases h; exact of_op rfl (by decide)
theorem brcNeS (a : BitVec 6) (t : W32) : Statement (.brcNeS a t) := fun _ h => by cases h; exact of_op rfl (by decide)
theorem brcEqS (a : BitVec 6) (t : W32) : Statement (.brcEqS a t) := fun _ h => by cases h; exact of_op rfl (by decide)
theorem brcAnyP (b : BitVec 4) (t : W32) : Statement (.brcAnyP b t) := fun _ h => by cases h; exact of_op rfl (by decide)
theorem brcAllP (b : BitVec 4) (t : W32) : Statement (.brcAllP b t) := fun _ h => by cases h; exact of_op rfl (by decide)
theorem brcNoneP (b : BitVec 4) (t : W32) : Statement (.brcNoneP b t) := fun _ h => by cases h; exact of_op rfl (by decide)
theorem brv (b : BitVec 4) (t : W32) (j : BitVec 24) : Statement (.brv b t j) := fun _ h => by cases h; exact of_op rfl (by decide)
theorem join : Statement .join := fun _ h => by cases h; exact of_op rfl (by decide)
theorem call (d : BitVec 6) (t : W32) : Statement (.call d t) := fun _ h => by cases h; exact of_op rfl (by decide)
theorem calli (d : BitVec 6) (a : BitVec 8) : Statement (.calli d a) := fun _ h => by cases h; exact of_op rfl (by decide)
theorem ret (a : BitVec 6) : Statement (.ret a) := fun _ h => by cases h; exact of_op rfl (by decide)
theorem jmp (a : BitVec 6) (e : W32) : Statement (.jmp a e) := fun _ h => by cases h; exact of_op rfl (by decide)
theorem endF : Statement .endF := fun _ h => by cases h; exact of_op rfl (by decide)
theorem yield : Statement .yield := fun _ h => by cases h; exact of_op rfl (by decide)
theorem brk (e : BitVec 8) : Statement (.brk e) := fun _ h => by cases h; exact of_op rfl (by decide)
theorem sleep (e : W32) : Statement (.sleep e) := fun _ h => by cases h; exact of_op rfl (by decide)
theorem timeWaitExpiry (w : Nat) (b : Bool) : Statement (.timeWaitExpiry w b) := fun _ h => by cases h
theorem rgn (a : BitVec 8) (m : W32) : Statement (.rgn a m) := fun _ h => by cases h; exact of_op rfl (by decide)
theorem add (o : SInt) : Statement (.add o) := by
  intro f h
  cases h
  cases hb : o.b <;> simp only [sintFields, hb] <;> exact of_op rfl (by decide)
theorem sub (o : SInt) : Statement (.sub o) := by
  intro f h
  cases h
  cases hb : o.b <;> simp only [sintFields, hb] <;> exact of_op rfl (by decide)
theorem mul (o : SInt) : Statement (.mul o) := by
  intro f h
  cases h
  cases hb : o.b <;> simp only [sintFields, hb] <;> exact of_op rfl (by decide)
theorem mulh (o : SInt) : Statement (.mulh o) := by
  intro f h
  cases h
  cases hb : o.b <;> simp only [sintFields, hb] <;> exact of_op rfl (by decide)
theorem mad (o : SInt) : Statement (.mad o) := by
  intro f h
  cases h
  cases hb : o.b <;> simp only [sintFields, hb] <;> exact of_op rfl (by decide)
theorem div (o : SInt) : Statement (.div o) := by
  intro f h
  cases h
  cases hb : o.b <;> simp only [sintFields, hb] <;> exact of_op rfl (by decide)
theorem rem (o : SInt) : Statement (.rem o) := by
  intro f h
  cases h
  cases hb : o.b <;> simp only [sintFields, hb] <;> exact of_op rfl (by decide)
theorem and (o : SInt) : Statement (.and o) := by
  intro f h
  cases h
  cases hb : o.b <;> simp only [sintFields, hb] <;> exact of_op rfl (by decide)
theorem or (o : SInt) : Statement (.or o) := by
  intro f h
  cases h
  cases hb : o.b <;> simp only [sintFields, hb] <;> exact of_op rfl (by decide)
theorem xor (o : SInt) : Statement (.xor o) := by
  intro f h
  cases h
  cases hb : o.b <;> simp only [sintFields, hb] <;> exact of_op rfl (by decide)
theorem shl (o : SInt) : Statement (.shl o) := by
  intro f h
  cases h
  cases hb : o.b <;> simp only [sintFields, hb] <;> exact of_op rfl (by decide)
theorem shr (o : SInt) : Statement (.shr o) := by
  intro f h
  cases h
  cases hb : o.b <;> simp only [sintFields, hb] <;> exact of_op rfl (by decide)
theorem sar (o : SInt) : Statement (.sar o) := by
  intro f h
  cases h
  cases hb : o.b <;> simp only [sintFields, hb] <;> exact of_op rfl (by decide)
theorem min (o : SInt) : Statement (.min o) := by
  intro f h
  cases h
  cases hb : o.b <;> simp only [sintFields, hb] <;> exact of_op rfl (by decide)
theorem max (o : SInt) : Statement (.max o) := by
  intro f h
  cases h
  cases hb : o.b <;> simp only [sintFields, hb] <;> exact of_op rfl (by decide)
theorem clz (ty : Ty) (d a : BitVec 6) : Statement (.clz ty d a) := fun _ h => by cases h; exact of_op rfl (by decide)
theorem popc (ty : Ty) (d a : BitVec 6) : Statement (.popc ty d a) := fun _ h => by cases h; exact of_op rfl (by decide)
theorem brev (ty : Ty) (d a : BitVec 6) : Statement (.brev ty d a) := fun _ h => by cases h; exact of_op rfl (by decide)
theorem bfe (ty : Ty) (d a : BitVec 6) (pos : BitVec 6) (len : BitVec 7) : Statement (.bfe ty d a pos len) := fun _ h => by cases h; exact of_op rfl (by decide)
theorem bfi (d a b : BitVec 6) (pos : BitVec 6) (len : BitVec 7) : Statement (.bfi d a b pos len) := fun _ h => by cases h; exact of_op rfl (by decide)
theorem cmp (cc : ICond) (ty : Ty) (d a b : BitVec 6) : Statement (.cmp cc ty d a b) := fun _ h => by cases h; exact of_op rfl (by decide)
theorem sel (d a b c : BitVec 6) : Statement (.sel d a b c) := fun _ h => by cases h; exact of_op rfl (by decide)
theorem mov (d a : BitVec 6) : Statement (.mov d a) := fun _ h => by cases h; exact of_op rfl (by decide)
theorem movi (d : BitVec 6) (e : W32) : Statement (.movi d e) := fun _ h => by cases h; exact of_op rfl (by decide)
theorem movh (d : BitVec 6) (e : W32) : Statement (.movh d e) := fun _ h => by cases h; exact of_op rfl (by decide)
theorem lea (d a b : BitVec 6) (sh : BitVec 3) (disp : BitVec 24) : Statement (.lea d a b sh disp) := fun _ h => by cases h; exact of_op rfl (by decide)
theorem srd (d : BitVec 6) (x : SReg) : Statement (.srd d x) := fun _ h => by cases h; exact of_op rfl (by decide)
theorem swrMode (a : BitVec 6) : Statement (.swrMode a) := fun _ h => by cases h; exact of_op rfl (by decide)
theorem swrFlags (a : BitVec 6) : Statement (.swrFlags a) := fun _ h => by cases h; exact of_op rfl (by decide)
theorem cvts (src : Ty) (o : SFlt) : Statement (.cvts src o) := fun _ h => by cases h; exact of_op rfl (by decide)
theorem sfadd (o : SFlt) : Statement (.sfadd o) := fun _ h => by cases h; exact of_op rfl (by decide)
theorem sfmul (o : SFlt) : Statement (.sfmul o) := fun _ h => by cases h; exact of_op rfl (by decide)
theorem sffma (o : SFlt) : Statement (.sffma o) := fun _ h => by cases h; exact of_op rfl (by decide)
theorem vadd (o : VOp) : Statement (.vadd o) := by
  intro f h
  cases h
  cases hb : o.b <;> simp only [vopFields, srcvFields, hb] <;> exact of_op rfl (by decide)
theorem vsub (o : VOp) : Statement (.vsub o) := by
  intro f h
  cases h
  cases hb : o.b <;> simp only [vopFields, srcvFields, hb] <;> exact of_op rfl (by decide)
theorem vmul (o : VOp) : Statement (.vmul o) := by
  intro f h
  cases h
  cases hb : o.b <;> simp only [vopFields, srcvFields, hb] <;> exact of_op rfl (by decide)
theorem vmulh (o : VOp) : Statement (.vmulh o) := by
  intro f h
  cases h
  cases hb : o.b <;> simp only [vopFields, srcvFields, hb] <;> exact of_op rfl (by decide)
theorem vmad (o : VOp) : Statement (.vmad o) := by
  intro f h
  cases h
  cases hb : o.b <;> simp only [vopFields, srcvFields, hb] <;> exact of_op rfl (by decide)
theorem vdiv (o : VOp) : Statement (.vdiv o) := by
  intro f h
  cases h
  cases hb : o.b <;> simp only [vopFields, srcvFields, hb] <;> exact of_op rfl (by decide)
theorem vand (o : VOp) : Statement (.vand o) := by
  intro f h
  cases h
  cases hb : o.b <;> simp only [vopFields, srcvFields, hb] <;> exact of_op rfl (by decide)
theorem vor (o : VOp) : Statement (.vor o) := by
  intro f h
  cases h
  cases hb : o.b <;> simp only [vopFields, srcvFields, hb] <;> exact of_op rfl (by decide)
theorem vxor (o : VOp) : Statement (.vxor o) := by
  intro f h
  cases h
  cases hb : o.b <;> simp only [vopFields, srcvFields, hb] <;> exact of_op rfl (by decide)
theorem vshl (o : VOp) : Statement (.vshl o) := by
  intro f h
  cases h
  cases hb : o.b <;> simp only [vopFields, srcvFields, hb] <;> exact of_op rfl (by decide)
theorem vshr (o : VOp) : Statement (.vshr o) := by
  intro f h
  cases h
  cases hb : o.b <;> simp only [vopFields, srcvFields, hb] <;> exact of_op rfl (by decide)
theorem vsar (o : VOp) : Statement (.vsar o) := by
  intro f h
  cases h
  cases hb : o.b <;> simp only [vopFields, srcvFields, hb] <;> exact of_op rfl (by decide)
theorem vmin (o : VOp) : Statement (.vmin o) := by
  intro f h
  cases h
  cases hb : o.b <;> simp only [vopFields, srcvFields, hb] <;> exact of_op rfl (by decide)
theorem vmax (o : VOp) : Statement (.vmax o) := by
  intro f h
  cases h
  cases hb : o.b <;> simp only [vopFields, srcvFields, hb] <;> exact of_op rfl (by decide)
theorem vabs (o : VOp) : Statement (.vabs o) := by
  intro f h
  cases h
  cases hb : o.b <;> simp only [vopFields, srcvFields, hb] <;> exact of_op rfl (by decide)
theorem vbfe (o : VOp) : Statement (.vbfe o) := by
  intro f h
  cases h
  cases hb : o.b <;> simp only [vopFields, srcvFields, hb] <;> exact of_op rfl (by decide)
theorem vbfi (o : VOp) : Statement (.vbfi o) := by
  intro f h
  cases h
  cases hb : o.b <;> simp only [vopFields, srcvFields, hb] <;> exact of_op rfl (by decide)
theorem vclz (o : VOp) : Statement (.vclz o) := by
  intro f h
  cases h
  cases hb : o.b <;> simp only [vopFields, srcvFields, hb] <;> exact of_op rfl (by decide)
theorem vpopc (o : VOp) : Statement (.vpopc o) := by
  intro f h
  cases h
  cases hb : o.b <;> simp only [vopFields, srcvFields, hb] <;> exact of_op rfl (by decide)
theorem fadd (o : VOp) : Statement (.fadd o) := by
  intro f h
  cases h
  cases hb : o.b <;> simp only [vopFields, srcvFields, hb] <;> exact of_op rfl (by decide)
theorem fsub (o : VOp) : Statement (.fsub o) := by
  intro f h
  cases h
  cases hb : o.b <;> simp only [vopFields, srcvFields, hb] <;> exact of_op rfl (by decide)
theorem fmul (o : VOp) : Statement (.fmul o) := by
  intro f h
  cases h
  cases hb : o.b <;> simp only [vopFields, srcvFields, hb] <;> exact of_op rfl (by decide)
theorem ffma (o : VOp) : Statement (.ffma o) := by
  intro f h
  cases h
  cases hb : o.b <;> simp only [vopFields, srcvFields, hb] <;> exact of_op rfl (by decide)
theorem fdiv (o : VOp) : Statement (.fdiv o) := by
  intro f h
  cases h
  cases hb : o.b <;> simp only [vopFields, srcvFields, hb] <;> exact of_op rfl (by decide)
theorem fsqrt (o : VOp) : Statement (.fsqrt o) := by
  intro f h
  cases h
  cases hb : o.b <;> simp only [vopFields, srcvFields, hb] <;> exact of_op rfl (by decide)
theorem frcp (o : VOp) : Statement (.frcp o) := by
  intro f h
  cases h
  cases hb : o.b <;> simp only [vopFields, srcvFields, hb] <;> exact of_op rfl (by decide)
theorem frsq (o : VOp) : Statement (.frsq o) := by
  intro f h
  cases h
  cases hb : o.b <;> simp only [vopFields, srcvFields, hb] <;> exact of_op rfl (by decide)
theorem fldexp (o : VOp) : Statement (.fldexp o) := by
  intro f h
  cases h
  cases hb : o.b <;> simp only [vopFields, srcvFields, hb] <;> exact of_op rfl (by decide)
theorem frint (o : VOp) : Statement (.frint o) := by
  intro f h
  cases h
  cases hb : o.b <;> simp only [vopFields, srcvFields, hb] <;> exact of_op rfl (by decide)
theorem fmin (o : VOp) : Statement (.fmin o) := by
  intro f h
  cases h
  cases hb : o.b <;> simp only [vopFields, srcvFields, hb] <;> exact of_op rfl (by decide)
theorem fmax (o : VOp) : Statement (.fmax o) := by
  intro f h
  cases h
  cases hb : o.b <;> simp only [vopFields, srcvFields, hb] <;> exact of_op rfl (by decide)
theorem fclass (o : VOp) : Statement (.fclass o) := by
  intro f h
  cases h
  cases hb : o.b <;> simp only [vopFields, srcvFields, hb] <;> exact of_op rfl (by decide)
theorem fdot2 (o : VOp) : Statement (.fdot2 o) := by
  intro f h
  cases h
  cases hb : o.b <;> simp only [vopFields, srcvFields, hb] <;> exact of_op rfl (by decide)
theorem fcmp (o : FCmp) : Statement (.fcmp o) := by
  intro f h
  cases h
  cases o.b <;> dsimp only <;> exact of_op rfl (by decide)
theorem fexp2 (o : VOp) : Statement (.fexp2 o) := by
  intro f h
  cases hb : o.b <;> simp only [encodeFields, vop1Fields, hb] at h <;> cases h
  exact of_op rfl (by decide)
theorem flog2 (o : VOp) : Statement (.flog2 o) := by
  intro f h
  cases hb : o.b <;> simp only [encodeFields, vop1Fields, hb] at h <;> cases h
  exact of_op rfl (by decide)
theorem fsin (o : VOp) : Statement (.fsin o) := by
  intro f h
  cases hb : o.b <;> simp only [encodeFields, vop1Fields, hb] at h <;> cases h
  exact of_op rfl (by decide)
theorem fcos (o : VOp) : Statement (.fcos o) := by
  intro f h
  cases hb : o.b <;> simp only [encodeFields, vop1Fields, hb] at h <;> cases h
  exact of_op rfl (by decide)
theorem fact (g : Guard) (rnd : Rnd) (sat : Sat) (d a : BitVec 8) (b : BitVec 6) : Statement (.fact g rnd sat d a b) := fun _ h => by cases h; exact of_op rfl (by decide)
theorem actflip : Statement .actflip := fun _ h => by cases h; exact of_op rfl (by decide)
theorem activationBankFlip (core : Nat) : Statement (.activationBankFlip core) := fun _ h => by cases h
theorem cvt (o : Cvt) : Statement (.cvt o) := fun _ h => by cases h; exact of_op rfl (by decide)
theorem pack (o : Cvt) : Statement (.pack o) := fun _ h => by cases h; exact of_op rfl (by decide)
theorem unpack (o : Cvt) : Statement (.unpack o) := fun _ h => by cases h; exact of_op rfl (by decide)
theorem dxq (o : DxOp) : Statement (.dxq o) := fun _ h => by cases h; exact of_op rfl (by decide)
theorem dxd (o : DxOp) : Statement (.dxd o) := fun _ h => by cases h; exact of_op rfl (by decide)
theorem fdp4 (o : VOp) : Statement (.fdp4 o) := by
  intro f h
  cases hb : o.b <;> simp only [encodeFields, vop1Fields, hb] at h <;> cases h
  exact of_op rfl (by decide)
theorem vmov (o : LaneOp) : Statement (.vmov o) := fun _ h => by cases h; exact of_op rfl (by decide)
theorem vbcast (g : Guard) (ty : Ty) (d : BitVec 8) (a : BitVec 6) : Statement (.vbcast g ty d a) := fun _ h => by cases h; exact of_op rfl (by decide)
theorem vperm (o : LaneOp) : Statement (.vperm o) := fun _ h => by cases h; exact of_op rfl (by decide)
theorem vshflUp (o : LaneOp) (n : BitVec 7) : Statement (.vshflUp o n) := fun _ h => by cases h; exact of_op rfl (by decide)
theorem vshflDown (o : LaneOp) (n : BitVec 7) : Statement (.vshflDown o n) := fun _ h => by cases h; exact of_op rfl (by decide)
theorem vshflXor (o : LaneOp) (n : BitVec 7) : Statement (.vshflXor o n) := fun _ h => by cases h; exact of_op rfl (by decide)
theorem vshflIdx (o : LaneOp) : Statement (.vshflIdx o) := fun _ h => by cases h; exact of_op rfl (by decide)
theorem vred (o : RedScan) : Statement (.vred o) := fun _ h => by cases h; exact of_op rfl (by decide)
theorem vscan (o : RedScan) : Statement (.vscan o) := fun _ h => by cases h; exact of_op rfl (by decide)
theorem vmovrel (o : LaneOp) : Statement (.vmovrel o) := fun _ h => by cases h; exact of_op rfl (by decide)
theorem vstrel (o : LaneOp) : Statement (.vstrel o) := fun _ h => by cases h; exact of_op rfl (by decide)
theorem vcmp (g : Guard) (cc : ICond) (ty : Ty) (d : BitVec 4) (a b : BitVec 8) : Statement (.vcmp g cc ty d a b) := fun _ h => by cases h; exact of_op rfl (by decide)
theorem vsel (g : Guard) (ty : Ty) (d a b : BitVec 8) (c : BitVec 4) : Statement (.vsel g ty d a b c) := fun _ h => by cases h; exact of_op rfl (by decide)
theorem plop (g : Guard) (d a b : BitVec 4) (t : BitVec 4) : Statement (.plop g d a b t) := fun _ h => by cases h; exact of_op rfl (by decide)
theorem ppopc (g : Guard) (d : BitVec 6) (a : BitVec 4) : Statement (.ppopc g d a) := fun _ h => by cases h; exact of_op rfl (by decide)
theorem pfirst (g : Guard) (d a : BitVec 4) : Statement (.pfirst g d a) := fun _ h => by cases h; exact of_op rfl (by decide)
theorem pballot (g : Guard) (d : BitVec 6) (a : BitVec 4) (b : BitVec 2) : Statement (.pballot g d a b) := fun _ h => by cases h; exact of_op rfl (by decide)
theorem pfrom (g : Guard) (d : BitVec 4) (a : BitVec 6) (b : BitVec 2) : Statement (.pfrom g d a b) := fun _ h => by cases h; exact of_op rfl (by decide)
theorem vlid (g : Guard) (d : BitVec 8) : Statement (.vlid g d) := fun _ h => by cases h; exact of_op rfl (by decide)
theorem ldg (o : MemOp) : Statement (.ldg o) := fun _ h => by cases h; exact of_op rfl (by decide)
theorem stg (o : MemOp) : Statement (.stg o) := fun _ h => by cases h; exact of_op rfl (by decide)
theorem ldl (o : MemOp) : Statement (.ldl o) := fun _ h => by cases h; exact of_op rfl (by decide)
theorem stl (o : MemOp) : Statement (.stl o) := fun _ h => by cases h; exact of_op rfl (by decide)
theorem lds (ty : Ty) (hnt : Hint) (d a : BitVec 6) (imm : W32) : Statement (.lds ty hnt d a imm) := fun _ h => by cases h; exact of_op rfl (by decide)
theorem sts (ty : Ty) (hnt : Hint) (c a : BitVec 6) (imm : W32) : Statement (.sts ty hnt c a imm) := fun _ h => by cases h; exact of_op rfl (by decide)
theorem pfg (g : Guard) (am : AMode) (hnt : Hint) (a : BitVec 6) (b : BitVec 8) (imm : W32) : Statement (.pfg g am hnt a b imm) := fun _ h => by cases h; exact of_op rfl (by decide)
theorem cinv (a b : BitVec 6) (imm : W32) : Statement (.cinv a b imm) := fun _ h => by cases h; exact of_op rfl (by decide)
theorem wopen (k : BitVec 3) : Statement (.wopen k) := fun _ h => by cases h; exact of_op rfl (by decide)
theorem wclose (k : BitVec 3) : Statement (.wclose k) := fun _ h => by cases h; exact of_op rfl (by decide)
theorem wflush (k : BitVec 3) : Statement (.wflush k) := fun _ h => by cases h; exact of_op rfl (by decide)
theorem winv (k : BitVec 3) : Statement (.winv k) := fun _ h => by cases h; exact of_op rfl (by decide)
theorem ldgs (g : Guard) (ty : Ty) (hnt : Hint) (rf : RForm) (d : BitVec 8) (a b : BitVec 6) (imm : W32) : Statement (.ldgs g ty hnt rf d a b imm) := fun _ h => by cases h; exact of_op rfl (by decide)
theorem windowFill (crew k blk : Nat) : Statement (.windowFill crew k blk) := fun _ h => by cases h
theorem atom (o : AtomOp) : Statement (.atom o) := fun _ h => by cases h; exact of_op rfl (by decide)
theorem atomc (o : AtomOp) : Statement (.atomc o) := fun _ h => by cases h; exact of_op rfl (by decide)
theorem red (o : AtomOp) : Statement (.red o) := fun _ h => by cases h; exact of_op rfl (by decide)
theorem atoml (o : AtomOp) : Statement (.atoml o) := fun _ h => by cases h; exact of_op rfl (by decide)
theorem fence (ord : Order) (sc : Scope) : Statement (.fence ord sc) := fun _ h => by cases h; exact of_op rfl (by decide)
theorem cpy (o : Cpy) : Statement (.cpy o) := fun _ h => by cases h; exact of_op rfl (by decide)
theorem cpys (o : Cpy) : Statement (.cpys o) := fun _ h => by cases h; exact of_op rfl (by decide)
theorem cpyg (o : Cpy) : Statement (.cpyg o) := fun _ h => by cases h; exact of_op rfl (by decide)
theorem cpyw (o : Cpy) (sparse : Option Ty) : Statement (.cpyw o sparse) := by
  intro f h
  cases sparse <;> cases h <;> exact of_op rfl (by decide)
theorem cpcommit (d : BitVec 6) : Statement (.cpcommit d) := fun _ h => by cases h; exact of_op rfl (by decide)
theorem cpwait (a : BitVec 6) : Statement (.cpwait a) := fun _ h => by cases h; exact of_op rfl (by decide)
theorem cpact (a : BitVec 6) : Statement (.cpact a) := fun _ h => by cases h; exact of_op rfl (by decide)
theorem copySegment (copy seg : Nat) : Statement (.copySegment copy seg) := fun _ h => by cases h
theorem mma (o : Mma) : Statement (.mma o) := fun _ h => by cases h; exact of_op rfl (by decide)
theorem mmag (o : Mma) : Statement (.mmag o) := fun _ h => by cases h; exact of_op rfl (by decide)
theorem mzero (d : BitVec 3) : Statement (.mzero d) := fun _ h => by cases h; exact of_op rfl (by decide)
theorem mload (ty : Ty) (d : BitVec 3) (xa : BitVec 4) (rs : BitVec 16) : Statement (.mload ty d xa rs) := fun _ h => by cases h; exact of_op rfl (by decide)
theorem mdrain (o : Drain) : Statement (.mdrain o) := fun _ h => by cases h; exact of_op rfl (by decide)
theorem mdrainx (ty : Ty) (rnd : Rnd) (sat : Sat) (d : BitVec 3) (q : BitVec 12) : Statement (.mdrainx ty rnd sat d q) := fun _ h => by cases h; exact of_op rfl (by decide)
theorem mrsc (ty : Ty) (d : BitVec 3) (xa : BitVec 4) : Statement (.mrsc ty d xa) := fun _ h => by cases h; exact of_op rfl (by decide)
theorem maffl (d : BitVec 3) (xa xb : BitVec 4) (rs : BitVec 16) : Statement (.maffl d xa xb rs) := fun _ h => by cases h; exact of_op rfl (by decide)
theorem mscan (d : BitVec 3) (c : BitVec 3) : Statement (.mscan d c) := fun _ h => by cases h; exact of_op rfl (by decide)
theorem mcarLoad (d : BitVec 3) (xa : BitVec 4) : Statement (.mcarLoad d xa) := fun _ h => by cases h; exact of_op rfl (by decide)
theorem mcarStore (d : BitVec 3) (xa : BitVec 4) : Statement (.mcarStore d xa) := fun _ h => by cases h; exact of_op rfl (by decide)
theorem mcarReset (d : BitVec 3) : Statement (.mcarReset d) := fun _ h => by cases h; exact of_op rfl (by decide)
theorem matrixCommit (core : Nat) : Statement (.matrixCommit core) := fun _ h => by cases h
theorem sloop (n : BitVec 31) : Statement (.sloop n) := fun _ h => by cases h; exact of_op rfl (by decide)
theorem sloopInd (xa : BitVec 4) : Statement (.sloopInd xa) := fun _ h => by cases h; exact of_op rfl (by decide)
theorem sendl : Statement .sendl := fun _ h => by cases h; exact of_op rfl (by decide)
theorem sadr (d : BitVec 4) (off : BitVec 22) (perCore : Bool) : Statement (.sadr d off perCore) := fun _ h => by cases h; exact of_op rfl (by decide)
theorem sinc (d : BitVec 4) (t : BitVec 2) (e : W32) : Statement (.sinc d t e) := fun _ h => by cases h; exact of_op rfl (by decide)
theorem sbarr (off : BitVec 22) : Statement (.sbarr off) := fun _ h => by cases h; exact of_op rfl (by decide)
theorem sbwait (off : BitVec 22) (ph : Bool) (l : BitVec 2) : Statement (.sbwait off ph l) := fun _ h => by cases h; exact of_op rfl (by decide)
theorem scpy (d a : BitVec 4) (len : BitVec 24) (kind : ScpyKind) (ty : Ty) : Statement (.scpy d a len kind ty) := fun _ h => by cases h; exact of_op rfl (by decide)
theorem shint (n : W32) : Statement (.shint n) := fun _ h => by cases h; exact of_op rfl (by decide)
theorem rampDown (core : Nat) : Statement (.rampDown core) := fun _ h => by cases h
theorem saud (e : Bool) : Statement (.saud e) := fun _ h => by cases h; exact of_op rfl (by decide)
theorem sfin (off : Option (BitVec 22)) : Statement (.sfin off) := by
  intro f h
  cases off <;> cases h <;> exact of_op rfl (by decide)
theorem auditReplay (task clus : Nat) (sig : W64) : Statement (.auditReplay task clus sig) := fun _ h => by cases h
theorem auditVerdict (task : Nat) : Statement (.auditVerdict task) := fun _ h => by cases h
theorem orient2 (o : GeoOp) : Statement (.orient2 o) := fun _ h => by cases h; exact of_op rfl (by decide)
theorem orient3 (o : GeoOp) : Statement (.orient3 o) := fun _ h => by cases h; exact of_op rfl (by decide)
theorem incirc (o : GeoOp) : Statement (.incirc o) := fun _ h => by cases h; exact of_op rfl (by decide)
theorem insph (o : GeoOp) : Statement (.insph o) := fun _ h => by cases h; exact of_op rfl (by decide)
theorem segx (o : GeoOp) : Statement (.segx o) := fun _ h => by cases h; exact of_op rfl (by decide)
theorem predicateCommit (core : Nat) : Statement (.predicateCommit core) := fun _ h => by cases h
theorem gstat (clr : Bool) (d : BitVec 6) (n : BitVec 2) : Statement (.gstat clr d n) := fun _ h => by cases h; exact of_op rfl (by decide)
theorem bari (a b : BitVec 6) : Statement (.bari a b) := fun _ h => by cases h; exact of_op rfl (by decide)
theorem bara (d a : BitVec 6) (k : BitVec 16) : Statement (.bara d a k) := fun _ h => by cases h; exact of_op rfl (by decide)
theorem barx (a b : BitVec 6) : Statement (.barx a b) := fun _ h => by cases h; exact of_op rfl (by decide)
theorem barw (a b : BitVec 6) : Statement (.barw a b) := fun _ h => by cases h; exact of_op rfl (by decide)
theorem barwFlag (d a b : BitVec 6) : Statement (.barwFlag d a b) := fun _ h => by cases h; exact of_op rfl (by decide)
theorem flagPoll (w : Nat) (b : Bool) : Statement (.flagPoll w b) := fun _ h => by cases h
theorem bart (d a : BitVec 6) : Statement (.bart d a) := fun _ h => by cases h; exact of_op rfl (by decide)
theorem grpa (g : BitVec 8) : Statement (.grpa g) := fun _ h => by cases h; exact of_op rfl (by decide)
theorem grpe (d : BitVec 6) (g : BitVec 8) : Statement (.grpe d g) := fun _ h => by cases h; exact of_op rfl (by decide)
theorem grpvAnd (d a : BitVec 6) (g : BitVec 8) : Statement (.grpvAnd d a g) := fun _ h => by cases h; exact of_op rfl (by decide)
theorem grpvOr (d a : BitVec 6) (g : BitVec 8) : Statement (.grpvOr d a g) := fun _ h => by cases h; exact of_op rfl (by decide)
theorem grpvAdd (d a : BitVec 6) (g : BitVec 8) : Statement (.grpvAdd d a g) := fun _ h => by cases h; exact of_op rfl (by decide)
theorem qxfer (d a : BitVec 6) (k : BitVec 4) : Statement (.qxfer d a k) := fun _ h => by cases h; exact of_op rfl (by decide)
theorem wprio (d : BitVec 6) (e : BitVec 2) : Statement (.wprio d e) := fun _ h => by cases h; exact of_op rfl (by decide)
theorem enq (d a : BitVec 6) (q : BitVec 6) : Statement (.enq d a q) := fun _ h => by cases h; exact of_op rfl (by decide)
theorem enqPublish (w : Nat) (b : Bool) : Statement (.enqPublish w b) := fun _ h => by cases h
theorem qpost (a : BitVec 6) (q : BitVec 6) : Statement (.qpost a q) := fun _ h => by cases h; exact of_op rfl (by decide)
theorem qwait (d a : BitVec 6) (q : BitVec 6) : Statement (.qwait d a q) := fun _ h => by cases h; exact of_op rfl (by decide)
theorem fsopen (d a : BitVec 6) : Statement (.fsopen d a) := fun _ h => by cases h; exact of_op rfl (by decide)
theorem fsclose (a : BitVec 6) : Statement (.fsclose a) := fun _ h => by cases h; exact of_op rfl (by decide)
theorem fswait (a : BitVec 6) : Statement (.fswait a) := fun _ h => by cases h; exact of_op rfl (by decide)
theorem lpost (o : LinkOp) : Statement (.lpost o) := fun _ h => by cases h; exact of_op rfl (by decide)
theorem lsend (o : LinkOp) : Statement (.lsend o) := fun _ h => by cases h; exact of_op rfl (by decide)
theorem lpoll (d a : BitVec 6) (recv : Bool) : Statement (.lpoll d a recv) := fun _ h => by cases h; exact of_op rfl (by decide)
theorem lqpQuery (d a : BitVec 6) : Statement (.lqpQuery d a) := fun _ h => by cases h; exact of_op rfl (by decide)
theorem lqpReset (d a : BitVec 6) : Statement (.lqpReset d a) := fun _ h => by cases h; exact of_op rfl (by decide)
theorem lqpInit (d a : BitVec 6) : Statement (.lqpInit d a) := fun _ h => by cases h; exact of_op rfl (by decide)
theorem lqpReady (d a : BitVec 6) : Statement (.lqpReady d a) := fun _ h => by cases h; exact of_op rfl (by decide)
theorem pkrd (d a b : BitVec 6) (imm : W32) : Statement (.pkrd d a b imm) := fun _ h => by cases h; exact of_op rfl (by decide)
theorem pkwr (d a b c : BitVec 6) (imm : W32) : Statement (.pkwr d a b c imm) := fun _ h => by cases h; exact of_op rfl (by decide)
theorem pkclr (d a b : BitVec 6) : Statement (.pkclr d a b) := fun _ h => by cases h; exact of_op rfl (by decide)
theorem pkres (d a : BitVec 6) : Statement (.pkres d a) := fun _ h => by cases h; exact of_op rfl (by decide)
theorem pkret (d a : BitVec 6) : Statement (.pkret d a) := fun _ h => by cases h; exact of_op rfl (by decide)
theorem pkredir (d a b : BitVec 6) : Statement (.pkredir d a b) := fun _ h => by cases h; exact of_op rfl (by decide)
theorem pkkill (d a : BitVec 6) : Statement (.pkkill d a) := fun _ h => by cases h; exact of_op rfl (by decide)
theorem pgmap (d a b c : BitVec 6) (ctx : BitVec 6) (sz : PgSize) : Statement (.pgmap d a b c ctx sz) := fun _ h => by cases h; exact of_op rfl (by decide)
theorem pgunmap (d a : BitVec 6) (ctx : BitVec 6) (sz : PgSize) : Statement (.pgunmap d a ctx sz) := fun _ h => by cases h; exact of_op rfl (by decide)
theorem pginv (a b : BitVec 6) (ctx : BitVec 6) : Statement (.pginv a b ctx) := fun _ h => by cases h; exact of_op rfl (by decide)
theorem shootdown (id : Nat) : Statement (.shootdown id) := fun _ h => by cases h
theorem mdrd (d : BitVec 6) (e : BitVec 16) : Statement (.mdrd d e) := fun _ h => by cases h; exact of_op rfl (by decide)
theorem mdwr (a : BitVec 6) (e : BitVec 16) : Statement (.mdwr a e) := fun _ h => by cases h; exact of_op rfl (by decide)
theorem flrd (d : BitVec 6) (e : BitVec 8) : Statement (.flrd d e) := fun _ h => by cases h; exact of_op rfl (by decide)
theorem flclr (d : BitVec 6) (e : BitVec 8) : Statement (.flclr d e) := fun _ h => by cases h; exact of_op rfl (by decide)
theorem clkrd (d : BitVec 6) : Statement (.clkrd d) := fun _ h => by cases h; exact of_op rfl (by decide)
theorem ctxrd (d : BitVec 6) (sel : BitVec 8) (ctx : Option (BitVec 6)) : Statement (.ctxrd d sel ctx) := by
  intro f h
  cases ctx <;> cases h <;> exact of_op rfl (by decide)
theorem lineFetch (w : Nat) (b : Bool) : Statement (.lineFetch w b) := fun _ h => by cases h
theorem fragmentAged (w : Nat) (b : Bool) : Statement (.fragmentAged w b) := fun _ h => by cases h
theorem budgetExhausted (seq : Bool) (w : Nat) : Statement (.budgetExhausted seq w) := fun _ h => by cases h
theorem pageWalk (core ctx : Nat) (va : W64) (k : Access) : Statement (.pageWalk core ctx va k) := fun _ h => by cases h
theorem snapshotCopy (ctx : Nat) (va : W64) : Statement (.snapshotCopy ctx va) := fun _ h => by cases h
theorem getS (die line : Nat) : Statement (.getS die line) := fun _ h => by cases h
theorem getM (die line : Nat) : Statement (.getM die line) := fun _ h => by cases h
theorem writeMerge (line : Nat) (mask : W32) (data : MemLine) : Statement (.writeMerge line mask data) := fun _ h => by cases h
theorem homeAtomic (pa : Nat) (op : Option AtOp) (ty : Ty) (v : W64) : Statement (.homeAtomic pa op ty v) := fun _ h => by cases h
theorem putM (die line : Nat) : Statement (.putM die line) := fun _ h => by cases h
theorem forwardedRequest (line : Nat) : Statement (.forwardedRequest line) := fun _ h => by cases h
theorem invalidateWithWriteback (die line : Nat) : Statement (.invalidateWithWriteback die line) := fun _ h => by cases h
theorem directoryRecovery (line : Nat) : Statement (.directoryRecovery line) := fun _ h => by cases h
theorem hostMemoryAccess (pa : Nat) (write : Option (List Byte)) : Statement (.hostMemoryAccess pa write) := fun _ h => by cases h
theorem unitReclaim (clus unit : Nat) : Statement (.unitReclaim clus unit) := fun _ h => by cases h
theorem doorbell (ctx q : Nat) (t : W64) : Statement (.doorbell ctx q t) := fun _ h => by cases h
theorem tailWrite (ctx q : Nat) (t : W64) : Statement (.tailWrite ctx q t) := fun _ h => by cases h
theorem slotReread (ctx q : Nat) : Statement (.slotReread ctx q) := fun _ h => by cases h
theorem packetConsume (ctx q : Nat) : Statement (.packetConsume ctx q) := fun _ h => by cases h
theorem markerComplete (l : Nat) : Statement (.markerComplete l) := fun _ h => by cases h
theorem queueEnable (ctx q : Nat) : Statement (.queueEnable ctx q) := fun _ h => by cases h
theorem queueStop (ctx q : Nat) : Statement (.queueStop ctx q) := fun _ h => by cases h
theorem queueStart (ctx q : Nat) : Statement (.queueStart ctx q) := fun _ h => by cases h
theorem queueDisable (ctx q : Nat) : Statement (.queueDisable ctx q) := fun _ h => by cases h
theorem dispatcherChoice (die : Nat) : Statement (.dispatcherChoice die) := fun _ h => by cases h
theorem launchDispatch (l : Nat) : Statement (.launchDispatch l) := fun _ h => by cases h
theorem crewPlacement (l clus unit : Nat) (cores : List Nat) : Statement (.crewPlacement l clus unit cores) := fun _ h => by cases h
theorem waveRetire (w : Nat) : Statement (.waveRetire w) := fun _ h => by cases h
theorem waveRestore (w core slot : Nat) : Statement (.waveRestore w core slot) := fun _ h => by cases h
theorem sequencerPark (i : Nat) : Statement (.sequencerPark i) := fun _ h => by cases h
theorem sequencerRestore (i : Nat) : Statement (.sequencerRestore i) := fun _ h => by cases h
theorem crewEviction (c : Nat) : Statement (.crewEviction c) := fun _ h => by cases h
theorem crewRestore (c : Nat) : Statement (.crewRestore c) := fun _ h => by cases h
theorem launchComplete (l : Nat) : Statement (.launchComplete l) := fun _ h => by cases h
theorem launchReplay (l : Nat) : Statement (.launchReplay l) := fun _ h => by cases h
theorem launchKill (l : Nat) : Statement (.launchKill l) := fun _ h => by cases h
theorem adjournmentRecord (n : Nat) : Statement (.adjournmentRecord n) := fun _ h => by cases h
theorem taskMessage (qp : Nat) (n : W32) : Statement (.taskMessage qp n) := fun _ h => by cases h
theorem dispositionMessage (qp : Nat) (n : W32) : Statement (.dispositionMessage qp n) := fun _ h => by cases h
theorem dataPacketReceive (f : Frame) : Statement (.dataPacketReceive f) := fun _ h => by cases h
theorem acknowledgementReceive (f : Frame) : Statement (.acknowledgementReceive f) := fun _ h => by cases h
theorem holdReceive (f : Frame) : Statement (.holdReceive f) := fun _ h => by cases h
theorem sendTimeout (qp : Nat) (msn : W32) : Statement (.sendTimeout qp msn) := fun _ h => by cases h
theorem contextCreate (c : Nat) (desc : Nat) : Statement (.contextCreate c desc) := fun _ h => by cases h
theorem contextActivate (c : Nat) : Statement (.contextActivate c) := fun _ h => by cases h
theorem contextSuspend (c : Nat) : Statement (.contextSuspend c) := fun _ h => by cases h
theorem contextResume (c : Nat) : Statement (.contextResume c) := fun _ h => by cases h
theorem contextDestroy (c : Nat) : Statement (.contextDestroy c) := fun _ h => by cases h
theorem contextClearFault (c : Nat) : Statement (.contextClearFault c) := fun _ h => by cases h
theorem contextFree (c : Nat) : Statement (.contextFree c) := fun _ h => by cases h
theorem c0descWrite (v : W64) : Statement (.c0descWrite v) := fun _ h => by cases h
theorem jbaseWrite (v : W64) : Statement (.jbaseWrite v) := fun _ h => by cases h
theorem qptabWrite (v : W64) : Statement (.qptabWrite v) := fun _ h => by cases h
theorem errstWrite (v : W64) : Statement (.errstWrite v) := fun _ h => by cases h
theorem partitionWrite (p off : Nat) (v : W64) : Statement (.partitionWrite p off v) := fun _ h => by cases h
theorem controlRegisterWrite (off size : Nat) (v : W64) : Statement (.controlRegisterWrite off size v) := fun _ h => by cases h
theorem attestationRequest (nonce : BitVec 256) (v : W64) : Statement (.attestationRequest nonce v) := fun _ h => by cases h
theorem ageingCheck (island : Nat) (slack : List (BitVec 8)) : Statement (.ageingCheck island slack) := fun _ h => by cases h
theorem powerUpdate (watts : BitVec 16) (cap lift : List Nat) : Statement (.powerUpdate watts cap lift) := fun _ h => by cases h
theorem coreQuarantine (core : Nat) : Statement (.coreQuarantine core) := fun _ h => by cases h
theorem reset (verified : Bool) (images : List (List Byte)) : Statement (.reset verified images) := fun _ h => by cases h
theorem silentEviction (die line : Nat) : Statement (.silentEviction die line) := fun _ h => by cases h
theorem l1LineEviction (core line : Nat) : Statement (.l1LineEviction core line) := fun _ h => by cases h
theorem deadlineMiss (l : Nat) : Statement (.deadlineMiss l) := fun _ h => by cases h

end Sys2Proof.Laws.Coded
end

