-- ==== Sys2Proof/Laws/Results.lean ====
section
/-!
SUPPORT. From what a meaning does to its wave to the results and frames that claims state.
-/
namespace Sys2Proof.Machine

/-- The wave after the fragment goes on: its registers, predicates and flags are those its effect left. -/
theorem done_wave (h : Here) (s : State) (g : Wave → Wave) :
    (h.done s g).waves.get? h.key =
      some ((g h.w).setFrag h.side (some (((g h.w).frag h.side).getD h.f).advance)) := by
  simp [Here.done]

@[simp] theorem Wave.readV_setFrag (w : Wave) (b : Bool) (f : Option Fragment) (r l : Nat) :
    (w.setFrag b f).readV r l = w.readV r l := by simp [Wave.readV]

@[simp] theorem Wave.readP_setFrag (w : Wave) (b : Bool) (f : Option Fragment) (p : Nat) :
    (w.setFrag b f).readP p = w.readP p := by simp [Wave.readP]

@[simp] theorem Wave.elem_setFrag (w : Wave) (b : Bool) (f : Option Fragment) (wd r l j : Nat) :
    (w.setFrag b f).elem wd r l j = w.elem wd r l j := by simp [Wave.elem, Wave.readV64]

@[simp] theorem Wave.frag_setFrag_same (w : Wave) (b : Bool) (f : Option Fragment) : (w.setFrag b f).frag b = f := by
  cases b <;> rfl

/-- Going on changes no scalar, em0 to em2 included. -/
theorem Wave.readS_advance (w : Wave) (side : Bool) (f : Fragment) (e : w.frag side = some f) (r : Nat) :
    (w.setFrag side (some f.advance)).readS side r = w.readS side r := by
  simp only [Wave.readS, Wave.setFrag_s, Wave.frag_setFrag_same, e]
  rfl

/-- A meaning that changes its wave by `g` and goes on completes. -/
theorem Body.completes {i : Instr} {s : State} {h : Here} {x : Writes} {q : Wave → Prop} (g : Wave → Wave)
    (b : Body h x (g h.w)) (e : exec i s = .next (h.done s g))
    (hq : ∀ f, (g h.w).frag h.side = some f → q ((g h.w).setFrag h.side (some f.advance))) : Completes i s h x q := by
  obtain ⟨f, ef, -⟩ := b.fragment
  refine ⟨_, _, e, b.framed g, done_wave h s g, ?_⟩
  rw [ef, Option.getD_some]
  exact hq f ef

/-- A meaning that only writes the scalar `d`. -/
theorem Clear.scalarResult {s : State} {h : Here} {rs : List Nat} (c : Clear s h rs) {i : Instr} {d : BitVec 6} {v : W64}
    (e : exec i s = .next (h.done s fun w => w.writeS h.side d.toNat v)) : ScalarResult i s h d v := by
  refine ((Body.refl c _).writeS d.toNat v (.inl (List.mem_singleton_self _))).completes (fun w => w.writeS h.side d.toNat v) e
    fun f hf => ?_
  rw [Wave.readS_advance _ _ _ hf, Wave.readS_writeS _ _ _ _ _ (here_spec c.here).2.2.1]
  rfl

theorem Wave.elem_writeV (w : Wave) (wd r : Nat) (m : Lanes) (f : Nat → Nat → Nat) (l j : Nat) (hl : l < 96)
    (hm : m.getLsbD l = true) (hw : wd * (32 / wd) = 32) (hw64 : wd ≠ 64) (hj : j < 32 / wd) :
    (w.writeV r m fun l => packLane wd (f l)).elem wd r l j = f l j % 2 ^ wd := by
  simp only [Wave.elem, hw64, if_false, Wave.readV_writeV _ _ _ _ _ _ hl, hm, and_self, if_true]
  exact bits_packLane wd (f l) j hw hj

/-- The widths of lane elements. -/
def laneWidth (wd : Nat) : Prop := wd = 4 ∨ wd = 8 ∨ wd = 16 ∨ wd = 32 ∨ wd = 64

theorem Wave.elem_writeElems (w : Wave) (wd r : Nat) (m : Lanes) (f : Nat → Nat → Nat) (l j : Nat) (hl : l < 96)
    (hm : m.getLsbD l = true) (hw : laneWidth wd) (hj : j < elemsPerLane wd) :
    (w.writeElems wd r m f).elem wd r l j = f l j % 2 ^ wd := by
  by_cases h64 : wd = 64
  · subst h64
    simp only [elemsPerLane, if_true, Nat.lt_one_iff] at hj
    subst hj
    simp only [Wave.writeElems, if_true, Wave.elem, Wave.readV64, Wave.writeV64, Wave.readV_writeV _ _ _ _ _ _ hl, hm,
      and_true, if_neg (by omega : ¬ r = r + 1)]
    have : ∀ x : W64, (pair64 (x.setWidth 32) (x.extractLsb' 32 32)) = x := by
      intro x
      show (x.extractLsb' 32 32) ++ (x.setWidth 32) = x
      ext k hk
      rw [BitVec.getElem_append]
      split
      · simpa using BitVec.getLsbD_eq_getElem _
      · rename_i h32
        rw [BitVec.getElem_extractLsb', show 32 + (k - 32) = k by omega, BitVec.getLsbD_eq_getElem]
    rw [this, BitVec.toNat_ofNat]
  · rw [Wave.writeElems, if_neg h64]
    have hj' : j < 32 / wd := by simpa [elemsPerLane, h64] using hj
    refine Wave.elem_writeV w wd r m f l j hl hm ?_ h64 hj'
    rcases hw with rfl | rfl | rfl | rfl | rfl <;> first | rfl | exact absurd rfl h64

/-- A meaning that only writes the elements of a register in the participating lanes. -/
theorem Clear.vectorResult {s : State} {h : Here} {rs : List Nat} (c : Clear s h rs) {i : Instr} {m : Lanes} {ty : Ty}
    {d : Nat} {v : Nat → Nat → Nat} (hw : laneWidth ty.width)
    (e : exec i s = .next (h.done s fun w => w.writeElems ty.width d m v)) : VectorResult i s h m ty d v := by
  refine ((Body.refl c _).writeElems ty d m v (fun _ a => a) (fun _ _ a => a)).completes
    (fun w => w.writeElems ty.width d m v) e fun f _ l j hl hm hj => ?_
  rw [Wave.elem_setFrag, Wave.elem_writeElems _ _ _ _ _ _ _ hl hm hw hj]

/-- R51: an instruction whose meaning is `arithTo` on its wave: the two ways it can end. -/
theorem Clear.trapping {s : State} {h : Here} {rs : List Nat} (c : Clear s h rs) {i : Instr} {g : Guard} {u : Uses}
    {k : Here → Except Abort State} (e : exec i s = onWave g u s k) (hu : ∀ r ∈ u.vr ++ u.nm ++ u.vw, r ∈ rs)
    (hi : u.indexed = false ∨ ∀ x ∈ s.stores.preds, x.2.wave ≠ h.key) {m : Lanes} {fl : Nat → Flags} {z : W32}
    {f : Wave → Wave} (hk : k h = h.arith s m fl z f) {p : Prop}
    (hp : exec i s = .next (h.done s fun w => f (w.raised h.side (orFlags ((lanesOf m).map fl)) z)) → p) :
    Trapping i s h m fl p := by
  refine ⟨fun h0 => hp ?_, fun h0 hw => ?_⟩
  · rw [e]
    exact c.onWave_ok g u k hu hi (by simp [hk, Here.arith, Here.arithTo, h0, Here.ok])
  · rw [e]
    exact c.onWave_trap g u k hu hi hw (by rw [hk, Here.arith, Here.arithTo, if_neg h0]; rfl)

theorem Clear.trappingS {s : State} {h : Here} {rs : List Nat} (c : Clear s h rs) {i : Instr} {g : Guard} {u : Uses}
    {k : Here → Except Abort State} (e : exec i s = onWave g u s k) (hu : ∀ r ∈ u.vr ++ u.nm ++ u.vw, r ∈ rs)
    (hi : u.indexed = false ∨ ∀ x ∈ s.stores.preds, x.2.wave ≠ h.key) {fl : Flags} {z : W32}
    {f : Wave → Wave} (hk : k h = h.arithS s fl z f) {p : Prop}
    (hp : exec i s = .next (h.done s fun w => f (w.raised h.side fl z)) → p) : TrappingS i s h fl p := by
  refine ⟨fun h0 => hp ?_, fun h0 hw => ?_⟩
  · rw [e]
    exact c.onWave_ok g u k hu hi (by simp [hk, Here.arithS, h0, Here.ok])
  · rw [e]
    exact c.onWave_trap g u k hu hi hw (by rw [hk, Here.arithS, if_neg h0]; rfl)

theorem raised_flags {s : State} {h : Here} (e : s.here = some h) (fl : Flags) (z : W32) :
    (h.w.raised h.side fl z).flags = h.w.flags ||| fl := by
  have hf : Wave.frag { h.w with flags := h.w.flags ||| fl } h.side = some h.f := (here_spec e).2.2.1
  simp only [Wave.raised, hf, Wave.setFrag_flags]

theorem raised_frag {s : State} {h : Here} (e : s.here = some h) (fl : Flags) (z : W32) :
    (h.w.raised h.side fl z).frag h.side = some { h.f with z } := by
  have hf := (here_spec e).2.2.1
  unfold Wave.raised
  have : Wave.frag { h.w with flags := h.w.flags ||| fl } h.side = some h.f := hf
  simp [this]

/-- A floating-point meaning that only writes the elements of a register in the participating lanes. -/
theorem Clear.floatResult {s : State} {h : Here} {rs : List Nat} (c : Clear s h rs) {i : Instr} {g : Guard} {u : Uses}
    {k : Here → Except Abort State} (e : exec i s = onWave g u s k) (hu : ∀ r ∈ u.vr ++ u.nm ++ u.vw, r ∈ rs)
    (hi : u.indexed = false) {m : Lanes} {fl : Nat → Flags} {z : W32} {ty : Ty} {d : Nat} {v : Nat → Nat → Nat}
    (hw : laneWidth ty.width) (hk : k h = h.arith s m fl z fun w => w.writeElems ty.width d m v) :
    FloatResult i s h m ty d fl z v := by
  refine c.trapping e hu (.inl hi) hk fun e' => ?_
  have hb := ((Body.refl c { v := regsOf ty d, m := m, flags := true, z := true }).raised
    (orFlags ((lanesOf m).map fl)) z rfl (.inl rfl)).writeElems ty d m v (fun _ a => a) (fun _ _ a => a)
  refine hb.completes (fun w => (w.raised h.side (orFlags ((lanesOf m).map fl)) z).writeElems ty.width d m v) e'
    fun f hf => ⟨fun l j hl hm hj => ?_, ?_, ?_⟩
  · rw [Wave.elem_setFrag, Wave.elem_writeElems _ _ _ _ _ _ _ hl hm hw hj]
  · rw [Wave.setFrag_flags, ← raised_flags c.here]
    unfold Wave.writeElems Wave.writeV64
    split <;> rfl
  · have : ((h.w.raised h.side (orFlags ((lanesOf m).map fl)) z).writeElems ty.width d m v).frag h.side =
        (h.w.raised h.side (orFlags ((lanesOf m).map fl)) z).frag h.side := by
      unfold Wave.writeElems Wave.writeV64
      split <;> rfl
    rw [this, raised_frag c.here] at hf
    cases hf
    rw [Wave.frag_setFrag_same]
    rfl

/-- The bit of a lane in a mask built from lanes. -/
theorem lanesMask_bit (ls : List Nat) (l : Nat) (hl : l < 96) : (lanesMask ls).getLsbD l = decide (l ∈ ls) := by
  have key : ∀ (ls : List Nat) (a : Lanes),
      (ls.foldl (fun m l => m ||| laneBit l) a).getLsbD l = (a.getLsbD l || decide (l ∈ ls)) := by
    intro ls
    induction ls with
    | nil => simp
    | cons x xs ih =>
      intro a
      rw [List.foldl_cons, ih]
      have hx : (laneBit x).getLsbD l = decide (l = x) := by
        unfold laneBit
        rw [BitVec.getLsbD_shiftLeft, BitVec.getLsbD_one]
        by_cases h : l = x
        · subst h; simp [hl]
        · by_cases h2 : l < x
          · simp [h, h2]
          · simp [h, h2, show ¬ (l - x = 0) by omega]
      simp [hx, Bool.or_assoc]
  have := key ls 0#96
  simpa [lanesMask] using this

theorem mem_lanesOf (m : Lanes) (l : Nat) (hl : l < 96) : l ∈ lanesOf m ↔ m.getLsbD l = true := by
  simp [lanesOf, hl]

/-- The bit of a written predicate. -/
theorem Wave.writeP_bit (w : Wave) (d : Nat) (m : Lanes) (p : Nat → Bool) (l : Nat) (hd : d ≠ 15) (hl : l < 96)
    (hm : m.getLsbD l = true) : ((w.writeP d m (lanesMask ((lanesOf m).filter p))).readP d).getLsbD l = p l := by
  rw [Wave.readP_writeP, if_pos ⟨rfl, hd⟩]
  simp only [BitVec.getLsbD_or, BitVec.getLsbD_and, BitVec.getLsbD_not, hm, lanesMask_bit _ _ hl, List.mem_filter,
    mem_lanesOf m l hl, hl]
  simp

/-- A meaning that only writes the predicate `d` in the participating lanes. -/
theorem Clear.predicateResult {s : State} {h : Here} {rs : List Nat} (c : Clear s h rs) {i : Instr} {m : Lanes}
    {d : BitVec 4} {v : Nat → Bool}
    (e : exec i s = .next (h.done s fun w => w.writeP d.toNat m (lanesMask ((lanesOf m).filter v)))) :
    PredicateResult i s h m d v := by
  refine ((Body.refl c _).writeP d.toNat m _ ?_ (fun _ _ a => a)).completes
    (fun w => w.writeP d.toNat m (lanesMask ((lanesOf m).filter v))) e fun f _ hd l hl hm => ?_
  · by_cases h15 : d.toNat = 15
    · exact .inr h15
    · simp [h15]
  · rw [Wave.readP_setFrag, Wave.writeP_bit _ _ _ _ _ hd hl hm]

end Sys2Proof.Machine
end

