-- ==== Sys2Proof/Tests/Slice0.lean ====
section
/-!
SUPPORT. Tests of the syntax: for every family, words written out from the manual's encoding tables decode to the
instructions they stand for, and every check of `wellFormed` refuses a term.
-/
namespace Sys2Proof

/-- Every word of the list decodes to the instruction beside it. -/
def decodes (l : List (BitVec 96 × Instr)) : Bool := l.all fun x => decide (decode x.1 = .ok x.2)

/-- Words of class `control` written out from R96, R104, R140, the examples of chapters 4 and 6. -/
theorem test_decode_control :
    decodes [
      (0x000000000000F00000000000#96, Instr.nop),
      (0x0100000000000000FFFFFFF9#96, Instr.br 0xFFFFFFF9),
      (0x020000050000000000000010#96, Instr.brcNeS 5 0x10),
      (0x020100060000000000000018#96, Instr.brcEqS 6 0x18),
      (0x020200000300000000000001#96, Instr.brcAnyP 3 1),
      (0x020300000400000000000002#96, Instr.brcAllP 4 2),
      (0x020400000F00000000000003#96, Instr.brcNoneP 15 3),
      (0x030000000200001000000004#96, Instr.brv 2 4 0x10),
      (0x030000000300000400000003#96, Instr.brv 3 3 4),
      (0x040000000000000000000000#96, Instr.join),
      (0x05000A000000000000000040#96, Instr.call 10 0x40),
      (0x060009FE0000000000000000#96, Instr.calli 9 0xFE),
      (0x0700000A0000000000000000#96, Instr.ret 10),
      (0x0800000B00000000FFFFFFC0#96, Instr.jmp 11 0xFFFFFFC0),
      (0x090000000000F00000000000#96, Instr.endF),
      (0x0A0000000000F00000000000#96, Instr.yield),
      (0x0B0000000000F0000000007F#96, Instr.brk 0x7F),
      (0x0C0000000000F00080000000#96, Instr.sleep 0x80000000),
      (0x0D0000200000F00080000001#96, Instr.rgn 0x20 0x80000001)] = true := by decide

/-- Words of class `scalar_integer` written out from R103. -/
theorem test_decode_scalar_integer :
    decodes [
      (0x110005060000F00800001000#96, Instr.add ⟨.n64, .none, 5, 6, .imm 0x1000, 0⟩),
      (0x100105060700F04100000000#96, Instr.sub ⟨.s8, .clamp, 5, 6, .reg 7, 0⟩),
      (0x100205060700F00300000000#96, Instr.mul ⟨.s32, .none, 5, 6, .reg 7, 0⟩),
      (0x100305060700F00800000000#96, Instr.mulh ⟨.n64, .none, 5, 6, .reg 7, 0⟩),
      (0x10040506073FF00600000000#96, Instr.mad ⟨.n16, .none, 5, 6, .reg 7, 63⟩),
      (0x100505060700F04400000000#96, Instr.div ⟨.s64, .clamp, 5, 6, .reg 7, 0⟩),
      (0x110605060000F007FFFFFFFF#96, Instr.rem ⟨.n32, .none, 5, 6, .imm 0xFFFFFFFF, 0⟩),
      (0x100705060700F00C00000000#96, Instr.and ⟨.b64, .none, 5, 6, .reg 7, 0⟩),
      (0x100805060700F00B00000000#96, Instr.or ⟨.b32, .none, 5, 6, .reg 7, 0⟩),
      (0x110905060000F00800000001#96, Instr.xor ⟨.n64, .none, 5, 6, .imm 0x1, 0⟩),
      (0x110A05060000F00400000040#96, Instr.shl ⟨.s64, .none, 5, 6, .imm 0x40, 0⟩),
      (0x100B05060700F00900000000#96, Instr.shr ⟨.b8, .none, 5, 6, .reg 7, 0⟩),
      (0x100C05060700F00200000000#96, Instr.sar ⟨.s16, .none, 5, 6, .reg 7, 0⟩),
      (0x100D05060700F00500000000#96, Instr.min ⟨.n8, .none, 5, 6, .reg 7, 0⟩),
      (0x100E05060700F00300000000#96, Instr.max ⟨.s32, .none, 5, 6, .reg 7, 0⟩)] = true := by decide

/-- Words of class `scalar_other` written out from R104, R155. -/
theorem test_decode_scalar_other :
    decodes [
      (0x200001020000F00600000000#96, Instr.clz .n16 1 2),
      (0x200103040000F00C00000000#96, Instr.popc .b64 3 4),
      (0x2002053F0000F00100000000#96, Instr.brev .s8 5 63),
      (0x210001020000F0040000013F#96, Instr.bfe .s64 1 2 0x3F 1),
      (0x220001020300F00C00001008#96, Instr.bfi 1 2 3 8 16),
      (0x230501020300F01000000000#96, Instr.cmp .ge .f64 1 2 3),
      (0x240001020304F00000000000#96, Instr.sel 1 2 3 4),
      (0x25003F3C0000F00000000000#96, Instr.mov 63 60),
      (0x260009000000F00080000000#96, Instr.movi 9 0x80000000),
      (0x270009000000F00000000020#96, Instr.movh 9 0x20),
      (0x280001020300F000FFFFFF07#96, Instr.lea 1 2 3 7 0xFFFFFF),
      (0x290005000000F00000000012#96, Instr.srd 5 .alloc),
      (0x290006000000F00000000007#96, Instr.srd 6 .clk),
      (0x2A0000040000F00000000010#96, Instr.swrMode 4),
      (0x2A0000040000F00000000011#96, Instr.swrFlags 4),
      (0x2B0405060000F69300000000#96, Instr.cvts .s64 ⟨.bf16, .sr, .unit, 5, 6, 0, 0⟩),
      (0x2C0001020300F11100000000#96, Instr.sfadd ⟨.f32, .rne, .none, 1, 2, 3, 0⟩),
      (0x2C0101020300F05000000000#96, Instr.sfmul ⟨.f64, .dyn, .clamp, 1, 2, 3, 0⟩),
      (0x2C0201020304F41100000000#96, Instr.sffma ⟨.f32, .rup, .none, 1, 2, 3, 4⟩)] = true := by decide

/-- Words of class `vector_integer` written out from R103, R166. -/
theorem test_decode_vector_integer :
    decodes [
      (0x310004060800F04300000000#96, Instr.vadd ⟨⟨15, false⟩, .s32, .dyn, .clamp, 4, 6, .scal 8, 0⟩),
      (0x300104060800F00800000000#96, Instr.vsub ⟨⟨15, false⟩, .n64, .dyn, .none, 4, 6, .vec 8, 0⟩),
      (0x320204060000F0028000FFFF#96, Instr.vmul ⟨⟨15, false⟩, .s16, .dyn, .none, 4, 6, .imm 0x8000FFFF, 0⟩),
      (0x300304060800F00700000000#96, Instr.vmulh ⟨⟨15, false⟩, .n32, .dyn, .none, 4, 6, .vec 8, 0⟩),
      (0x30040406080AF00100000000#96, Instr.vmad ⟨⟨15, false⟩, .s8, .dyn, .none, 4, 6, .vec 8, 10⟩),
      (0x300504060800F00400000000#96, Instr.vdiv ⟨⟨15, false⟩, .s64, .dyn, .none, 4, 6, .vec 8, 0⟩),
      (0x320604060000380B00000041#96, Instr.vand ⟨⟨3, true⟩, .b32, .dyn, .none, 4, 6, .imm 0x41, 0⟩),
      (0x300704060800F00C00000000#96, Instr.vor ⟨⟨15, false⟩, .b64, .dyn, .none, 4, 6, .vec 8, 0⟩),
      (0x300804060800F00600000000#96, Instr.vxor ⟨⟨15, false⟩, .n16, .dyn, .none, 4, 6, .vec 8, 0⟩),
      (0x320904060000F00300000041#96, Instr.vshl ⟨⟨15, false⟩, .s32, .dyn, .none, 4, 6, .imm 0x41, 0⟩),
      (0x310A04060800F00700000000#96, Instr.vshr ⟨⟨15, false⟩, .n32, .dyn, .none, 4, 6, .scal 8, 0⟩),
      (0x300B04060800F00400000000#96, Instr.vsar ⟨⟨15, false⟩, .s64, .dyn, .none, 4, 6, .vec 8, 0⟩),
      (0x300C04060800F00500000000#96, Instr.vmin ⟨⟨15, false⟩, .n8, .dyn, .none, 4, 6, .vec 8, 0⟩),
      (0x300D04060800F00300000000#96, Instr.vmax ⟨⟨15, false⟩, .s32, .dyn, .none, 4, 6, .vec 8, 0⟩),
      (0x300E04060000F04100000000#96, Instr.vabs ⟨⟨15, false⟩, .s8, .dyn, .clamp, 4, 6, .vec 0, 0⟩),
      (0x300F0406080CF00400000000#96, Instr.vbfe ⟨⟨15, false⟩, .s64, .dyn, .none, 4, 6, .vec 8, 12⟩),
      (0x31100406080CF00C00000000#96, Instr.vbfi ⟨⟨15, false⟩, .b64, .dyn, .none, 4, 6, .scal 8, 12⟩),
      (0x301104060000F00900000000#96, Instr.vclz ⟨⟨15, false⟩, .b8, .dyn, .none, 4, 6, .vec 0, 0⟩),
      (0x301204060000F00800000000#96, Instr.vpopc ⟨⟨15, false⟩, .n64, .dyn, .none, 4, 6, .vec 0, 0⟩)] = true := by decide

/-- Words of class `vector_float` written out from R103, the example of chapter 4. -/
theorem test_decode_vector_float :
    decodes [
      (0x40030A08090AF01100000000#96, Instr.ffma ⟨⟨15, false⟩, .f32, .dyn, .none, 0x0A, 0x08, .vec 0x09, 0x0A⟩),
      (0x40000B090800F01100000000#96, Instr.fadd ⟨⟨15, false⟩, .f32, .dyn, .none, 0x0B, 0x09, .vec 0x08, 0⟩),
      (0x410104060800F21000000000#96, Instr.fsub ⟨⟨15, false⟩, .f64, .rtz, .none, 4, 6, .scal 8, 0⟩),
      (0x420204060000F6933F800000#96, Instr.fmul ⟨⟨15, false⟩, .bf16, .sr, .unit, 4, 6, .imm 0x3F800000, 0⟩),
      (0x400904060800F11200000000#96, Instr.fdiv ⟨⟨15, false⟩, .f16, .rne, .none, 4, 6, .vec 8, 0⟩),
      (0x400A04060000F31100000000#96, Instr.fsqrt ⟨⟨15, false⟩, .f32, .rdn, .none, 4, 6, .vec 0, 0⟩),
      (0x400B04060000F01100000000#96, Instr.frcp ⟨⟨15, false⟩, .f32, .dyn, .none, 4, 6, .vec 0, 0⟩),
      (0x400C04060000F05000000000#96, Instr.frsq ⟨⟨15, false⟩, .f64, .dyn, .clamp, 4, 6, .vec 0, 0⟩),
      (0x420D04060000F011FFFFFFFF#96, Instr.fldexp ⟨⟨15, false⟩, .f32, .dyn, .none, 4, 6, .imm 0xFFFFFFFF, 0⟩),
      (0x400804060000F51300000000#96, Instr.frint ⟨⟨15, false⟩, .bf16, .rna, .none, 4, 6, .vec 0, 0⟩),
      (0x400404060800F01100000000#96, Instr.fmin ⟨⟨15, false⟩, .f32, .dyn, .none, 4, 6, .vec 8, 0⟩),
      (0x410504060800F01200000000#96, Instr.fmax ⟨⟨15, false⟩, .f16, .dyn, .none, 4, 6, .scal 8, 0⟩),
      (0x400704060000F01000000000#96, Instr.fclass ⟨⟨15, false⟩, .f64, .dyn, .none, 4, 6, .vec 0, 0⟩),
      (0x400E04060800F41300000000#96, Instr.fdot2 ⟨⟨15, false⟩, .bf16, .rup, .none, 4, 6, .vec 8, 0⟩),
      (0x42170706000020117FC00000#96, Instr.fcmp ⟨⟨2, false⟩, .f32, .or, 7, 6, .imm 0x7FC00000⟩)] = true := by decide

/-- Words of class `special_convert` written out from R104. -/
theorem test_decode_special_convert :
    decodes [
      (0x500009050000F11100000000#96, Instr.fexp2 ⟨⟨15, false⟩, .f32, .rne, .none, 9, 5, .vec 0, 0⟩),
      (0x500109050000F11200000000#96, Instr.flog2 ⟨⟨15, false⟩, .f16, .rne, .none, 9, 5, .vec 0, 0⟩),
      (0x500209050000F11300000000#96, Instr.fsin ⟨⟨15, false⟩, .bf16, .rne, .none, 9, 5, .vec 0, 0⟩),
      (0x500309050000F11100000000#96, Instr.fcos ⟨⟨15, false⟩, .f32, .rne, .none, 9, 5, .vec 0, 0⟩),
      (0x510003040500195100000000#96, Instr.fact ⟨1, true⟩ .rne .clamp 3 4 5),
      (0x520000000000F00000000000#96, Instr.actflip),
      (0x531102030000F11300000000#96, Instr.cvt ⟨⟨15, false⟩, .bf16, .f32, .rne, .none, 2, 3, 0⟩),
      (0x531402030000F01100000003#96, Instr.cvt ⟨⟨15, false⟩, .f32, .e4m3, .dyn, .none, 2, 3, 3⟩),
      (0x541202030000F65500000000#96, Instr.pack ⟨⟨15, false⟩, .e5m2, .f16, .sr, .clamp, 2, 3, 0⟩),
      (0x550502030000F00300000000#96, Instr.unpack ⟨⟨15, false⟩, .s32, .n8, .dyn, .none, 2, 3, 0⟩),
      (0x561308020009F2180000000F#96, Instr.dxq ⟨⟨15, false⟩, .dx8, .bf16, .rtz, 8, 2, 9, 15⟩),
      (0x571908020009F1120000000E#96, Instr.dxd ⟨⟨15, false⟩, .f16, .dx4, .rne, 8, 2, 9, 14⟩),
      (0x580001020304F11400000000#96, Instr.fdp4 ⟨⟨15, false⟩, .e4m3, .rne, .none, 1, 2, .vec 3, 4⟩)] = true := by decide

/-- Words of class `lane` written out from R104, the examples of chapters 7, 24 and 26. -/
theorem test_decode_lane :
    decodes [
      (0x600004060000F00C00000000#96, Instr.vmov ⟨⟨15, false⟩, .b64, 4, 6, 0, 0⟩),
      (0x610004060000F00B00000000#96, Instr.vbcast ⟨15, false⟩ .b32 4 6),
      (0x620001020304F00B00000000#96, Instr.vperm ⟨⟨15, false⟩, .b32, 1, 2, 3, 4⟩),
      (0x630001020000F00B0000005F#96, Instr.vshflUp ⟨⟨15, false⟩, .b32, 1, 2, 0, 0⟩ 95),
      (0x630101020000F00B0000005F#96, Instr.vshflDown ⟨⟨15, false⟩, .b32, 1, 2, 0, 0⟩ 95),
      (0x630201020000F00B0000005F#96, Instr.vshflXor ⟨⟨15, false⟩, .b32, 1, 2, 0, 0⟩ 95),
      (0x63030A010800F00B00000000#96, Instr.vshflIdx ⟨⟨15, false⟩, .b32, 10, 1, 8, 0⟩),
      (0x640218040000A00700000000#96, Instr.vred ⟨⟨10, false⟩, .max, false, false, .n32, .dyn, 24, 4, 0⟩),
      (0x651005040002F01100000000#96, Instr.vscan ⟨⟨15, false⟩, .add, false, true, .f32, .dyn, 5, 4, 2⟩),
      (0x650D06040000F00C00000000#96, Instr.vscan ⟨⟨15, false⟩, .xor, true, false, .b64, .dyn, 6, 4, 0⟩),
      (0x660001020300F00B00000000#96, Instr.vmovrel ⟨⟨15, false⟩, .b32, 1, 2, 3, 0⟩),
      (0x670020080A00F00B00000000#96, Instr.vstrel ⟨⟨15, false⟩, .b32, 0x20, 8, 10, 0⟩),
      (0x680303040500F00300000000#96, Instr.vcmp ⟨15, false⟩ .le .s32 3 4 5),
      (0x690001020304F00B00000000#96, Instr.vsel ⟨15, false⟩ .b32 1 2 3 4),
      (0x6A04050D0B00F00000000000#96, Instr.plop ⟨15, false⟩ 5 13 11 4),
      (0x6B0007030000F00000000000#96, Instr.ppopc ⟨15, false⟩ 7 3),
      (0x6C0002030000F00000000000#96, Instr.pfirst ⟨15, false⟩ 2 3),
      (0x6D0007030000F00000000002#96, Instr.pballot ⟨15, false⟩ 7 3 2),
      (0x6E0002070000F00000000001#96, Instr.pfrom ⟨15, false⟩ 2 7 1),
      (0x6F0009000000000000000000#96, Instr.vlid ⟨0, false⟩ 9)] = true := by decide

/-- Words of class `memory` written out from R105, the examples of chapters 8, 23 and 24. -/
theorem test_decode_memory :
    decodes [
      (0x708006040500F01300000000#96, Instr.ldg ⟨⟨15, false⟩, .bf16, .n32, .normal, .packed, .dyn, .none, 6, 4, 5, 0⟩),
      (0x718100040508F15400000000#96, Instr.stg ⟨⟨15, false⟩, .e4m3, .n32, .normal, .wide, .rne, .clamp, 8, 4, 5, 0⟩),
      (0x718000040203F00B00000000#96, Instr.stg ⟨⟨15, false⟩, .b32, .n32, .normal, .packed, .dyn, .none, 3, 4, 2, 0⟩),
      (0x724206040500F001FFFFFFFC#96, Instr.ldl ⟨⟨15, false⟩, .s8, .s32, .normal, .pair, .dyn, .none, 6, 4, 5, 0xFFFFFFFC⟩),
      (0x738100161312F11300000000#96, Instr.stl ⟨⟨15, false⟩, .bf16, .n32, .normal, .wide, .rne, .none, 18, 22, 19, 0⟩),
      (0x7380000F1109D00B00000000#96, Instr.stl ⟨⟨13, false⟩, .b32, .n32, .normal, .packed, .dyn, .none, 9, 15, 17, 0⟩),
      (0x742007000000F00800000020#96, Instr.lds .n64 .keep 7 0 0x20),
      (0x751000060005F01100000010#96, Instr.sts .f32 .stream 5 6 0x10),
      (0x76C000040600F00000000000#96, Instr.pfg ⟨15, false⟩ .b64 .normal 4 6 0),
      (0x770000010200F00000000080#96, Instr.cinv 1 2 0x80),
      (0x780000000000F00000000002#96, Instr.wopen 2),
      (0x790000000000F00000000002#96, Instr.wclose 2),
      (0x7A0000000000F00000000007#96, Instr.wflush 7),
      (0x7B0000000000F00000000000#96, Instr.winv 0),
      (0x7C1109030400F01200000040#96, Instr.ldgs ⟨15, false⟩ .f16 .stream .wide 9 3 4 0x40)] = true := by decide

/-- Words of class `atomic` written out from R106, the examples of chapters 9 and 23. -/
theorem test_decode_atomic :
    decodes [
      (0x806805050004F30B00000000#96, Instr.atom ⟨⟨15, false⟩, .exch, .rel, .base, .pkg, .b32, 5, 5, 0, 4, 0⟩),
      (0x810C06050008F40C00000000#96, Instr.atomc ⟨⟨15, false⟩, .add, .ar, .base, .sys, .b64, 6, 5, 0, 8, 0⟩),
      (0x822100050708F20800000004#96, Instr.red ⟨⟨15, false⟩, .max, .rlx, .s32, .die, .n64, 0, 5, 7, 8, 4⟩),
      (0x835601020304F10B00000000#96, Instr.atoml ⟨⟨15, false⟩, .xor, .acq, .n32, .crw, .b32, 1, 2, 3, 4, 0⟩),
      (0x840800000000F30000000000#96, Instr.fence .rel .pkg),
      (0x840C00000000F00000000000#96, Instr.fence .ar .wv)] = true := by decide

/-- Words of class `copy` written out from R214, the example of chapter 8. -/
theorem test_decode_copy :
    decodes [
      (0x900006070809F00000000001#96, Instr.cpy ⟨6, 7, 8, some 9⟩),
      (0x910001020300F00000000000#96, Instr.cpys ⟨1, 2, 3, none⟩),
      (0x920001020304F00000000001#96, Instr.cpyg ⟨1, 2, 3, some 4⟩),
      (0x930001020300F00000000000#96, Instr.cpyw ⟨1, 2, 3, none⟩ none),
      (0x930101020300F01300000000#96, Instr.cpyw ⟨1, 2, 3, none⟩ (some .bf16)),
      (0x940005000000F00000000000#96, Instr.cpcommit 5),
      (0x950000050000F00000000000#96, Instr.cpwait 5),
      (0x960000050000F00000000000#96, Instr.cpact 5)] = true := by decide

/-- Words of class `matrix` written out from R285, the examples of chapters 11, 24 and 25. -/
theorem test_decode_matrix :
    decodes [
      (0xA00002010200001300200100#96, Instr.mma ⟨.bf16, 2, 1, 2, 32, false, 256⟩),
      (0xA00001010400001300080040#96, Instr.mma ⟨.bf16, 1, 1, 4, 8, false, 64⟩),
      (0xA100070F0E0000140001C000#96, Instr.mmag ⟨.e4m3, 7, 15, 14, 1, true, 0x4000⟩),
      (0xA20003000000000000000000#96, Instr.mzero 3),
      (0xA30002050000001000040000#96, Instr.mload .f64 2 5 4),
      (0xA40001030000001100100000#96, Instr.mdrain ⟨.f32, false, .dyn, .none, 1, 3, 0, 16⟩),
      (0xA40101030007015300100000#96, Instr.mdrain ⟨.bf16, true, .rne, .clamp, 1, 3, 7, 16⟩),
      (0xA50104000000021300000FFF#96, Instr.mdrainx .bf16 .rtz .none 4 0xFFF),
      (0xA60000080000001100000000#96, Instr.mrsc .f32 0 8),
      (0xA70000010200000000100000#96, Instr.maffl 0 1 2 16),
      (0xA80000000000000000000000#96, Instr.mscan 0 0),
      (0xA80006000005000000000000#96, Instr.mscan 6 5),
      (0xA90003090000000000000000#96, Instr.mcarLoad 3 9),
      (0xA90100040000000000000000#96, Instr.mcarStore 0 4),
      (0xA90203000000000000000000#96, Instr.mcarReset 3)] = true := by decide

/-- Words of class `sequencer` written out from R285, the examples of chapters 24 and 25. -/
theorem test_decode_sequencer :
    decodes [
      (0xB0000000000000007FFFFFFF#96, Instr.sloop 0x7FFFFFFF),
      (0xB00000050000000080000000#96, Instr.sloopInd 5),
      (0xB10000000000000000000000#96, Instr.sendl),
      (0xB20000000000000080000120#96, Instr.sadr 0 0x120 true),
      (0xB300030002000000FFFFFF00#96, Instr.sinc 3 2 0xFFFFFF00),
      (0xB400000000000000000000D0#96, Instr.sbarr 0xD0),
      (0xB5000000000000000D000280#96, Instr.sbwait 0x280 true 3),
      (0xB500000000000000050002A0#96, Instr.sbwait 0x2A0 true 1),
      (0xB60004020200000000002000#96, Instr.scpy 4 2 8192 .toW .none),
      (0xB60004020300001200000040#96, Instr.scpy 4 2 64 .toWSparse .f16),
      (0xB70000000000000012345678#96, Instr.shint 0x12345678),
      (0xB80000000000000000000001#96, Instr.saud true),
      (0xB90000000000000000000000#96, Instr.sfin none),
      (0xB900000000000000800000E0#96, Instr.sfin (some 0xE0))] = true := by decide

/-- Words of class `geometry` written out from R308, the examples of chapters 12 and 26. -/
theorem test_decode_geometry :
    decodes [
      (0xC00328000C00F01000000000#96, Instr.orient2 ⟨⟨15, false⟩, .f64, true, true, 0x28, 0, 0x0C⟩),
      (0xC00124140C00501000000000#96, Instr.orient2 ⟨⟨5, false⟩, .f64, true, false, 0x24, 0x14, 0x0C⟩),
      (0xC10201030000F01100000000#96, Instr.orient3 ⟨⟨15, false⟩, .f32, false, true, 1, 3, 0⟩),
      (0xC20124140C00501000000000#96, Instr.incirc ⟨⟨5, false⟩, .f64, true, false, 0x24, 0x14, 0x0C⟩),
      (0xC30001030000F01100000000#96, Instr.insph ⟨⟨15, false⟩, .f32, false, false, 1, 3, 0⟩),
      (0xC40001030000481100000000#96, Instr.segx ⟨⟨4, true⟩, .f32, false, false, 1, 3, 0⟩),
      (0xC50605000000F00000000000#96, Instr.gstat true 5 2),
      (0xC50015000000F00000000000#96, Instr.gstat false 21 0)] = true := by decide

/-- Words of class `barrier_group` written out from R402, R409, R418, the examples of chapters 17 to 19. -/
theorem test_decode_barrier_group :
    decodes [
      (0xD00000040500F00000000000#96, Instr.bari 4 5),
      (0xD10007060000F00000000001#96, Instr.bara 7 6 1),
      (0xD20000040500F00000000000#96, Instr.barx 4 5),
      (0xD30000060700F00000000000#96, Instr.barw 6 7),
      (0xD3000C050B00F00000000001#96, Instr.barwFlag 12 5 11),
      (0xD40003040000F00000000000#96, Instr.bart 3 4),
      (0xD50000000000F00000000003#96, Instr.grpa 3),
      (0xD60005000000F000000000FF#96, Instr.grpe 5 255),
      (0xD70009040000F00000000005#96, Instr.grpvAnd 9 4 5),
      (0xD70009040000F00000000105#96, Instr.grpvOr 9 4 5),
      (0xD70009040000F00000000205#96, Instr.grpvAdd 9 4 5),
      (0xD80009040000F00000000002#96, Instr.qxfer 9 4 2),
      (0xD90005000000F00000000003#96, Instr.wprio 5 3)] = true := by decide

/-- Words of class `queue_link` written out from R356, R463, the examples of chapters 15, 16 and 21. -/
theorem test_decode_queue_link :
    decodes [
      (0xE00007060000F0000000003F#96, Instr.enq 7 6 63),
      (0xE10000130000F00000000000#96, Instr.qpost 19 0),
      (0xE2000B100000F00000000000#96, Instr.qwait 11 16 0),
      (0xE30007060000F00000000000#96, Instr.fsopen 7 6),
      (0xE40000050000F00000000000#96, Instr.fsclose 5),
      (0xE50000050000F00000000000#96, Instr.fswait 5),
      (0xE60009040500F0000000000D#96, Instr.lpost ⟨9, 4, 5, 3, true, none⟩),
      (0xE70009040506F00000000006#96, Instr.lsend ⟨9, 4, 5, 1, false, some 6⟩),
      (0xE80009040000F00000000001#96, Instr.lpoll 9 4 true),
      (0xE90009040000F00000000000#96, Instr.lqpQuery 9 4),
      (0xE90109040000F00000000000#96, Instr.lqpReset 9 4),
      (0xE90209040000F00000000000#96, Instr.lqpInit 9 4),
      (0xE90309040000F00000000000#96, Instr.lqpReady 9 4)] = true := by decide

/-- Words of class `system` written out from R331, R343, R441, R481, the examples of chapters 13, 14, 20 and 22. -/
theorem test_decode_system :
    decodes [
      (0xF00004003F00F00000000080#96, Instr.pkrd 4 0 63 0x80),
      (0xF10009003F08F00000000080#96, Instr.pkwr 9 0 63 8 0x80),
      (0xF20009000A00F00000000000#96, Instr.pkclr 9 0 10),
      (0xF30009000000F00000000000#96, Instr.pkres 9 0),
      (0xF40009010000F00000000000#96, Instr.pkret 9 1),
      (0xF50009010200F00000000000#96, Instr.pkredir 9 1 2),
      (0xF60009010000F00000000000#96, Instr.pkkill 9 1),
      (0xF7000705063FF00000000005#96, Instr.pgmap 7 5 6 63 5 .k64),
      (0xF7000A040506F00000000005#96, Instr.pgmap 10 4 5 6 5 .k64),
      (0xF80001020000F00000000207#96, Instr.pgunmap 1 2 7 .g1),
      (0xF90000010200F0000000003F#96, Instr.pginv 1 2 63),
      (0xFA0005000000F00000002010#96, Instr.mdrd 5 0x2010),
      (0xFB0000040000F00000000028#96, Instr.mdwr 4 0x28),
      (0xFC0001000000F0000000000D#96, Instr.flrd 1 13),
      (0xFD0001000000F00000000000#96, Instr.flclr 1 0),
      (0xFE0005000000F00000000000#96, Instr.clkrd 5),
      (0xFF0007000000F00000000003#96, Instr.ctxrd 7 3 none),
      (0xFF0007000000F00000004905#96, Instr.ctxrd 7 5 (some 9))] = true := by decide

/-- One term that each check of `wellFormed` refuses: fields and pairs (R33, R57), types, saturation, rounding and counts. -/
theorem test_ill_formed_scalar : ([
    .call 60 0, .calli 0 0x11, .calli 61 0x10, .rgn 0xFF 0x2,
    .add ⟨.b32, .none, 1, 2, .reg 3, 0⟩, .sub ⟨.s32, .unit, 1, 2, .reg 3, 0⟩, .mul ⟨.f32, .none, 1, 2, .reg 3, 0⟩,
    .div ⟨.s32, .none, 1, 2, .reg 3, 4⟩, .mad ⟨.b64, .none, 1, 2, .reg 3, 4⟩, .mulh ⟨.s32, .clamp, 1, 2, .reg 3, 0⟩,
    .rem ⟨.b8, .none, 1, 2, .reg 3, 0⟩, .min ⟨.s32, .none, 1, 2, .reg 3, 1⟩, .max ⟨.none, .none, 1, 2, .reg 3, 0⟩,
    .and ⟨.s32, .clamp, 1, 2, .reg 3, 0⟩, .shl ⟨.f64, .none, 1, 2, .reg 3, 0⟩, .clz .f32 1 2, .brev .none 1 2,
    .bfe .s32 1 2 0 8, .bfe .s64 1 2 60 8, .bfe .b64 1 2 0 0, .bfi 1 2 3 63 2, .cmp .lt .b64 1 2 3, .cmp .eq .f16 1 2 3,
    .cvts .s32 ⟨.s32, .dyn, .none, 1, 2, 0, 0⟩, .cvts .f32 ⟨.s32, .dyn, .unit, 1, 2, 0, 0⟩,
    .cvts .f32 ⟨.s32, .dyn, .none, 1, 2, 1, 0⟩, .sfadd ⟨.f16, .dyn, .none, 1, 2, 3, 0⟩,
    .sfmul ⟨.f32, .dyn, .none, 1, 2, 3, 1⟩, .sffma ⟨.bf16, .dyn, .none, 1, 2, 3, 4⟩] : List Instr).all
      (fun i => !wellFormed i) = true := by decide

/-- The same for vector arithmetic, conversions, lanes and predicates. -/
theorem test_ill_formed_vector : ([
    .vadd ⟨Guard.none, .b32, .dyn, .none, 1, 2, .vec 3, 0⟩, .vsub ⟨Guard.none, .s32, .rne, .none, 1, 2, .vec 3, 0⟩,
    .vmul ⟨Guard.none, .s32, .dyn, .unit, 1, 2, .vec 3, 0⟩, .vdiv ⟨Guard.none, .s64, .dyn, .none, 1, 2, .vec 4, 0⟩,
    .vdiv ⟨Guard.none, .s64, .dyn, .none, 2, 3, .vec 4, 0⟩, .vdiv ⟨Guard.none, .s64, .dyn, .none, 2, 4, .vec 5, 0⟩,
    .vmad ⟨Guard.none, .s64, .dyn, .none, 2, 4, .vec 6, 1⟩, .vabs ⟨Guard.none, .n32, .dyn, .none, 1, 2, .vec 0, 0⟩,
    .vabs ⟨Guard.none, .s32, .dyn, .none, 1, 2, .vec 1, 0⟩, .vmulh ⟨Guard.none, .s32, .dyn, .clamp, 1, 2, .vec 3, 0⟩,
    .vand ⟨Guard.none, .f32, .dyn, .none, 1, 2, .vec 3, 0⟩, .vclz ⟨Guard.none, .s32, .dyn, .none, 1, 2, .scal 3, 0⟩,
    .vbfe ⟨Guard.none, .s8, .dyn, .none, 1, 2, .vec 3, 4⟩, .vbfi ⟨Guard.none, .s32, .dyn, .none, 1, 2, .vec 3, 4⟩,
    .fadd ⟨Guard.none, .e4m3, .dyn, .none, 1, 2, .vec 3, 0⟩, .fadd ⟨Guard.none, .bf16, .dyn, .none, 1, 2, .imm 1, 0⟩,
    .ffma ⟨Guard.none, .f64, .dyn, .none, 2, 4, .vec 6, 3⟩, .fldexp ⟨Guard.none, .f32, .dyn, .none, 1, 2, .imm 1, 1⟩,
    .fsqrt ⟨Guard.none, .f32, .dyn, .none, 1, 2, .vec 1, 0⟩, .fmin ⟨Guard.none, .f32, .rne, .none, 1, 2, .vec 3, 0⟩,
    .fclass ⟨Guard.none, .f32, .dyn, .clamp, 1, 2, .vec 0, 0⟩, .fdot2 ⟨Guard.none, .f32, .dyn, .none, 1, 2, .vec 3, 0⟩,
    .fcmp ⟨Guard.none, .f16, .lt, 1, 2, .vec 3⟩, .fexp2 ⟨Guard.none, .f64, .dyn, .none, 2, 4, .vec 0, 0⟩,
    .cvt ⟨Guard.none, .f32, .f32, .dyn, .none, 1, 2, 0⟩, .cvt ⟨Guard.none, .f16, .f32, .dyn, .none, 1, 2, 2⟩,
    .cvt ⟨Guard.none, .f32, .f16, .rne, .none, 1, 2, 0⟩, .cvt ⟨Guard.none, .s32, .f32, .dyn, .unit, 1, 2, 0⟩,
    .pack ⟨Guard.none, .f32, .f16, .dyn, .none, 1, 2, 0⟩, .unpack ⟨Guard.none, .f16, .f32, .dyn, .none, 1, 2, 0⟩,
    .dxq ⟨Guard.none, .dx8, .f32, .dyn, 1, 2, 1, 0⟩, .dxq ⟨Guard.none, .dx4, .f32, .dyn, 1, 2, 3, 15⟩,
    .dxd ⟨Guard.none, .f32, .dx8, .rne, 1, 2, 3, 0⟩, .fdp4 ⟨Guard.none, .f16, .dyn, .none, 1, 2, .vec 3, 0⟩,
    .vmov ⟨Guard.none, .s32, 1, 2, 0, 0⟩, .vbcast Guard.none .b64 3 2, .vperm ⟨Guard.none, .b64, 2, 4, 6, 8⟩,
    .vshflUp ⟨Guard.none, .b32, 1, 2, 0, 0⟩ 96, .vshflIdx ⟨Guard.none, .b32, 1, 2, 3, 1⟩,
    .vred ⟨Guard.none, .add, false, false, .s32, .dyn, 64, 2, 0⟩, .vred ⟨Guard.none, .and, false, false, .f32, .dyn, 1, 2, 0⟩,
    .vscan ⟨Guard.none, .add, false, false, .f32, .sr, 1, 2, 0⟩, .vscan ⟨Guard.none, .add, false, false, .s32, .dyn, 1, 2, 1⟩,
    .vmovrel ⟨Guard.none, .b64, 2, 4, 6, 0⟩, .vstrel ⟨Guard.none, .b32, 1, 2, 3, 1⟩, .vcmp Guard.none .lt .b32 1 2 3,
    .vsel Guard.none .b64 2 4 5 1, .pballot Guard.none 1 2 3, .pfrom Guard.none 1 2 3] : List Instr).all
      (fun i => !wellFormed i) = true := by decide

/-- The same for memory, matrices, sequencer streams, predicates, groups, links and system instructions. -/
theorem test_ill_formed_system : ([
    .ldg ⟨Guard.none, .none, .base, .normal, .packed, .dyn, .none, 1, 2, 0, 0⟩,
    .ldg ⟨Guard.none, .s32, .base, .normal, .wide, .dyn, .none, 1, 2, 0, 0⟩,
    .ldg ⟨Guard.none, .s64, .base, .normal, .pair, .dyn, .none, 2, 2, 0, 0⟩,
    .stg ⟨Guard.none, .s64, .base, .normal, .packed, .dyn, .none, 1, 2, 0, 0⟩,
    .stg ⟨Guard.none, .s32, .base, .normal, .packed, .dyn, .none, 1, 2, 1, 0⟩,
    .stg ⟨Guard.none, .s32, .b64, .normal, .packed, .dyn, .none, 1, 2, 1, 0⟩,
    .ldl ⟨Guard.none, .s32, .b64, .normal, .packed, .dyn, .none, 1, 2, 2, 0⟩,
    .stl ⟨Guard.none, .f32, .base, .normal, .packed, .rne, .none, 1, 2, 0, 0⟩,
    .lds .e4m3 .normal 1 2 0, .sts .none .normal 1 2 0, .pfg Guard.none .base .normal 1 2 0,
    .ldgs Guard.none .s64 .normal .packed 1 2 3 0, .atom ⟨Guard.none, .and, .rlx, .base, .crw, .f32, 1, 2, 0, 3, 0⟩,
    .atomc ⟨Guard.none, .min, .rlx, .base, .crw, .b32, 1, 2, 0, 3, 0⟩,
    .red ⟨Guard.none, .exch, .rlx, .base, .crw, .b32, 0, 2, 0, 3, 0⟩,
    .red ⟨Guard.none, .add, .acq, .base, .crw, .s32, 0, 2, 0, 3, 0⟩,
    .atoml ⟨Guard.none, .add, .rlx, .base, .die, .s32, 1, 2, 0, 3, 0⟩, .fence .rlx .sys,
    .cpyw ⟨1, 2, 3, none⟩ (some .f64), .mma ⟨.f32, 0, 1, 2, 0, false, 0⟩, .mma ⟨.f32, 0, 1, 2, 0, true, 31⟩,
    .mma ⟨.f64, 1, 1, 2, 0, false, 32⟩, .mmag ⟨.s8, 0, 1, 2, 0, false, 32⟩, .mload .f16 0 1 0, .mload .f64 1 1 0,
    .mdrain ⟨.f64, true, .dyn, .none, 0, 1, 2, 0⟩, .mdrain ⟨.f32, false, .dyn, .none, 0, 1, 2, 0⟩,
    .mdrainx .f16 .dyn .none 0 0, .mdrainx .f32 .dyn .unit 0 0, .mrsc .f64 1 1, .maffl 1 2 3 0, .mscan 1 0, .sadr 0 16 false,
    .sbarr 8, .sbwait 8 false 0, .scpy 0 1 16 .toWSparse .none, .scpy 0 1 16 .toW .b8, .sfin (some 8),
    .orient2 ⟨Guard.none, .f64, false, false, 1, 3, 0⟩, .segx ⟨Guard.none, .f32, false, false, 1, 2, 3⟩,
    .gstat false 1 3, .bara 1 2 0, .qxfer 1 2 0, .enq 60 1 2, .mdrd 1 0x1004, .mdrd 1 0x3100,
    .mdwr 1 0x10, .mdwr 1 0x30, .flrd 1 14, .flclr 1 14, .ctxrd 1 7 none] : List Instr).all
      (fun i => !wellFormed i) = true := by decide

end Sys2Proof
end

