-- ==== Sys2Proof/Tests/Witness.lean ====
section
/-!
SUPPORT. Small states on which the hypotheses of the statements are met: one crew of one wave of 256 registers (or one
sequencer instance) of context 0, with the first GiB of virtual memory mapped.
-/
namespace Sys2Proof.Machine

set_option Elab.async false

def witFrag : Fragment := { owned := BitVec.allOnes 96, mask := BitVec.allOnes 96 }

def witWave : Wave := { gran := 16, save := 0x300000, fa := some witFrag }

/-- Its fragment waits. -/
def witWait (x : Wait) : Wave := { witWave with fa := some { witFrag with wait := x } }

/-- The wave `w` executes. -/
def witState (w : Wave) : State :=
  { State.reset.placed 0 with waves := [(0, w)], cur := some (.frag 0 false), agenda := [] }

def witHere (w : Wave) : Here := ⟨0, false, w, w.fa.getD {}⟩

theorem wit_clear (w : Wave) (rs : List Nat) (h1 : w.status = .live) (h2 : w.fa.isSome = true) (h3 : w.bad = [])
    (h4 : ∀ r ∈ rs, r < w.n) : Clear (witState w) (witHere w) rs := by
  refine ⟨?_, h4, fun x hx => absurd hx (by simp [witState, State.placed, State.reset]), h3⟩
  obtain ⟨f, hf⟩ := Option.isSome_iff_exists.mp h2
  simp [State.here, State.fragment, witState, witHere, Table.get?, h1, hf, Wave.frag]

/-- The same for another state in which that wave executes. -/
theorem wit_clear_of (s : State) (w : Wave) (rs : List Nat) (h0 : s.here = some (witHere w)) (hp : s.stores.preds = [])
    (h3 : w.bad = []) (h4 : ∀ r ∈ rs, r < w.n) : Clear s (witHere w) rs :=
  ⟨h0, h4, fun x hx => absurd hx (by simp [hp]), h3⟩

/-- Where no word of a window has a known place in memory, no die has any. -/
theorem winDies_none (s : State) (l : Nat) (h : (s.crews.all fun x => x.2.words.all fun y => x.2.wordPa y.1 == none) = true) :
    s.winDies l false = 0 := by
  have key (xs : List (Nat × Crew)) (hx : ∀ x ∈ xs, ∀ y ∈ x.2.words, x.2.wordPa y.1 = none) : ∀ m : BitVec 8,
      xs.foldl (fun m x =>
        if x.2.space.isNone && x.2.clus / 64 != homeOf l &&
            (x.2.words.any fun y => (y.2 == 3 || (y.2 == 2 && !false)) && x.2.wordIn (128 * l) 128 y.1)
        then m ||| ((1#8) <<< (x.2.clus / 64)) else m) m = m := by
    induction xs with
    | nil => intro m; rfl
    | cons x xs ih =>
      intro m
      have hn : (x.2.words.any fun y => (y.2 == 3 || (y.2 == 2 && !false)) && x.2.wordIn (128 * l) 128 y.1) = false := by
        refine List.any_eq_false.mpr fun y hy => ?_
        simp [Crew.wordIn, hx x List.mem_cons_self y hy]
      rw [List.foldl_cons, hn, Bool.and_false, if_neg Bool.false_ne_true]
      exact ih (fun y hy => hx y (List.mem_cons_of_mem x hy)) m
  refine key s.crews (fun x hx y hy => ?_) 0
  simpa using List.all_eq_true.mp (List.all_eq_true.mp h x hx) y hy

/-- Memory in which no die holds a line is coherent. -/
theorem wit_coherent (s : State) (h1 : s.mem.l2 = []) (h2 : s.mem.dir = []) (h3 : s.mem.dirBad = [])
    (h4 : (s.crews.all fun x => x.2.words.all fun y => x.2.wordPa y.1 == none) = true := by decide) : Coherent s := by
  intro l _
  constructor
  case reached => intro d hd; rw [winDies_none s l h4] at hd; simp at hd
  all_goals simp [h1, h2, h3, Table.get?]

/-- The instance `i` executes. -/
def witSeq (i : Inst) : State :=
  { State.reset.placed 0 with waves := [], seqs := [(0, i)], cur := some (.seq 0), agenda := [] }

end Sys2Proof.Machine
end

