-- ==== Sys2Proof/Tests/WitnessControl.lean ====
section
/-!
SUPPORT. States that meet the hypotheses of the statements about control flow, the activation table and predicates.
-/
namespace Sys2Proof.Machine

set_option Elab.async false

theorem wit_lands {s : State} {h : Here} {p : Pc}
    (e : (match s.landing h.w.core (s.ctxOf h.w) p with
      | .ok (_, x) => decide (x.dest.map (·.1) = some p) && x.causes == 0 && x.faddr == 0
      | .error _ => false) = true) : ∃ l s1, Lands s h p l s1 := by
  unfold Lands
  split at e
  · rename_i s1 x hx
    simp only [Bool.and_eq_true, decide_eq_true_eq, beq_iff_eq] at e
    obtain ⟨⟨e1, e2⟩, e3⟩ := e
    obtain ⟨c, f, d⟩ := x
    obtain ⟨⟨q, l⟩, rfl, rfl⟩ := Option.map_eq_some_iff.mp e1
    simp only at e2 e3
    exact ⟨l, s1, by rw [hx, e2, e3]⟩
  · exact absurd e (by decide)

/-- The wave stands in slot 4 of the placed line, whose slot 0 takes transfers. -/
def witBranch : Wave :=
  { witWave with fa := some { witFrag with pc := 4 }, s := [(1, 0x40)], p := [(1, 1), (2, BitVec.allOnes 96 - 1)] }

theorem witness_BranchesLand : Clear (witState witBranch) (witHere witBranch) [] ∧ target1 4 0 = .ok 0 ∧
    (∃ l s1, Lands (witState witBranch) (witHere witBranch) 0 l s1) ∧
    (let h := witHere witBranch
     h.s 1 ≠ 0 ∧ h.s 0 = 0 ∧ h.f.mask &&& h.w.readP 15 = h.f.mask ∧ h.f.mask &&& h.w.readP 0 = 0 ∧
     h.f.mask &&& h.w.readP 1 ≠ h.f.mask ∧ h.f.mask &&& h.w.readP 1 ≠ 0 ∧ pcForm (h.s 0) = true ∧
     pcForm (h.s 1 + (0xFFFFFFC0#32).signExtend 64) = true ∧ h.s 1 + (0xFFFFFFC0#32).signExtend 64 = 0) :=
  ⟨wit_clear _ _ rfl rfl rfl (by decide +kernel), by decide +kernel, wit_lands (by decide +kernel), by decide +kernel⟩

/-- Slot 5 is none, the line below line 0 does not exist, slot 1 takes no transfer, and bit 3 of a PC is 0. -/
theorem witness_BadTargetsAdjourn : Clear (witState witBranch) (witHere witBranch) [] ∧
    witBranch.mustWait (witState witBranch) 0 = false ∧ target1 4 5 = .error (1#64 <<< 2) ∧
    target1 4 0xFFFFFFF8 = .error (1#64 <<< 4) ∧ target1 4 1 = .ok 1 ∧
    (match (witState witBranch).landing 0 0 1 with
      | .ok (_, x) => x.dest == none
      | .error _ => false) = true ∧
    pcForm 8 = false ∧ pcForm 5 = false ∧ pcForm (2 ^ 56) = false ∧ pcForm (2 ^ 56 - 64) = true :=
  ⟨wit_clear _ _ rfl rfl rfl (by decide +kernel), by decide +kernel⟩

/-- One lane, the last, is active; or none. -/
def witCall (m : Lanes) : Wave := { witWave with fa := some { witFrag with pc := 4, mask := m } }

theorem witness_CallsLink : (∀ m, Clear (witState (witCall m)) (witHere (witCall m)) [254, 255]) ∧
    (∃ l s1, Lands (witState (witCall 0)) (witHere (witCall 0)) 0 l s1) ∧ successor 4 = some 64 ∧ entryBudget (0 : CodeLine) ≤ 256 ∧
    lanesOf (laneBit 95) = [95] ∧ lanesOf 0 = [] ∧
    (match (witHere (witCall (laneBit 95))).calliChecks (fun l => (witCall (laneBit 95)).readV64 254 l)
        (witState (witCall (laneBit 95))) [95] with
      | .ok (_, r) => r == []
      | .error _ => false) = true ∧
    ∀ l, l < 96 → (laneBit 95).getLsbD l = true → (witCall (laneBit 95)).readV64 254 l = 0 :=
  ⟨fun m => wit_clear _ _ rfl rfl rfl (show ∀ r ∈ [254, 255], r < 256 by decide), wit_lands (by decide +kernel),
    by decide +kernel⟩

/-- The wave's other fragment, and a divergence stack of `n` entries. -/
def witSplit (o : Option Fragment) (n : Nat) : Wave := { witBranch with fb := o, stack := List.replicate n (witFrag, 0) }

theorem witness_SplitsDivide : (∀ n, Clear (witState (witSplit (some witFrag) n)) (witHere (witSplit (some witFrag) n)) []) ∧
    Clear (witState (witSplit none 0)) (witHere (witSplit none 0)) [] ∧
    (∃ l s1, Lands (witState (witSplit none 0)) (witHere (witSplit none 0)) 0 l s1) ∧
    target1 4 0 = .ok 0 ∧ target2 4 0 = .ok 0 ∧ successor 4 = some 64 ∧
    (witSplit (some witFrag) 32).stack.length = 32 ∧ (witSplit (some witFrag) 31).stack.length < 32 ∧
    (witSplit (some witFrag) 32).mustWait (witState (witSplit (some witFrag) 32)) 0 = false ∧
    (let K := fun b => witFrag.mask &&& witBranch.readP b
     K 0 = 0 ∧ K 15 ≠ 0 ∧ K 15 = witFrag.mask ∧ K 1 ≠ 0 ∧ K 1 ≠ witFrag.mask) :=
  ⟨fun n => wit_clear _ _ rfl rfl rfl (by simp), wit_clear _ _ rfl rfl rfl (by decide +kernel),
    wit_lands (by decide +kernel), by decide +kernel⟩

def witJoin (r : Option Pc) : Wave := { witWave with fa := some { witFrag with recon := r } }

theorem witness_JoinsGoToReconvergence : Clear (witState (witJoin none)) (witHere (witJoin none)) [] ∧
    Clear (witState (witJoin (some 0))) (witHere (witJoin (some 0))) [] ∧ (witHere (witJoin (some 0))).f.recon = some 0 ∧
    (witHere (witJoin none)).f.recon = none :=
  ⟨wit_clear _ _ rfl rfl rfl (by simp), wit_clear _ _ rfl rfl rfl (by simp), by decide +kernel⟩

/-- Fragment A stands at its target; B stands there too, or elsewhere. -/
def witFuse (b : Option Fragment) : Wave := { witJoin (some 0) with fb := b }

theorem witness_FragmentsFuse : ∀ b ∈ [none, some { witFrag with recon := some 0 }, some { witFrag with pc := 1, recon := some 0 }],
    (witState (witFuse b)).health.inReset = false ∧
    (witState (witFuse b)).fragment 0 false = some (witHere (witFuse b)) ∧ (witFuse b).budget ≠ 0 ∧
    (witHere (witFuse b)).f.arrived = true ∧ (witFuse b).stack = [] := by decide +kernel

/-- Two waves, so that neither is its crew's last. -/
def witTwo : State := { witState witWave with waves := [(0, witWave), (1, witWave)] }

theorem witness_EndsOfFragments :
    (∀ b, Clear (witState (witSplit b 1)) (witHere (witSplit b 1)) []) ∧ Clear witTwo (witHere witWave) [] ∧
    (match (witState (witSplit none 1)).popFrag (witSplit none 1) with
      | some (.ok _) => true
      | _ => false) = true ∧
    witTwo.lastWave 0 witWave = false ∧
    (let s := witState { witWave with status := .retired }
     s.waves.get? 0 = some { witWave with status := .retired } ∧ ∀ p ∈ s.stores.preds, p.2.wave ≠ 0) :=
  ⟨fun _ => wit_clear _ _ rfl rfl rfl (by simp), wit_clear_of _ _ _ (by decide +kernel) rfl rfl (by simp), by decide +kernel⟩

/-- Its line is held: the fragment may go on when its wait ends. -/
def witHeld (x : Wait) : Wave := { witWave with fa := some { witFrag with wait := x, fetch := .line 0 } }

theorem witness_PlainControl : Clear (witState witWave) (witHere witWave) [] ∧ (witHere witWave).f.wait = .none ∧
    (255 : BitVec 8).toNat < witWave.n ∧ (∀ i, i < 32 → (1 : W32).getLsbD i = true → 255 + i < witWave.n) ∧
    (∃ i, i < 32 ∧ (2 : W32).getLsbD i = true ∧ witWave.n ≤ 255 + i) ∧ witWave.mustWait (witState witWave) 0 = false ∧
    (witState (witHeld (.time 0))).fragment 0 false = some (witHere (witHeld (.time 0))) ∧
    (witHere (witHeld (.time 0))).f.wait = .time 0 ∧ (witHere (witHeld (.time 0))).f.fetched = true ∧
    (0 : W64) ≤ (witState witWave).clk ∧ (witSeq {}).seqHere = some ⟨0, {}⟩ :=
  ⟨wit_clear _ _ rfl rfl rfl (by decide +kernel), by decide +kernel⟩

theorem witness_BreaksAdjourn : Clear (witState witWave) (witHere witWave) [] ∧ witWave.mustWait (witState witWave) 0 = false ∧
    (witSeq {}).seqHere = some ⟨0, {}⟩ ∧ (⟨0, {}⟩ : SeqHere).i.ops = [] :=
  ⟨wit_clear _ _ rfl rfl rfl (by decide +kernel), by decide +kernel⟩

/-- Context 0 owns the stores of core 0; a flip may be pending there. -/
def witOwned (w : Wave) (flips : List (Nat × Nat × Nat × List Nat)) : State :=
  { witState w with stores := { owner := [(0, 1)], flips } }

theorem witness_ActivationResults : Clear (witOwned witWave []) (witHere witWave) [254, 255] ∧
    (let s := witOwned witWave []
     (s.stores.owner.read 0).toNat = s.ctxOf witWave + 1 ∧ s.flipping 0 = false ∧ s.stores.bad = [] ∧
       (witHere witWave).f.wait = .none) ∧
    (let w := witWait (.flip 7)
     let s := witOwned w [(0, 0, 7, [3])]
     s.stores.flips.find? (fun x => x.1 == 0) = some (0, 0, 7, [3]) ∧ (∀ x ∈ [3], s.copies.get? x = none) ∧
       (∀ x ∈ s.seqs, x.2.core = 0 → ∀ m ∈ x.2.ops, m.isActDrain = false) ∧ s.fragment 0 false = some (witHere w) ∧
       (witHere w).f.wait = .flip 7) :=
  ⟨wit_clear_of _ _ _ (by decide +kernel) rfl rfl (by decide), by decide +kernel⟩

def witGeo (code : Bool) : GeoOp := ⟨Guard.mk 15 false, .f64, false, code, 255, 0, 0⟩

/-- Fragment A waits for its predicate 5, which nothing keeps back. -/
def witPred : State :=
  { witState { witWave with fa := some { witFrag with preds := [5] } } with
    stores := { preds := [(0, ⟨0, 255, 5, 1, [], 0, 0, 0⟩)] } }

theorem witness_GeometryResults :
    Clear (witState witWave) (witHere witWave) (geoRegs (witGeo false) 5 3 ++ [255]) ∧
    wellFormed (.insph (witGeo false)) = true ∧ (witState witWave).escalated 0 + 96 ≤ 192 ∧
    ((witHere witWave).geoPoints (witGeo false) 5 3 95).flatten.all FVal.isFinite = true ∧
    wellFormed (.gstat true 59 2) = true ∧
    (∀ x ∈ (witState witWave).stores.preds, ¬ (x.2.wave = 0 ∧ x.2.token ∈ (witHere witWave).f.preds)) ∧
    resolvable 0 [] witPred.stores.preds = [(0, ⟨0, 255, 5, 1, [], 0, 0, 0⟩)] ∧ (witPred.waves.get? 0).isSome = true :=
  ⟨wit_clear _ _ rfl rfl rfl (by decide +kernel), by decide +kernel⟩

end Sys2Proof.Machine
end

