-- ==== Sys2Proof/Tests/WitnessDevice.lean ====
section
/-!
SUPPORT. States that meet the hypotheses of the statements about queues, the link, records, maps, contexts and launches.
-/
namespace Sys2Proof.Machine

set_option Elab.async false

/-- A descriptor with its parking area, finish-scope and queue tables. -/
def witDesc : BitVec 1024 :=
  BitVec.ofNat 1024 (placedRoot + 0x300000 * 2 ^ 64 + 0x400000 * 2 ^ 128 + 0x800000 * 2 ^ 192 + 0x900000 * 2 ^ 256 + 0xA00000 * 2 ^ 320)

/-- Ring at 0x1000, WIDX 0x2000, HEADM 0x2080, eight slots, die 0. -/
def witQueue (st : QState) (head tail : W64) : Queue :=
  { st, head, tail, desc := BitVec.ofNat 512 (0x1000 + 0x2000 * 2 ^ 64 + 0x2080 * 2 ^ 128 + 3 * 2 ^ 192) }

/-- A launch packet at 0x8000; `w` executes. -/
def witDev (w : Wave) (q : Queue) : State :=
  let s := witState w
  { s with
    ctxs := [(0, { st := .active, desc := witDesc })]
    queues := [(0, q)]
    mem := { s.mem with ram := s.mem.ram.update 0x40008000 8 (bytesFn 0x40008000 [1, 0, 0, 0, 0, 0, 0, 0]) }
    launches := [(0, { st := .running, placed := 1, wset := [(0, 0x10000)] })] }

def witEnq (m : Lanes) (x : Wait) : Wave := { witWave with fa := some { witFrag with mask := m, wait := x }, s := [(1, 0x8000)] }

theorem wit_dev_clear (m : Lanes) (x : Wait) (q : Queue) : Clear (witDev (witEnq m x) q) (witHere (witEnq m x)) [] :=
  wit_clear_of _ _ _ rfl rfl rfl (by simp)

/-- What a check of a range answers does not depend on what its failure would be. -/
theorem wit_range (h : Here) (s : State) (k : Access) (a n : Nat) (f g : W64 → State → Abort) (x : State × List Piece)
    (e : h.checkRange s k a n f = .ok x) : h.checkRange s k a n g = .ok x := by
  unfold Here.checkRange at e ⊢
  split at e <;> first | exact e | cases e

theorem witness_QueueInstructions : (∀ m x q, Clear (witDev (witEnq m x) q) (witHere (witEnq m x)) []) ∧
    (witHere (witEnq 0 .none)).f.mask = 0 ∧ (witHere (witEnq 1 .none)).f.mask ≠ 0 ∧
    (witQueue .ready 0 0).st ≠ .disabled ∧ (witQueue .disabled 0 0).st = .disabled ∧
    (witEnq 1 .none).mustWait (witDev (witEnq 1 .none) {}) 0 = false ∧
    (0 : W64) ≤ (witQueue .ready 0 0).head ∧ (witQueue .ready 0 0).head < 1 ∧ (0x8000 : W64).toNat % 128 = 0 ∧
    (let h := witHere (witEnq 1 .none)
     let s := witDev (witEnq 1 .none) (witQueue .ready 0 0)
     (let f : W64 → State → Abort := fun _ s => .hold s
      match h.checkRange s .read 0x8000 128 f with
      | .ok (s1, qs) => (match h.checkRange s1 .write 0x2000 8 f, h.readRange s1 qs f,
          h.checkRange s1 .write ((witQueue .ready 0 0).slotAt 7) 128 f, h.release s1 .sys with
        | .ok (_, ps), .ok (s3, p), .ok _, .ok _ => packetKind p == some 1 && !s3.poisoned ((ps.head?.map (·.pa)).getD 0 / 128)
        | _, _, _, _ => false)
      | _ => false) = true) ∧
    (witQueue .ready 0 0).size ≤ (8 - (witQueue .ready 0 0).head).toNat ∧
    (7 - (witQueue .ready 0 0).head).toNat < (witQueue .ready 0 0).size ∧
    (witHere (witEnq 1 (.qspace 0 8))).f.wait = .qspace 0 8 :=
  ⟨wit_dev_clear, by decide +kernel⟩

theorem witness_FinishScopes : (∀ m x q, Clear (witDev (witEnq m x) q) (witHere (witEnq m x)) []) ∧
    (let s := witDev (witEnq 1 .none) {}
     let t := s.putScope 0 1 5 1 0
     (s.scope 0 1).2.1 = 0 ∧ (t.scope 0 1) = (5, 1, 0) ∧ (t.scope 0 2).2.1 = 0 ∧ (s.ctx 0).fstab + 16 * 255 + 6 ≤ 2 ^ 52 ∧
     (∀ j ∈ [1], (t.scope 0 j).2.1 ≠ 0)) ∧
    Coherent (witDev (witEnq 1 .none) {}) ∧ bits ((witHere (witEnq 1 .none)).s 1) 0 8 = 0 ∧
    (witHere (witEnq 1 (.scope 1))).f.wait = .scope 1 :=
  ⟨wit_dev_clear, by decide +kernel, wit_coherent _ rfl rfl rfl, by decide, by decide⟩

/-- Slot 0 of the ring holds a packet of lap 0 (or nothing); context 0 is active. -/
def witRing (b : Byte) : State :=
  let s := witDev (witEnq 1 .none) (witQueue .ready 0 1)
  { s with mem := { s.mem with ram := s.mem.ram.update 0x40001000 1 (bytesFn 0x40001000 [b]) } }

theorem witness_QueueEvents : (∃ s : State, ∃ l, s.launches.get? 0 = some l ∧ s.markerDue 0 l = true) ∧
    ((witRing 1).queue 0 0).st = .ready ∧ ((witRing 1).queue 0 1).st = .disabled ∧ ((witRing 1).ctx 0).st = .active ∧
    ((witRing 1).queue 0 0).redo = false ∧ ((witRing 1).queue 0 0).head < ((witRing 1).queue 0 0).tail ∧
    (∀ b ∈ [(0 : Byte), 1],
      (match (witRing b).dispAccess 0 0 0x1000 .read with
        | (s1, .ok pa) => decide (pa = 0x40001000) &&
            decide (bits (BitVec.ofNat 1024 (s1.getNat pa 128)) 0 8 = b.toNat) &&
            decide (bits (BitVec.ofNat 1024 (s1.getNat pa 128)) 32 32 = (witQueue .ready 0 1).lap 0)
        | _ => false) = true) ∧
    (match (witRing 1).dispAccess 0 0 0x2080 .write with
        | (_, .ok pa) => pa == 0x40002080
        | _ => false) = true ∧
    (witQueue .ready 0 1).descOk = true ∧ (witQueue .ready 7 0).lap 7 = 0 ∧ (witQueue .ready 7 0).lap 8 = 1 ∧
    ({ marker := true, st := .accepted } : Launch).compAddr = 0 :=
  ⟨⟨{ witRing 1 with launches := [(0, { marker := true, st := .accepted })] }, _, rfl, by decide +kernel⟩, by decide +kernel⟩

/-- Queue pair 0, in a state, with a send and a receive of message 0 that have not ended. -/
def witQp (st : QpState) (ops : List LinkOpn) : Qp :=
  { st, desc := BitVec.ofNat 512 (1 * 2 ^ 16), nsend := 1, nrecv := 1, sends := ops, recvs := ops }

def witLink (st : QpState) (ops : List LinkOpn) (s : W64) : State :=
  let w : Wave := { witWave with s := [(1, s), (2, 0x10000 * 2 ^ 0)] }
  { witState w with link := { qps := [(0, witQp st ops)] }, clk := 100000 }

def witFrame (typ : BitVec 8) (msn tlen : W32) (payload : List Byte) : Frame :=
  { fcsOk := true, ver := 1, typ, dqp := 0, sqp := 0, msn, tlen, off := 0, kind := 0, att := 0, sts := if typ = 2 then 1 else 0, rsv := 0,
    payload }

theorem witness_LinkOperations :
    (∀ m, Clear (witState (witEnq m .none)) (witHere (witEnq m .none)) []) ∧
    (let s := witLink .ready [] 0
     let h := witHere { witWave with s := [(1, 0), (2, 0x10000)] }
     s.here = some h ∧
     (∀ post ∈ [false, true], (match h.linkCheck s post ⟨59, 0, 0, 0, false, none⟩ with
      | (_, none) => true
      | _ => false) = true) ∧
     linkBad true 0 false (4 <<< 32) (h.s 0) = false ∧ linkBad true 0 false (h.s 0) (h.s 0) = true) ∧
    qpDescOk (witQp .ready []).desc = true ∧ ((witLink .reset [] 0).qp 0).st = .reset ∧ ((witLink .error [] 0).qp 0).st = .error ∧
    ((witLink .ready [{}] 0).qp 0).op true 0 = some {} ∧
    (∀ t ∈ [(1 : BitVec 8), 2, 3], frameOk (witFrame t 0 0 []) (witQp .ready [{}]) = true) ∧
    frameOk (witFrame 1 0 4 [0, 0, 0, 0, 0]) (witQp .ready []) = false ∧
    ((0 : W32) - (witQp .ready [{}]).low + 1024).toNat < 2048 ∧ 2048 ≤ ((1024 : W32) - (witQp .ready [{}]).low + 1024).toNat ∧
    (witQp .ready [{}]).doneStatus 0 = none ∧ { witQp .ready [] with finished := [(false, 0, 1, 0)] }.doneStatus 0 = some 1 ∧
    (match (witLink .ready [{}] 0).place (witQp .ready [{}]) { tlen := some 0 } 0 [] with
      | (_, none) => true
      | _ => false) = true ∧
    (match State.sendPackets 0 {} (witLink .ready [{}] 0) [0] with
      | (_, none) => true
      | _ => false) = true ∧
    ((witLink .ready [{}] 0).clk - 0).toNat = 100000 ∧ ¬ (((witLink .ready [{}] 0).clk - 1).toNat ≥ 100000) := by
  exact ⟨fun _ => wit_clear _ _ rfl rfl rfl (by simp), by decide +kernel⟩

/-- Record 0 of context 0 is in use for an adjourned wave 1, with the causes `c`; wave 0 executes and names it. -/
def witRec (c : Byte) (gen : W32) (w : Work) : State :=
  let s := witDev { witWave with s := [(1, 1 <<< 32), (2, 2 <<< 32), (3, 1)] } {}
  { s with
    ctxs := [(0, { st := .active, desc := witDesc, gens := [(0, gen)] })]
    waves := s.waves ++ [(1, { witWave with status := .adjourned, wid := 1, save := 0x340000 })]
    records := [(0, { st := .handling, work := w })]
    mem := { s.mem with ram := s.mem.ram.update 0x300008 1 (bytesFn 0x300008 [c]) } }

def witRecHere : Here := witHere { witWave with s := [(1, 1 <<< 32), (2, 2 <<< 32), (3, 1)] }

theorem witness_RecordInstructions : (∀ c g w, Clear (witRec c g w) witRecHere []) ∧
    (∃ s : State, ∃ d, s.detached[0]? = some d ∧ s.consumedBy d = none ∧ (s.filing d).rcd.depth ≤ 3) ∧
    (∃ s : State, (match s.takeMessage 0 0 with
      | some (_, _, .ok m) => decide (m.take 1 = [1])
      | _ => false) = true) ∧
    witRecHere.pkNamed (witRec 0 1 .event) (witRecHere.s 1) = true ∧
    witRecHere.pkNamed (witRec 0 1 .event) (1 <<< 21) = false ∧
    ((witRec 0 1 .event).pkCurrent (witRecHere.s 1)).isSome = true ∧ (witRec 0 1 .event).pkCurrent (witRecHere.s 2) = none ∧
    (∀ o ∈ [0, 0x3F8, 0x1000, 0x1000 + 0x400 + 384 * 256 - 8],
      ((witRec 0 1 (.wave 1)).pkAddr 0 { work := .wave 1 } o).isSome = true) ∧
    (witRec 0 1 (.wave 1)).pkAddr 0 { work := .wave 1 } 0x400 = none ∧
    (witRec 0 1 (.wave 1)).patchable 0 { work := .wave 1 } 0x1008 0 = true ∧
    (witRec 0 1 (.wave 1)).patchable 0 { work := .wave 1 } 0x1008 8 = false ∧
    (witRec 0 1 (.wave 1)).pkStatus 0 { work := .wave 1 } .resume = 0 ∧
    (witRec 1 1 (.wave 1)).pkStatus 0 { work := .wave 1 } .resume = 3 ∧
    (witRec 1 1 (.wave 1)).pkStatus 0 { work := .wave 1 } (.redirect 8) = 5 ∧
    (match witRecHere.release (witRec 0 1 .event) .sys with
      | .ok _ => true
      | _ => false) = true ∧
    (witRec 0 1 .event).detached[0]? = none ∧ (witRec 0 1 .event).takeMessage 0 0 = none :=
  ⟨fun c g w => wit_clear_of _ { witWave with s := [(1, 1 <<< 32), (2, 2 <<< 32), (3, 1)] } [] rfl rfl rfl (by simp),
    ⟨{ witRec 0 1 .event with detached := [{ work := .event, ctx := 0, die := 0, report := {} }] }, _, rfl, by decide +kernel⟩,
    ⟨{ witDev witWave {} with link := { qps := [(0, { witQp .ready [] with inbox := [(0, 0, 0x8000)] })] } }, by decide +kernel⟩,
    by decide +kernel⟩

end Sys2Proof.Machine
end

