-- ==== Sys2Proof/Tests/WitnessEngines.lean ====
section
/-!
SUPPORT. States that meet the hypotheses of the statements about sequencers, barriers and groups.
-/
namespace Sys2Proof.Machine

set_option Elab.async false

/-- x1 stands at the last byte at which 63 rows of 16 bytes and one of 512 bytes end with the run. -/
def witInst (ops : List MatOp) : Inst :=
  { base := [(1, 65536 - 63 * 16 - 512), (2, 65536 - 512), (3, 2 ^ 18 - 256), (4, 65532)], ops }

def witS (ops : List MatOp) : State := witSeq (witInst ops)

theorem witness_MatrixOperationsIssue : (witS []).seqHere = some ⟨0, witInst []⟩ ∧
    (witInst []).ops.length < Config.matrixPermits ∧ (witInst []).seqSr = false ∧
    (let c := (witS []).instCrew (witInst [])
     c.runHas ((witInst []).eff 1) (rowsExtent 1 512) = true ∧ c.runHas ((witInst []).eff 1) (rowsExtent 1 513) = false ∧
     c.runHas ((witInst []).eff 2) 512 = true) ∧
    (witInst []).eff 3 + extentB .f32 false 1 ≤ 2 ^ 18 ∧ ((witS []).own 0 0).isSome = true ∧ (witS []).flipping 0 = false := by
  decide +kernel

/-- One operation stands ready to commit. -/
def witOpn (op : Instr) : MatOp := { op, ea := 65536 - 63 * 16 - 512, eb := 65536 - 63 * 16 - 512 }

def witMat (op : Instr) : MatCtx :=
  ⟨0, witInst [witOpn op], witOpn op, (witS [witOpn op]).instCrew (witInst []), (witS [witOpn op]).instLaunch (witInst [])⟩

theorem wit_oldest (op : Instr) : Oldest (witS [witOpn op]) 0 (witMat op) := by
  refine ⟨?_, rfl, rfl, rfl⟩
  simp [witS, witSeq, witInst, witMat]

theorem witness_MatrixProductsCommit : (∀ op, Oldest (witS [witOpn op]) 0 (witMat op)) ∧
    (let s := witS [witOpn (.mzero 7)]
     let m := witMat (.mzero 7)
     m.ready s (rowRanges m.o.ea 16 4) [] [(0, 256)] (accWords false 7 0 64) = (s, none) ∧
     m.ready s (rowRanges m.o.ea 16 512) [] [] [] = (s, none) ∧
     m.ready s [(m.o.ea, 512)] [] [] (accWords true 6 0 64) = (s, none)) ∧
    (let s := witS [witOpn (.mmag ⟨.f32, 0, 1, 2, 1, false, 1⟩)]
     let m := witMat (.mmag ⟨.f32, 0, 1, 2, 1, false, 1⟩)
     ∃ s1 i1, m.mmag s ⟨.f32, 0, 1, 2, 1, false, 1⟩ = (s1, .ok i1)) :=
  ⟨wit_oldest, by decide +kernel, ⟨_, _, rfl⟩⟩

theorem witness_MatrixDrainsCommit : (∀ op, Oldest (witS [witOpn op]) 0 (witMat op)) ∧
    (let s := witS [witOpn (.mzero 7)]
     let m := witMat (.mzero 7)
     m.ready s [] (rowRanges m.o.ea 16 512) [] (accWords true 6 0 64) = (s, none) ∧
     m.ready s (rowRanges m.o.ea 16 256 ++ rowRanges m.o.eb 16 256) [] [] [] = (s, none) ∧
     m.ready s [] [] [] (accWords true 6 0 64 ++ carryCodes 7) = (s, none) ∧
     m.ready s [(m.o.ea, 512)] [] [] [] = (s, none) ∧ m.ready s [] [(m.o.ea, 512)] [] (carryCodes 7) = (s, none)) :=
  ⟨wit_oldest, by decide +kernel⟩

/-- A line of the sequencer stream with sendl in slot 1, and an instance in one loop (or in three). -/
def witLine : CodeLine := (0xB10000000000000000000000#512) <<< 96

def witLoop (depth : Nat) (c : W32) : Inst := { witInst [] with depth, ctr := [c, c, c], fetch := .line witLine }

theorem witness_SequencerLoops : (∀ d c, (witSeq (witLoop d c)).seqHere = some ⟨0, witLoop d c⟩) ∧
    (witLoop 3 1).depth = 3 ∧ (witLoop 3 1).ops = [] ∧ (witLoop 2 1).depth ≠ 3 ∧ (witLoop 0 1).depth = 0 ∧
    (witLoop 1 1).depth ≠ 0 ∧ ((witLoop 1 1).ctr.getD 0 0 - 1 : W32) = 0 ∧ ((witLoop 1 0).ctr.getD 0 0 - 1 : W32) ≠ 0 ∧
    SeqReads (witS []) ⟨0, witInst []⟩ ((witInst []).eff 4) 4 ∧ SeqReads (witS []) ⟨0, witInst []⟩ 65504 32 ∧
    ((witS []).instCrew (witInst [])).runHas 65505 32 = false ∧
    (match State.skipFrom 0 0 (2 ^ 54) (witSeq (witLoop 0 0)) (advancePc 0 (.line witLine)).1 (advancePc 0 (.line witLine)).2 0 with
      | (_, .to pc _) => pc == 2
      | _ => false) = true :=
  ⟨fun _ _ => rfl, rfl, rfl, by decide, rfl, by decide, by decide, by decide, ⟨by decide, by decide, by decide⟩,
    ⟨by decide, by decide, by decide⟩, by decide, by decide +kernel⟩

theorem witness_SequencerSynchronisation : (witS []).seqHere = some ⟨0, witInst []⟩ ∧
    (let s := witS []
     let c := s.instCrew (witInst [])
     let k (kind : ScpyKind) (n : Nat) := SeqHere.scpyOf ⟨0, witInst []⟩ s 4 4 n kind .none
     (c.runHas 65520 16 = true ∧ SeqHere.clear ⟨0, witInst []⟩ s 65520 16 = true ∧ (wordsOf (c.base + 65520) 16).find? (s.badWord c.clus) = none) ∧
     s.instQuiet ⟨0, witInst []⟩ = true ∧ (witLoop 3 0).depth = 3 ∧
     (k .fromA 0).issueBad c (s.instLaunch (witInst [])) = none ∧ (k .fromA 4).issueBad c (s.instLaunch (witInst [])) = none ∧
     (k .fromA 5).issueBad c (s.instLaunch (witInst [])) ≠ none ∧ (k .toW 16).issueBad c (s.instLaunch (witInst [])) = none ∧
     (k .fromA 4).inCore = false ∧ (k .toW 16).inCore = true ∧ (s.own 0 0).isSome = true ∧
     (s.instCopies 0).length < Config.copyPermits ∧ s.copyFull 0 (k .toW 16) = false ∧
     (s.instCopies 0).all (fun o => !s.copyClash o (k .toW 16)) = true) := by decide +kernel

theorem witness_SequencerTiles : ∃ s : State, ∃ i, s.seqHere = some ⟨0, { tile := false }⟩ ∧
    (s.closeTile 0).seqs.get? 0 = some i := ⟨witSeq { tile := false }, { tile := false }, rfl, rfl⟩

/-- A sampled task of core 0; `runs` are its replays. -/
def witSampled (runs : List (Nat × W64)) : Sampled := { launch := 0, core := 0, crew := {}, ttask := 0, sig := 5, runs }

def witSample (runs : List (Nat × W64)) : State := { witS [] with samples := [(0, witSampled runs)] }

theorem witness_AuditEvents : (∀ r, (witSample r).samples.get? 0 = some (witSampled r)) ∧
    (witSampled []).mayRun (witSample []) 64 = true ∧ (witSampled []).mayRun (witSample []) 63 = false ∧
    (let s : State := { witSample [(64, 6)] with health := { exposed := [List.range 64, List.range 64] } }
     s.otherDie (s.launch 0) [0, 1] = false) :=
  ⟨fun _ => rfl, by decide +kernel⟩

/-- s1 is the last object's offset, s2 the one after it. -/
def witBar (m : Lanes) : Wave := { witWave with fa := some { witFrag with mask := m }, s := [(1, 65520), (2, 65536), (3, 1)] }

theorem witness_BarrierObjects : Clear (witState (witBar 0)) (witHere (witBar 0)) [] ∧
    Clear (witState (witBar 1)) (witHere (witBar 1)) [] ∧ (witHere (witBar 1)).f.mask ≠ 0 ∧ (witHere (witBar 1)).f.wait = .none ∧
    (match (witHere (witBar 1)).barCheck (witState (witBar 1)) 65520 with
      | .ok off => off == 65520
      | _ => false) = true ∧
    (match (witHere (witBar 1)).barCheck (witState (witBar 1)) 65536 with
      | .ok _ => false
      | _ => true) = true ∧
    Clear (witState (witWait (.barrier 0 true))) (witHere (witWait (.barrier 0 true))) [] :=
  ⟨wit_clear _ _ rfl rfl rfl (by simp), wit_clear _ _ rfl rfl rfl (by simp), by decide, by decide, by decide +kernel,
    by decide +kernel, wit_clear _ _ rfl rfl rfl (by simp)⟩

/-- The flag at s1 differs from s0 = 0 at 0, where code stands, and equals it at 0x8000. -/
def witFlag (m : Lanes) (x : Wait) (f : Fetch) : Wave :=
  { witWave with fa := some { witFrag with mask := m, wait := x, fetch := f }, s := [(1, 0x8000)] }

theorem witness_FlagWaits : (∀ m, Clear (witState (witFlag m .none .none)) (witHere (witFlag m .none .none)) []) ∧
    (0x8000 : W64).toNat % 8 = 0 ∧
    (match (witState (witFlag 1 .none .none)).checkGlobal 0 ((witState (witFlag 1 .none .none)).launchOf (witFlag 1 .none .none))
        .read 0x8000 8 with
      | (s1, .ok (p :: _)) => p.pa == 0x40008000 && !s1.poisoned (p.pa / 128)
      | _ => false) = true ∧
    ((witState (witFlag 1 .none .none)).flagRead 0x40008000 0).2 = none ∧
    ((witState (witFlag 1 .none .none)).flagRead 0x40008000 1).2 = some 0 ∧
    (witState (witFlag 1 (.flag 0x8000 0) .none)).fragment 0 false = some (witHere (witFlag 1 (.flag 0x8000 0) .none)) ∧
    (witState (witFlag 1 .none .none)).mem.l2 = [] ∧ 0x40008000 % 8 = 0 ∧ Coherent (witState (witFlag 1 .none .none)) :=
  ⟨fun _ => wit_clear _ _ rfl rfl rfl (by simp), by decide, by decide +kernel, by decide +kernel, by decide +kernel, by decide, rfl,
    by decide, wit_coherent _ rfl rfl rfl⟩

/-- A line with barw.flag in slot 0, at which a fragment waits; and such a wait that the home has ended. -/
theorem witness_FlagPolls : (let l : CodeLine := ((encode (.barwFlag 2 1 0)).getD 0).setWidth 512
      let w := witFlag 1 (.flag 0x8000 0) (.line l)
      (witState w).fragment 0 false = some (witHere w) ∧ (witHere w).f.instr? = some (.barwFlag 2 1 0) ∧
      (witHere w).f.ended = none ∧
      (match (witState w).translate 0 ((witState w).ctxOf w) 0x8000 .read with
        | (s1, .ok pa) => pa == 0x40008000 && !(s1.settleOver (witHere w).f.id [⟨0x8000, pa, 8⟩]).poisoned (pa / 128)
        | _ => false) = true) ∧
    (let w : Wave := { witWave with fa := some { witFrag with wait := .flag 0x8000 0, ended := some (.value 5) } }
     Clear (witState w) (witHere w) [] ∧ (witHere w).f.ended = some (.value 5)) :=
  ⟨by decide +kernel, wit_clear _ _ rfl rfl rfl (by simp), rfl⟩

/-- Group 0 has the members 0 and 1; wave 0 is the one of %wid `w`. -/
def witGroup (wid : Nat) (x : Wait) (arr : BitVec 64) : State :=
  { witState { witWait x with wid } with
    crews := [(0, { nunits := 1, groups := [(0, { Group.start 3 with arr })] })] }

theorem witness_GroupArrivals : (∀ n x r, Clear (witGroup n x r) (witHere { witWait x with wid := n }) []) ∧
    (Group.start 3).members.getLsbD 1 = true ∧ (Group.start 3).members.getLsbD 2 = false ∧
    ((witGroup 2 .none 0).crew 0).groups.get? 63 = none ∧
    { witWait Wait.none with wid := 2 }.mustWait (witGroup 2 .none 0) 0 = false ∧
    (({ Group.start 3 with arr := 2 }.arrive 0 none).tryComplete).ph ≠ (Group.start 3).ph ∧
    (((Group.start 3).arrive 0 none).tryComplete).ph = (Group.start 3).ph := by
  refine ⟨fun n x r => wit_clear_of _ { witWait x with wid := n } [] rfl rfl rfl (by simp), by decide, by decide, by decide, by decide,
    by decide, by decide⟩

/-- Waves 0 and 1 of one crew; the second has `g` granules. -/
def witPair (g : Nat) : State :=
  { witState witWave with
    waves := [(0, witWave), (1, { witWave with wid := 1, gran := g, save := 0x340000 })]
    ctxs := [(0, { st := .active, desc := BitVec.ofNat 1024 (placedRoot + 0x300000 * 2 ^ 512 + 0x100000 * 2 ^ 576) })] }

theorem witness_RegistersMoveBetweenWaves : (∀ g, Clear (witPair g) (witHere witWave) []) ∧
    (witHere witWave).qxferStatus (witPair 1) 64 1 = 3 ∧ (witHere witWave).qxferStatus (witPair 1) 0 1 = 3 ∧
    (witHere witWave).qxferStatus (witPair 16) 1 1 = 2 ∧ (witHere witWave).qxferStatus (witPair 1) 1 16 = 2 ∧
    ∀ x ∈ (witPair 1).stores.preds, x.2.wave = 0 → x.2.d < witWave.n - 16 :=
  ⟨fun _ => wit_clear_of _ _ _ rfl rfl rfl (by simp), by decide +kernel, by decide +kernel, by decide +kernel, by decide +kernel,
    by decide⟩

end Sys2Proof.Machine
end

