-- ==== Sys2Proof/Tests/WitnessHost.lean ====
section
/-!
SUPPORT. States that meet the hypotheses of the statements about maps, the directory, registers, contexts, launches, saved work and
steps.
-/
namespace Sys2Proof.Machine

set_option Elab.async false

/-- Context 0 is active, with a parking area; s1 is a virtual address of the second GiB, s2 a frame. -/
def witMapWave (x : Wait) : Wave :=
  { witWave with fa := some { witFrag with wait := x }, s := [(1, 0x40000000), (2, 0x50000000), (3, 1), (4, 1 <<< 56)] }

def witMap (x : Wait) (shoots : Table Shoot) : State :=
  let s := witState (witMapWave x)
  { s with mem := { s.mem with shoots }, ctxs := [(0, { st := .active, desc := BitVec.ofNat 1024 placedRoot }), (1, {})] }

theorem witness_MapInstructions : (∀ x t, Clear (witMap x t) (witHere (witMapWave x)) []) ∧
    (∃ x, (witMap (.shootdown 0) [(0, ⟨0, 0, 0, 0, 63, 0⟩)]).mem.shoots.get? 0 = some x ∧
      (witMap (.shootdown 0) [(0, ⟨0, 0, 0, 0, 63, 0⟩)]).fragment x.wave false = some (witHere (witMapWave (.shootdown 0)))) ∧
    (∀ t, (witMap .none t).mem.posts = [] ∧ (witMap .none t).copies = []) ∧
    (witMapWave .none).mustWait (witMap .none []) 0 = false ∧ (witMap .none []).mapRight 0 0 = true ∧
    (witMap .none []).mapRight 0 1 = false ∧
    (let h := witHere (witMapWave .none)
     let s := witMap .none []
     bits (h.s 1) 56 8 = 0 ∧ (h.s 1).toNat % pgBytes .g1 = 0 ∧ (h.s 3).toNat % pgBytes .k64 ≠ 0 ∧ bits (h.s 4) 56 8 ≠ 0 ∧
     s.leafFits 0 .k64 (h.s 2) = true ∧ s.spareFits 0 0 = true ∧ entS (h.s 2) = false ∧
     (match h.mapLeaf s 59 (h.s 1) 0 0 0 .g1 with
      | .ok _ => true
      | _ => false) = true ∧
     (match s.descend 0 (h.s 1).toNat (pgLevel .g1) 3 (s.ctx 0).root with
      | .ok (l, pa) => l == pgLevel .g1 && (match s.oldLeaf (pgLevel .g1) pa with
        | .ok e => e == 0
        | _ => false)
      | _ => false) = true ∧
     (match h.unmapLeaf s 59 0 0 .g1 with
      | .ok _ => true
      | _ => false) = true ∧
     (match s.leafEntry 0 (h.s 1).toNat 3 (s.ctx 0).root with
      | .ok none => true
      | _ => false) = true ∧
     (match s.leafEntry 0 0 3 (s.ctx 0).root with
      | .ok (some (l, pa)) => l == pgLevel .g1 && decide (entST (s.get64 pa) = 0) && !entS (s.get64 pa)
      | _ => false) = true ∧
     (match h.release s .pkg with
      | .ok _ => true
      | _ => false) = true) ∧
    (match (witMap .none []).translate 0 0 0x3FFFFFFF .read with
      | (_, .ok _) => true
      | _ => false) = true :=
  ⟨fun x t => wit_clear_of _ (witMapWave x) [] rfl rfl rfl (by simp), ⟨_, rfl, by decide +kernel⟩, fun _ => ⟨rfl, rfl⟩,
    by decide +kernel⟩

/-- A snapshot copy is wanted for a page of a launch. -/
theorem witness_SnapshotCopies : ∃ s : State, s.mem.snaps.contains (0, 0) = true ∧
    (s.shadowOf fun l h => l.ctx == 0 && h.va == 0).isSome = true :=
  ⟨{ witMap .none [] with mem := { snaps := [(0, 0)] }, launches := [(0, { shadows := [⟨0, 65536, 0x40000000, 0x50000000, false⟩] })] },
    by decide +kernel, by decide +kernel⟩

/-- Lines of both kinds of home, the first and the last byte of a line, and the last unit of a cluster. -/
theorem witness_DirectoryEvents : Coherent State.reset ∧ memExists (128 * 0x2000000) = true ∧ memExists (128 * 0) = true ∧
    memExists (128 * 0x18000000) = false ∧ homeOf 0 = 0 ∧ homeOf 0x20000000 = 1 ∧ State.reset.probeOk 0 7 = true ∧
    State.reset.poisoned 0 = false ∧ (127 / 128 = 0) ∧ (128 % (Ty.width .n64 / 8) = 0) ∧ State.reset.mem.dirBad = [] ∧
    State.reset.launches = [] ∧ State.reset.unitTaken 511 63 = false ∧ (witMap .none []).unitTaken 0 0 = true :=
  ⟨wit_coherent _ rfl rfl rfl, by decide +kernel⟩

/-- Offsets that are and are not registers, both ends of the power limit, and an island at each bound. -/
theorem witness_RegistersAndHealth : (∀ x t, Clear (witMap x t) (witHere (witMapWave x)) []) ∧
    (∃ s w, Clear s (witHere w) [] ∧ s.ctxOf w ≠ 0 ∧ w.mustWait s 0 = false) ∧
    (∃ s : State, 5 ∈ s.health.pendingQ ∧ s.coreIdle 5 = true) ∧
    (State.reset.bar0 0).isSome = true ∧ State.reset.bar0 0x0FF8 = none ∧ (witMap .none []).ctxOf (witMapWave .none) = 0 ∧
    (0x10000 : W64).toNat % 65536 = 0 ∧ memExists 0x10000 = true ∧ State.reset.health.jbase = 0 ∧
    (0x40000 : W64).toNat % 0x40000 = 0 ∧ 1200 ≤ (1200 : W64).toNat ∧ (1200 : W64).toNat ≤ 2650 ∧
    (State.reset.ctxs.any fun x => x.1 != 0 && x.2.st != .free && x.2.part == 7) = false ∧ State.reset.health.sigs < 2 ^ 20 ∧
    ([(19 : BitVec 8), 20, 20, 20, 20, 20, 20, 20].length = 8) ∧ ({ voff := 11 } : Island).voff < 12 ∧
    12 ≤ ({ voff := 12, freq := 650 } : Island).voff ∧ 600 < ({ voff := 12, freq := 650 } : Island).freq ∧
    (witMap .none []).coreIdle 0 = false ∧ (63 : Nat) < 64 ∧ (7 : Nat) < 8 ∧ (504 : Nat) < 512 ∧ 504 % 8 = 0 :=
  ⟨fun x t => wit_clear_of _ (witMapWave x) [] rfl rfl rfl (by simp),
    ⟨{ witState witWave with launches := [(0, { ctx := 1 })] }, witWave, wit_clear_of _ witWave [] rfl rfl rfl (by simp),
      by decide +kernel⟩,
    ⟨{ State.reset with health := { pendingQ := [5] } }, by decide +kernel⟩, by decide +kernel⟩

/-- R468 to R480: what the host reads after reset: PLIM, STATE of context 0 (created), QSTATE of a queue, the register of spent
signatures; an offset without a register counts in ERRST. -/
theorem test_host_reads : State.reset.hostReg 0x3020 8 = some 2650 ∧ State.reset.hostReg 0x10010 8 = some 1 ∧
    State.reset.hostReg 0x400028 8 = some 0 ∧ State.reset.hostReg 0x800FF8 8 = some 0 ∧
    (State.reset.hostRead 0x3020 4).health.errst = 0x302000000001 ∧
    (State.reset.hostRead 0x1000 8).health.errst = 0x100000000001 := by decide +kernel

/-- The descriptor of context `c` stands at 0x40000000, and context `c` is in state `st`. -/
def witCtx (c : Nat) (st : CState) (z : CState) : State :=
  { State.reset with
    ctxs := [(0, { st := z }), (c, { st })]
    mem := { ram := Memory.update [] 0x40000000 128 (bytesFn 0x40000000
      (leBytes 8 0x41000000 ++ leBytes 8 0x42000000 ++ leBytes 8 0x400000 ++ leBytes 8 0x43000000 ++ leBytes 8 0x44000000 ++
        leBytes 8 0x45000000 ++ leBytes 8 0x46000000 ++ leBytes 8 0 ++ leBytes 1 0 ++ leBytes 1 0 ++ leBytes 2 1)) }
    health := { c0desc := if z = .active then 0x48000000 else 0, parts := [(9, 0x40000000), (10, 0x40000000)] } }

theorem witness_ContextCommands :
    (∃ x, (witCtx 1 .free .active).readDesc 0x40000000 = some x ∧ (witCtx 1 .free .active).descFits false x = true) ∧
    (∃ x, (witCtx 1 .free .created).readDesc 0x40000000 = some x ∧ (witCtx 1 .free .created).descFits true x = true) ∧
    Coherent (witCtx 1 .free .active) ∧
    ((witCtx 1 .free .active).ctx 1).st = .free ∧ (witCtx 1 .free .active).health.c0desc ≠ 0 ∧
    (witCtx 1 .free .created).health.c0desc = 0 ∧ ((witCtx 1 .free .created).ctx 0).st = .created ∧
    (∀ st ∈ [CState.created, .active, .suspended, .faulted, .destroying], ((witCtx 63 st .active).ctx 63).st = st) ∧
    (!(witCtx 63 .suspended .active).resident 63) = true ∧ (witCtx 63 .destroying .active).ctxGone 63 = true :=
  ⟨⟨_, rfl, by decide +kernel⟩, ⟨_, rfl, by decide +kernel⟩, wit_coherent _ rfl rfl rfl, by decide +kernel⟩

/-- A launch of one crew of one wave at 0xA000, where an entry line stands; `crews` 0 fails the first check. -/
def witPacket (crews : Nat) : BitVec 1024 :=
  BitVec.ofNat 1024 (1 + 0xA000 * 2 ^ 64 + crews * 2 ^ 192 + 1 * 2 ^ 224 + 1 * 2 ^ 232)

def witEntry : List Byte :=
  let l : List Byte := bytesOfWord 0 ++ List.replicate 48 0 ++ [0, 0x20, 0x08]
  l ++ [parityOf l]

def witLaunch (l : Launch) : State :=
  let s := witMap .none []
  { s with
    mem := { s.mem with ram := s.mem.ram.update 0x4000A000 64 (bytesFn 0x4000A000 witEntry) }
    ctxs := [(0, { st := .active, desc := BitVec.ofNat 1024 (placedRoot + 0x300000 * 2 ^ 64 + 0x400000 * 2 ^ 128) })]
    waves := [], crews := [], cur := none
    launches := [(0, l)] }

theorem witness_LaunchEvents :
    (∀ l, (witLaunch l).launches.get? 0 = some l) ∧ (witLaunch {}).running 0 = true ∧
    (match (witLaunch { packet := witPacket 1, st := .ready }).dispatchChecks 0 with
      | (s1, .ok c) => !s1.pagesTaken 0 { packet := witPacket 1 } c.pages && (shadowsFor 0 0 [] c.pages).isSome
      | _ => false) = true ∧
    (match (witLaunch { packet := witPacket 0, st := .ready }).dispatchChecks 0 with
      | (_, .error (1, .bad _ o _)) => o == 0x18
      | _ => false) = true ∧
    (let l : Launch := { packet := witPacket 1, st := .running }
     l.placed < l.crewsN ∧ ((witLaunch l).tidyCluster 511).fits l ⟨511, 0, [7]⟩ = true ∧
     ((witLaunch l).tidyCluster 511).fits l ⟨511, 0, [8]⟩ = false ∧
     (({ witLaunch l with crews := [(0, { clus := 511 })] } : State).populate 0 l ⟨511, 0, [7]⟩).isSome = true ∧
     ((witLaunch l).newWave 0 l 0 63).isSome = true ∧ l.pk 0x60 8 = 0) ∧
    (witLaunch { st := .draining }).launchIdle 0 = true ∧ ({ st := .draining } : Launch).compAddr = 0 ∧
    ({ packet := BitVec.ofNat 1024 (0x2000 * 2 ^ 832) } : Launch).compAddr = 0x2000 ∧
    (match (witLaunch {}).dispAccess 0 0 0x2000 .write with
      | (_, .ok _) => true
      | _ => false) = true ∧
    ((witLaunch { st := .ready, packet := witPacket 1 }).candidates 0) = [.launch 0] ∧ (witLaunch {}).candidates 0 = [] ∧
    ({ witLaunch {} with clk := 2 } : State).clk = 2 :=
  ⟨fun _ => rfl, by decide +kernel⟩

/-- A saved wave: only the start of its header and its sealed block stand in memory, whose lines `p` are poisoned. -/
def witSaved : Wave := { witWave with status := .evicted, fa := some {} }

def witHead : List Host.Cell := Memory.update [] 0x300000 2 (bytesFn 0x300000 [1, 16])

def witBlock : List Host.Cell :=
  Memory.update witHead (0x300000 + 0x400 + 384 * 256) 512 fun k => Config.hiddenByte 0 (k - (0x300000 + 0x400 + 384 * 256))

def witEvicted (p : List Nat) : State :=
  { witLaunch { st := .running } with
    waves := [(0, witSaved)], crews := [(0, {})]
    mem := { ram := witBlock, poison := p } }

theorem wit_sealed : (witEvicted []).sealOk 0 witSaved = true := by
  have hb : ∀ a, (witEvicted []).mem.byteAt a = if 0x300000 + 0x400 + 384 * 256 ≤ a ∧ a < 0x300000 + 0x400 + 384 * 256 + 512 then
      Config.hiddenByte 0 (a - (0x300000 + 0x400 + 384 * 256)) else Memory.read witHead a := by
    intro a
    have : (witEvicted []).mem.byteAt a = (witEvicted []).mem.ram.read a := rfl
    rw [this]
    exact Memory.read_update _ _ _ _ _
  have hr : ∀ a, (witEvicted []).readAt a = (witEvicted []).mem.byteAt a := fun _ => rfl
  unfold State.sealOk
  simp only [Bool.and_eq_true, List.all_eq_true, List.mem_range, beq_iff_eq]
  refine ⟨⟨⟨⟨⟨fun i hi => ?_, by decide⟩, by decide⟩, ?_⟩, ?_⟩, by decide +kernel⟩
  · rw [hb]
    have e : witSaved.save + 0x400 + 384 * witSaved.n = 0x300000 + 0x400 + 384 * 256 := by decide
    rw [e, if_pos (by omega), Nat.add_sub_cancel_left]
    rfl
  · simp only [State.headOk, State.getNat, State.getBytes, hr, hb]
    decide +kernel
  · simp only [State.savedWait, State.get64, State.getNat, State.getBytes, hr, hb]
    decide +kernel

theorem wit_not_sealed : (witEvicted [0x6000]).sealOk 0 witSaved = false := by
  have : ((linesOf witSaved.save (saveSize witSaved.gran)).any fun l => (witEvicted [0x6000]).poisoned l) = true := by decide +kernel
  unfold State.sealOk
  simp [this]

theorem witness_SavedWork : (witEvicted []).sealOk 0 witSaved = true ∧ (witEvicted [0x6000]).sealOk 0 witSaved = false ∧
    (∀ p, (witEvicted p).waves.get? 0 = some witSaved) ∧ Coherent (witState witWave) ∧
    (∃ s : State, ∃ i, s.instYields i = true) ∧ (∃ s : State, s.crewYields 0 = true) ∧
    (∃ c : Crew, c.space.isSome = true ∧ (witEvicted []).crewFits c = true) ∧
    (∃ h : Here, (witState { witWave with fa := some { witFrag with age := 256 } }).fragment 0 false = some h ∧ h.f.age = 256 ∧
      h.w.blocked false h.f = false) ∧
    witSaved.status = .evicted ∧ ((witEvicted []).crew 0).space = none ∧ (witEvicted []).running 0 = true ∧
    (witEvicted []).waveFits witSaved 7 = true ∧ 23 ∈ (witEvicted []).freeSlots 7 ∧
    (witState witWave).waves.get? 0 = some witWave ∧ witWave.fa = some witFrag ∧ witWave.save + saveSize witWave.gran ≤ 2 ^ 52 ∧
    ({} : Inst).parkable = true ∧ (witState witWave).crewYields 0 = false ∧ (witState witWave).instYields {} = false ∧
    (witEvicted []).instCandidate { status := .evicted } = true ∧ (witEvicted []).seqFree 0 = true ∧
    (match (witHere witWave).enterLine (witState witWave) with
      | .ok _ => true
      | _ => false) = true ∧ ({ witWave with budget := 0 } : Wave).mustWait (witState witWave) 0 = false :=
  ⟨wit_sealed, wit_not_sealed, fun _ => rfl, wit_coherent _ rfl rfl rfl,
    ⟨{ State.reset with ctxs := [(0, { st := .suspended })] }, {}, by decide +kernel⟩,
    ⟨{ State.reset with ctxs := [(0, { st := .suspended })] }, by decide +kernel⟩, ⟨{ space := some 0 }, by decide +kernel⟩,
    ⟨_, rfl, rfl, by decide +kernel⟩, by decide +kernel⟩

/-- A placed program: its first step issues slot 0. -/
def witProgram (w : BitVec 96) : State := { State.reset.placed w with agenda := [] }

theorem witness_StepRunsDecoded : encodeFields (.doorbell 0 0 0) = none ∧
    (State.reset.placed 0x000000000000F00000000000#96).health.inReset = false ∧
    (State.reset.placed 0x000000000000F00000000000#96).agenda = [.issue 0 false] ∧
    (match (witProgram 0x000000000000F00000000000#96).fragment 0 false with
      | some h => h.w.budget != 0 && !h.f.arrived && (match h.enterLine (witProgram 0x000000000000F00000000000#96) with
        | .ok s1 => let s2 := { s1 with cur := some (.frag 0 false) }
          (match s2.fragment 0 false with
          | some h1 => (match h1.f.fetch with
            | .line l => !s2.outranked 0 false h1 && !h1.w.held false h1.f && !linePair l 0 &&
                lineWord l 0 == 0x000000000000F00000000000#96
            | _ => false)
          | none => false)
        | _ => false)
      | none => false) = true ∧
    (State.reset.placed 0xB10000000000000000000000#96).agenda = [.seqIssue 0] ∧
    ({ witProgram 0xB10000000000000000000000#96 with cur := some (.seq 0) } : State).seqHere.isSome = true ∧
    waveStream 0x000000000000F00000000000#96 = true ∧ seqStream 0xB10000000000000000000000#96 = true ∧
    waveStream 0xB10000000000000000000000#96 = false ∧ (Turn.elapse 5).inReset = false ∧
    State.reset.stores.owner = [] ∧ (State.reset.waves.all fun x => !x.2.onFlag) = true ∧
    (∀ d ∈ List.range 8, State.reset.candCtxs d = []) ∧ (∀ x ∈ State.reset.ctxs, x.2.had = 0) ∧
    (match (State.reset.placed 0x000000000000F00000000000#96).translate 0 0 0 .fetch with
      | (s1, .ok pa) => !s1.poisoned (pa / 128)
      | _ => false) = true :=
  ⟨rfl, by decide +kernel⟩

theorem witness_RoundTrip : ∃ i f, wellFormed i = true ∧ encodeFields i = some f := ⟨.nop, _, by decide, rfl⟩

/-- A step answers from a state whose memory is canonical. -/
theorem witness_MemoryStaysCanonical : (State.reset.placed 0x000000000000F00000000000#96).memWf ∧
    (match step (State.reset.placed 0x000000000000F00000000000#96) with
      | .next _ => true
      | _ => false) = true := by
  refine ⟨?_, by decide +kernel⟩
  show (State.reset.placed 0x000000000000F00000000000#96).mem.ram.wf = true
  decide +kernel

end Sys2Proof.Machine
end

