-- ==== Sys2Proof/Tests/WitnessMemory.lean ====
section
/-!
SUPPORT. States that meet the hypotheses of the statements about memory, windows and copies.
-/
namespace Sys2Proof.Machine

set_option Elab.async false

/-- One lane, the last, is active; s1 is an address, s2 64, s3 -1.0 as f32, s4 2^20 + 1. -/
def witLast (m : Lanes) : Wave :=
  { witWave with fa := some { witFrag with mask := m }, mode := 0x21,
                 s := [(1, 0x8000), (2, 64), (3, 0xBF800000), (4, 0x100001)] }

/-- The launch may write the first 64 KiB and declares window 0, at the run's second half; its blocks are `ws`. -/
def witMem (w : Wave) (opened : BitVec 8) (ws : Cells 2) : State :=
  { witState w with
    launches := [(0, { st := .running, placed := 1, wset := [(0, 0x10000)],
                       wins := [{ gbase := 0x4000, cstr := 0, aoff := 0x8000, len := 0x1000 }] })]
    crews := [(0, { nunits := 1, opened, words := ws, fills := [(0, 1)] })] }

theorem wit_mem_clear (w : Wave) (o : BitVec 8) (ws : Cells 2) (rs : List Nat) (h1 : w.status = .live)
    (h2 : w.fa.isSome = true) (h3 : w.bad = []) (h4 : ∀ r ∈ rs, r < w.n) : Clear (witMem w o ws) (witHere w) rs :=
  wit_clear_of _ _ _ (wit_clear w [] h1 h2 h3 (by simp)).here rfl h3 h4

theorem wit_mem_coherent (w : Wave) (o : BitVec 8) (ws : Cells 2) : Coherent (witMem w o ws) :=
  wit_coherent _ rfl rfl rfl (by simp [witMem, Crew.wordPa, Cells.read])

/-- Checks that pass, with pieces of which `p` holds. -/
theorem wit_passes {h : Here} {s : State} {chk : State → Nat → State × LaneCheck} {ls : List Nat} {addr : Nat → W64}
    {p : State → List (Nat × List Piece) → Bool}
    (e : (match h.allPass (checkLanes chk s ls).1 addr (checkLanes chk s ls).2 with
      | .ok ps => p (checkLanes chk s ls).1 ps
      | .error _ => false) = true) : ∃ s1 ps, Passes h s chk ls addr s1 ps ∧ p s1 ps = true := by
  split at e
  · rename_i ps hp
    exact ⟨_, ps, ⟨rfl, hp⟩, e⟩
  · exact absurd e (by decide)

/-- The last lane alone reaches `n` bytes at `pa`, which are not poisoned. -/
def witPiece (core pa n : Nat) (s : State) (ps : List (Nat × List Piece)) : Bool :=
  decide (ps.map (·.1) = [95]) && (ps.all fun x => decide ((x.2.map fun p => (p.pa, p.len)) = [(pa, n)]) &&
    x.2.all fun p => !s.spoiled core p && p.pa + p.len ≤ 2 ^ 52 && (linesOf p.pa p.len).all fun l => s.probeOk l (core / 512))

def witLoad (ty : Ty) : MemOp := ⟨Guard.mk 15 false, ty, .base, .normal, .packed, .dyn, .none, 254, 1, 0, 0⟩

theorem wit_last : lanesOf (laneBit 95) = [95] := by decide +kernel

theorem witness_ReadsAreQuiet : Coherent (witMem (witLast (laneBit 95)) 0 []) ∧
    (match (witMem (witLast (laneBit 95)) 0 []).translate 0 0 0x8000 .read with
      | (_, .ok pa) => pa == 0x40008000
      | _ => false) = true ∧
    (match (witMem (witLast (laneBit 95)) 0 []).landing 0 0 0 with
      | .ok (_, x) => x.dest.isSome
      | .error _ => false) = true ∧
    (∃ s1 ps, Passes (witHere (witLast (laneBit 95))) (witMem (witLast (laneBit 95)) 0 [])
      ((witHere (witLast (laneBit 95))).globalChecks (witMem (witLast (laneBit 95)) 0 []) .read (fun _ => 0x8078) 8) [95]
      (fun _ => 0x8078) s1 ps ∧ witPiece 0 0x40008078 8 s1 ps = true) ∧
    (0x40008078 % 128 + 8 ≤ 128) ∧ (witMem (witLast 1) 0 []).mem.l1.get? (l1Key 0 (0x40008078 / 128)) = none :=
  ⟨wit_mem_coherent _ _ _, by decide +kernel, by decide +kernel, wit_passes (by decide +kernel), by decide, by decide⟩

theorem witness_LoadResults : Clear (witMem (witLast (laneBit 95)) 0 []) (witHere (witLast (laneBit 95))) [254, 255] ∧
    Coherent (witMem (witLast (laneBit 95)) 0 []) ∧ wellFormed (.ldg (witLoad .s64)) = true ∧
    (witHere (witLast (laneBit 95))).part (Guard.mk 15 false) = laneBit 95 ∧ laneBytes .s64 .packed = 8 ∧
    (∃ s1 ps, Passes (witHere (witLast (laneBit 95))) (witMem (witLast (laneBit 95)) 0 [])
      ((witHere (witLast (laneBit 95))).globalChecks (witMem (witLast (laneBit 95)) 0 []) .read (fun _ => 0x8000) 8) [95]
      (fun _ => 0x8000) s1 ps ∧ witPiece 0 0x40008000 8 s1 ps = true) ∧
    ∃ s1 ps, Passes (witHere (witLast (laneBit 95))) (witMem (witLast (laneBit 95)) 0 [])
      ((witHere (witLast (laneBit 95))).globalChecks (witMem (witLast (laneBit 95)) 0 []) .read
        (fun l => 0x8000 + BitVec.ofNat 64 l * 64) 8) [95] (fun l => 0x8000 + BitVec.ofNat 64 l * 64) s1 ps ∧
      witPiece 0 0x400097C0 8 s1 ps = true :=
  ⟨wit_mem_clear _ _ _ _ rfl rfl rfl (by decide), wit_mem_coherent _ _ _, by decide, by decide +kernel, by decide,
    wit_passes (by decide +kernel), wit_passes (by decide +kernel)⟩

theorem witness_ScalarMemoryResults : (∀ m, Clear (witMem (witLast m) 0 []) (witHere (witLast m)) []) ∧
    (witHere (witLast 0)).f.mask = 0 ∧ (witHere (witLast 1)).f.mask ≠ 0 ∧ Coherent (witMem (witLast 1) 0 []) ∧
    ∀ k ∈ [Access.read, Access.write],
      (match (witMem (witLast 1) 0 []).checkGlobal 0 ((witMem (witLast 1) 0 []).launchOf (witLast 1)) k 0x8000 8 with
      | (s1, .ok ps) => witPiece 0 0x40008000 8 s1 [(95, ps)]
      | _ => false) = true :=
  ⟨fun _ => wit_mem_clear _ _ _ _ rfl rfl rfl (by simp), by decide, by decide, wit_mem_coherent _ _ _, by decide +kernel⟩

/-- A store of f16 from an infinity that its type cannot hold raises a flag; one of integers raises none. -/
theorem witness_StoreResults : Clear (witMem (witLast (laneBit 95)) 0 []) (witHere (witLast (laneBit 95))) [254, 255] ∧
    Coherent (witMem (witLast (laneBit 95)) 0 []) ∧ wellFormed (.stg (witLoad .s64)) = true ∧
    (witLast (laneBit 95)).mustWait (witMem (witLast (laneBit 95)) 0 []) 0 = false ∧
    (∃ s1 ps, Passes (witHere (witLast (laneBit 95))) (witMem (witLast (laneBit 95)) 0 [])
      ((witHere (witLast (laneBit 95))).globalChecks (witMem (witLast (laneBit 95)) 0 []) .write (fun _ => 0x8000) 8) [95]
      (fun _ => 0x8000) s1 ps ∧ witPiece 0 0x40008000 8 s1 ps = true) ∧
    (let h := witHere { witLast (laneBit 95) with v := [(96 * 254 + 95, 0x7F800001)] }
     let o : MemOp := { witLoad .f16 with rf := .wide }
     wellFormed (.stg o) = true ∧ (h.storeData (witLoad .s64) 1 95).2 &&& modeTraps h.w.mode = 0 ∧
     (h.storeData o 1 95).2 &&& modeTraps h.w.mode ≠ 0) :=
  ⟨wit_mem_clear _ _ _ _ rfl rfl rfl (by decide), wit_mem_coherent _ _ _, by decide, by decide +kernel,
    wit_passes (by decide +kernel), by decide +kernel⟩

/-- A store event of one lane that memory can take, and the lanes of a store. -/
theorem witness_StoreEvents : (let s := witMem (witLast (laneBit 95)) 0 []
      let p : Post := { core := 0, parts := [⟨0x8000, 0x40008000, 8⟩], data := leBytes 8 5 }
      Coherent s ∧ p.core < 4096 ∧ Reach s (p.core / 512) p.parts ∧ ∀ q ∈ s.mem.posts, q.crews = []) ∧
    (let ps : List (Nat × List Piece) := [(95, [⟨0x8000, 0x40008000, 8⟩])]
     ps.map (·.1) = lanesOf (laneBit 95) ∧ ∀ x ∈ ps, (x.2.map (·.len)).sum = 8) :=
  ⟨⟨wit_mem_coherent _ _ _, by decide, fun p hp => by
      rw [List.mem_singleton.mp hp]
      exact ⟨by decide, by decide, by decide +kernel⟩, fun _ hq => absurd hq List.not_mem_nil⟩,
    by rw [wit_last]; decide⟩

theorem witness_LocalResults : Clear (witMem (witLast (laneBit 95)) 0 []) (witHere (witLast (laneBit 95))) [254, 255] ∧
    wellFormed (.ldl (witLoad .s64)) = true ∧ wellFormed (.stl (witLoad .s64)) = true ∧
    (let s := witMem (witLast (laneBit 95)) 0 []
     let c := s.crew 0
     (∀ a ∈ [0, 0xFFF8], LocalOk s c false false a 8 ∧ s.locked c.clus 0 true true a 8 = false ∧
       c.fillsFor (s.launch c.launch) true a 8 = []) ∧ c.holds 0xFFF9 8 = false) :=
  ⟨wit_mem_clear _ _ _ _ rfl rfl rfl (by decide), by decide, by decide,
    fun a ha => by
      simp only [List.mem_cons, List.not_mem_nil, or_false] at ha
      rcases ha with rfl | rfl
      · exact ⟨⟨by decide, by decide, by decide, by decide⟩, by decide, by decide⟩
      · exact ⟨⟨by decide +kernel, by decide, by decide +kernel, by decide +kernel⟩, by decide, by decide +kernel⟩,
    by decide +kernel⟩

theorem witness_PrefetchAndInvalidate : (∀ m, Clear (witMem (witLast m) 0 []) (witHere (witLast m)) [254, 255]) ∧
    Coherent (witMem (witLast (laneBit 95)) 0 []) ∧
    (match (witMem (witLast (laneBit 95)) 0 []).checkGlobal 0 ((witMem (witLast (laneBit 95)) 0 []).launchOf
        (witLast (laneBit 95))) .read 0x8000 1 with
      | (s1, .ok ps) => witPiece 0 0x40008000 1 s1 [(95, ps)]
      | _ => false) = true ∧
    (let n := fun r => ((witHere (witLast 1)).s r).toNat % 2 ^ 32
     n 0 = 0 ∧ 2 ^ 20 < n 4 ∧ n 2 = 64 ∧ 2 ^ 56 < (2 ^ 56 - 63) + n 2 ∧ ¬ 2 ^ 56 < (2 ^ 56 - 64) + n 2) :=
  ⟨fun _ => wit_mem_clear _ _ _ _ rfl rfl rfl (show ∀ r ∈ [254, 255], r < 256 by decide), wit_mem_coherent _ _ _,
    by decide +kernel, by decide⟩

def witAtom (op : AtOp) (ty : Ty) (ord : Order) : AtomOp := ⟨Guard.mk 15 false, op, ord, .base, .crw, ty, 254, 1, 0, 252, 0⟩

theorem witness_AtomicResults : Clear (witMem (witLast (laneBit 95)) 0 []) (witHere (witLast (laneBit 95))) [252, 253, 254, 255] ∧
    wellFormed (.atom (witAtom .add .n64 .ar)) = true ∧ wellFormed (.atomc (witAtom .add .b64 .ar)) = true ∧
    wellFormed (.red { witAtom .add .n64 .rel with d := 0 }) = true ∧ Coherent (witMem (witLast (laneBit 95)) 0 []) ∧
    (∃ s1 ps, Passes (witHere (witLast (laneBit 95))) (witMem (witLast (laneBit 95)) 0 [])
      (fun t l => aligned 0x8000 8 ((witHere (witLast (laneBit 95))).globalChecks (witMem (witLast (laneBit 95)) 0 []) .write
        (fun _ => 0x8000) 8 t l) t) [95] (fun _ => 0x8000) s1 ps ∧
      (witPiece 0 0x40008000 8 s1 ps && ((State.atomicLanes 0 (some 0) 8 (fun _ x => some (x + 1))
        (s1.settleOver (witHere (witLast (laneBit 95))).f.id (ps.flatMap (·.2))) ps).2.2 == [])) = true) ∧
    (∃ s2, (witHere (witLast 1)).release (witMem (witLast 1) 0 []) .crw = .ok s2) ∧ 0x40000078 % 128 + 8 ≤ 128 :=
  ⟨wit_mem_clear _ _ _ _ rfl rfl rfl (by decide), by decide, by decide, by decide, wit_mem_coherent _ _ _,
    wit_passes (by decide +kernel), ⟨_, rfl⟩, by decide⟩

theorem witness_LocalAtomicsAndFences :
    Clear (witMem (witLast (laneBit 95)) 0 []) (witHere (witLast (laneBit 95))) [252, 253, 254, 255] ∧
    wellFormed (.atoml (witAtom .add .n64 .ar)) = true ∧ 0xFFF8 % 8 = 0 ∧
    LocalOk (witMem (witLast (laneBit 95)) 0 []) ((witMem (witLast (laneBit 95)) 0 []).crew 0) true false 0xFFF8 8 ∧
    (∃ s2, (witHere (witLast 1)).release (witMem (witLast 1) 0 []) .wv = .ok s2) ∧
    ∃ s2, (witHere (witLast 1)).release (witMem (witLast 1) 1 []) .sys = .ok s2 :=
  ⟨wit_mem_clear _ _ _ _ rfl rfl rfl (by decide), by decide, by decide,
    ⟨by decide +kernel, by decide, by decide +kernel, by decide +kernel⟩, ⟨_, rfl⟩, ⟨_, rfl⟩⟩

/-- Window 0 is declared and window 7 is not; word 0 of window 0 is Dirty. -/
theorem witness_WindowInstructions : (∀ o, Clear (witMem (witLast 1) o [(0, 3)]) (witHere (witLast 1)) []) ∧
    (witMem (witLast 1) 1 [(0, 3)]).declared 0 0 = true ∧ (witMem (witLast 1) 1 [(0, 3)]).declared 0 7 = false ∧
    (witLast 1).mustWait (witMem (witLast 1) 1 [(0, 3)]) 0 = false ∧ (1 : BitVec 8).getLsbD 0 = true ∧
    (0 : BitVec 8).getLsbD 0 = false ∧ Coherent (witMem (witLast 1) 1 [(0, 3)]) ∧
    ((witMem (witLast 1) 1 [(0, 3)]).crew 0).dirty [0] = [0] ∧
    (match State.wbCheck 0 0 (witMem (witLast 1) 1 [(0, 3)]) [0] with
      | (_, .ok ps) => decide (ps = [(0, 0x40004000)])
      | _ => false) = true ∧
    ((witMem (witLast 1) 1 []).crew 0).fills.contains (0, 1) = true ∧ ((witMem (witLast 1) 1 []).crew 0).space = none ∧
    (match (witMem (witLast 1) 1 []).translate 0 0 (((witMem (witLast 1) 1 []).crew 0).winVa
        ((witMem (witLast 1) 1 []).launch 0) 0 256) .read with
      | (s2, .ok pa) => pa == 0x40004100 && !s2.poisoned (pa / 128) && !s2.poisoned (pa / 128 + 1) &&
          (linesOf pa 256).all fun l => (witMem (witLast 1) 1 []).probeOk l 0
      | _ => false) = true :=
  ⟨fun _ => wit_mem_clear _ _ _ _ rfl rfl rfl (by simp), by decide, by decide, by decide, by decide, by decide,
    wit_mem_coherent _ _ _, by decide, by decide +kernel, by decide, by decide, by decide +kernel⟩

def witCopy (k : CKind) : Copy := { kind := k, src := 0x100, dst := 0x800, len := 1024, track := .batch 1 }

theorem witness_CopiesAreIssued : (∀ m, Clear (witMem (witLast m) 0 []) (witHere (witLast m)) []) ∧
    (witHere (witLast 0)).f.mask = 0 ∧ (witHere (witLast 1)).f.mask ≠ 0 ∧
    (let s := witMem (witLast 1) 0 []
     (∀ k ∈ [CKind.cpy, .cpys, .cpyg, .cpyw, .cpywSparse], (witCopy k).issueBad (s.crew 0) (s.launch 0) = none) ∧
     ({ witCopy .cpyw with dst := 2 ^ 18 } : Copy).issueBad (s.crew 0) (s.launch 0) ≠ none ∧
     ({ witCopy .cpact with len := 4096 } : Copy).issueBad (s.crew 0) (s.launch 0) = none ∧ s.copyFull 0 (witCopy .cpy) = false ∧
     (witCopy .cpy).inCore = false ∧ (witCopy .cpyw).inCore = true ∧ (s.own 0 0).isSome = true) :=
  ⟨fun _ => wit_mem_clear _ _ _ _ rfl rfl rfl (by simp), by decide, by decide, by decide +kernel⟩

theorem witness_BatchesCommitAndWait : (∀ m, Clear (witMem (witLast m) 0 []) (witHere (witLast m)) []) ∧
    (witHere (witLast 0)).f.mask = 0 ∧ (witHere (witLast 1)).f.mask ≠ 0 ∧ (witHere (witLast 1)).f.wait = .none ∧
    Clear (witState (witWait (.batch 5))) (witHere (witWait (.batch 5))) [] ∧
    batchBefore 0xFFFFFFFF 0 = true ∧ batchBefore 1 0 = false :=
  ⟨fun _ => wit_mem_clear _ _ _ _ rfl rfl rfl (by simp), by decide, by decide, by decide,
    wit_clear _ _ rfl rfl rfl (by decide), by decide, by decide⟩

/-- A copy from global memory to the run, and one between global ranges; no segment has moved yet, or one has. -/
theorem witness_CopySegmentsMove : ∀ k ∈ [CKind.cpy, .cpyg],
    let s : State := { witMem (witLast 1) 0 [] with copies := [(0, { witCopy k with core := 0 })] }
    s.copies.get? 0 = some (witCopy k) ∧ s.segDue (witCopy k) 0 = true ∧ (witCopy k).moved.get? 0 = none ∧
    (({ witCopy k with moved := [(0, {})] } : Copy).moved.get? 0).isSome = true ∧
    (match s.segOwn (witCopy k) with
      | some s0 => (match s0.segSide (witCopy k) (witCopy k).srcSide false 0x100 ((witCopy k).seg 0).2 false with
        | (s1, .ok _) => (match s1.segSide (witCopy k) (witCopy k).dstSide true 0x800 ((witCopy k).seg 0).2 false with
          | (s2, .ok q) => s2.badBar (witCopy k) == none && q + 1024 ≤ 2 ^ 52
          | _ => false)
        | _ => false)
      | none => false) = true ∧ s.mem.posts = [] := by decide +kernel

end Sys2Proof.Machine
end

