-- ==== Sys2Proof/Tests/WitnessWave.lean ====
section
/-!
SUPPORT. States that meet the hypotheses of the statements about registers, at the last registers of a wave and on both
sides of each condition.
-/
namespace Sys2Proof.Machine

set_option Elab.async false

def witOp (ty : Ty) : VOp := ⟨Guard.mk 15 false, ty, .dyn, .none, 254, 252, .vec 250, 0⟩

/-- The statements about scalar instructions need no more. -/
theorem witness_ScalarIntegerResults : Clear (witState witWave) (witHere witWave) [] :=
  wit_clear _ _ rfl rfl rfl (by decide)

theorem witness_ScalarMoveResults : Clear (witState witWave) (witHere witWave) [] :=
  wit_clear _ _ rfl rfl rfl (by decide)

/-- s1 holds +infinity, s2 -infinity, s3 1.0 as f32; invalid operations trap. -/
def witFloats (mode : W32) : Wave :=
  { witWave with s := [(1, 0x7F800000), (2, 0xFF800000), (3, 0x3F800000)], mode }

theorem witness_ScalarFloatResults : ∃ w : Wave, Clear (witState w) (witHere w) [] ∧ w.mustWait (witState w) 0 = false ∧
    modeTraps w.mode = 1 ∧
    (let h := witHere w
     (cmpF ICond.lt.float (h.fltS .f32 1) (h.fltS .f32 2)).2 &&& 1 = 0 ∧
     (cmpF ICond.lt.float (h.fltS .f32 4) (h.fltS .f32 5)).2 &&& 1 = 1 ∧
     (deliver .f32 (howOf .rne 1 0 1 0) false [h.fltS .f32 1, h.fltS .f32 2]
        (resAdd .rne (h.fltS .f32 1) (h.fltS .f32 2))).2 &&& 1 = 1 ∧
     (deliver .f32 (howOf .rne 1 0 1 0) false [h.fltS .f32 1, h.fltS .f32 3]
        (resAdd .rne (h.fltS .f32 1) (h.fltS .f32 3))).2 &&& 1 = 0 ∧
     (convert .s32 .f32 (howOf .rne 1 0 1 0) false false .none 0x7F800000).2 &&& 1 = 1 ∧
     (convert .s32 .f32 (howOf .rne 1 0 1 0) false false .none 0x3F800000).2 &&& 1 = 0) :=
  ⟨{ witFloats 0x21 with s := (witFloats 0).s ++ [(4, 0x7F800001)] }, wit_clear _ _ rfl rfl rfl (by decide), by decide, by decide,
    by decide⟩

theorem witness_ModeAndFlagWrites :
    Clear (witState (witFloats 1)) (witHere (witFloats 1)) [] ∧ (witFloats 1).mustWait (witState (witFloats 1)) 0 = false ∧
    modeOk 6 = true ∧ modeOk 7 = false ∧ modeOk 0 = false ∧ bits (127 : W64) 7 57 = 0 ∧ bits (128 : W64) 7 57 ≠ 0 :=
  ⟨wit_clear _ _ rfl rfl rfl (by decide), by decide⟩

/-- One well-formed form of each instruction, on the last registers. -/
theorem witness_VectorIntegerResults : Clear (witState witWave) (witHere witWave) (witOp .s64).names ∧
    ([.vabs { witOp .s64 with b := .vec 0 }, .vadd (witOp .s64), .vsub (witOp .n64), .vmul (witOp .s32), .vmulh (witOp .n8),
      .vdiv (witOp .s16), .vand (witOp .b64), .vor (witOp .b8), .vxor (witOp .b16), .vshl (witOp .n64), .vshr (witOp .s64),
      .vsar (witOp .s64), .vmin (witOp .s64), .vmax (witOp .n64), .vclz { witOp .b64 with b := .vec 0 },
      .vpopc { witOp .s8 with b := .vec 0 }, .vmad (witOp .s64), .vbfe (witOp .n64), .vbfi (witOp .b64)] : List Instr).all
      wellFormed = true :=
  ⟨wit_clear _ _ rfl rfl rfl (by decide), by decide⟩

theorem witness_VectorFloatResults : Clear (witState (witFloats 0x21)) (witHere (witFloats 0x21)) (witOp .f64).names ∧
    (witFloats 0x21).mustWait (witState (witFloats 0x21)) 0 = false ∧
    ([.fsqrt { witOp .f64 with b := .vec 0 }, .frcp { witOp .f16 with b := .vec 0 }, .frsq { witOp .f32 with b := .vec 0 },
      .frint { witOp .f64 with b := .vec 0 }, .fexp2 { witOp .f32 with b := .vec 0 }, .flog2 { witOp .f16 with b := .vec 0 },
      .fsin { witOp .bf16 with b := .vec 0 }, .fcos { witOp .f32 with b := .vec 0 }, .fadd (witOp .f64), .fsub (witOp .f16),
      .fmul (witOp .bf16), .fdiv (witOp .f64), .ffma (witOp .f64), .fldexp (witOp .f32), .fmin (witOp .f64),
      .fmax (witOp .f16), .fdot2 (witOp .f16), .fdp4 (witOp .e4m3)] : List Instr).all wellFormed = true ∧
    (let h := witHere (witFloats 0x21)
     (deliver .f32 (howOf .rne 1 0 1 0) false [h.fltS .f32 1, h.fltS .f32 2]
       (resAdd .rne (h.fltS .f32 1) (h.fltS .f32 2))).2 &&& modeTraps h.w.mode ≠ 0) :=
  ⟨wit_clear _ _ rfl rfl rfl (by decide), by decide, by decide, by decide⟩

def witLane (ty : Ty) : LaneOp := ⟨Guard.mk 15 false, ty, 254, 252, 0, 0⟩

/-- Indexes 0 and 255 (s2 = 255 - 3 with d = 3 and so on) reach the first and the last register. -/
theorem witness_LaneResults : ∃ w : Wave, Clear (witState w) (witHere w) [252, 253, 254, 255, 1] ∧
    (∀ x ∈ (witState w).stores.preds, x.2.wave ≠ 0) ∧
    ([.vmov (witLane .b64), .vbcast (Guard.mk 15 false) .b64 254 1, .vperm { witLane .b32 with b := 1, c := 2 },
      .vshflUp (witLane .b64) 95, .vshflDown (witLane .b32) 0, .vshflXor (witLane .b64) 95,
      .vshflIdx { witLane .b64 with b := 1 }, .vmovrel { witLane .b32 with b := 1 }, .vstrel { witLane .b32 with b := 1 },
      .vsel (Guard.mk 15 false) .b64 254 252 250 14, .fclass { witOp .f32 with b := .vec 0 }] : List Instr).all
      wellFormed = true ∧
    (∀ l, l < 96 → 0 ≤ (witHere w).relReg 255 1 l ∧ (witHere w).relReg 255 1 l < w.n) ∧
    (witHere w).relReg 255 1 0 = 0 ∧ (witHere w).relReg 255 1 1 = 255 :=
  ⟨{ witWave with v := (List.range 96).map fun l => (96 + l, if l = 1 then (0 : W32) else 0xFFFFFF01) },
    wit_clear _ _ rfl rfl rfl (by decide), by decide, by decide, by decide, by decide⟩

theorem witness_ReductionResults : Clear (witState (witFloats 0x21)) (witHere (witFloats 0x21)) (regsOf .f64 252 ++ regsOf .f64 254) ∧
    (witFloats 0x21).mustWait (witState (witFloats 0x21)) 0 = false ∧
    wellFormed (.vred ⟨Guard.mk 15 false, .add, false, false, .f64, .dyn, 59, 252, 0⟩) = true ∧
    wellFormed (.vred ⟨Guard.mk 15 true, .xor, false, false, .b32, .dyn, 0, 252, 0⟩) = true ∧
    (witHere (witFloats 0x21)).part (Guard.mk 15 true) = 0 ∧
    wellFormed (.vscan ⟨Guard.mk 15 false, .add, true, true, .f64, .dyn, 254, 252, 14⟩) = true :=
  ⟨wit_clear _ _ rfl rfl rfl (by decide), by decide⟩

theorem witness_PredicateResults : Clear (witState (witFloats 0x21)) (witHere (witFloats 0x21)) (regsOf .f64 254 ++ regsOf .f64 252) ∧
    (witFloats 0x21).mustWait (witState (witFloats 0x21)) 0 = false ∧
    wellFormed (.vcmp (Guard.mk 15 false) .lt .s64 14 254 252) = true ∧
    wellFormed (.vcmp (Guard.mk 15 false) .eq .b32 15 254 252) = true ∧
    wellFormed (.fcmp ⟨Guard.mk 15 false, .f64, .lt, 15, 254, .vec 252⟩) = true ∧
    (cmpF .lt ((witHere { witWave with s := [(4, 0x7F800001)] }).fltS .f32 4) (.inf true)).2 &&& 1 ≠ 0 :=
  ⟨wit_clear _ _ rfl rfl rfl (by decide), by decide⟩

theorem witness_ConversionResults : Clear (witState (witFloats 0x21)) (witHere (witFloats 0x21)) [252, 253, 254, 255, 0] ∧
    (witFloats 0x21).mustWait (witState (witFloats 0x21)) 0 = false ∧
    wellFormed (.cvt ⟨Guard.mk 15 false, .f64, .f32, .dyn, .none, 254, 252, 0⟩) = true ∧
    wellFormed (.cvt ⟨Guard.mk 15 false, .f32, .f16, .dyn, .none, 254, 252, 1⟩) = true ∧
    wellFormed (.cvt ⟨Guard.mk 15 false, .s8, .f32, .sr, .clamp, 255, 253, 3⟩) = true ∧
    wellFormed (.pack ⟨Guard.mk 15 false, .f16, .f32, .sr, .none, 255, 252, 0⟩) = true ∧
    wellFormed (.unpack ⟨Guard.mk 15 false, .f32, .f16, .dyn, .none, 254, 253, 0⟩) = true ∧
    wellFormed (.dxq ⟨Guard.mk 15 false, .dx4, .f32, .rne, 255, 0, 254, 14⟩) = true ∧
    wellFormed (.dxd ⟨Guard.mk 15 false, .f32, .dx8, .dyn, 252, 0, 255, 15⟩) = true :=
  ⟨wit_clear _ _ rfl rfl rfl (by decide), by decide⟩
end Sys2Proof.Machine
end

/-! Scalar floating point: from a meaning that raises flags and writes one scalar to its result, flags and frame. -/
namespace Sys2Proof.Machine

theorem Wave.flags_writeS (w : Wave) (side : Bool) (r : Nat) (v : W64) : (w.writeS side r v).flags = w.flags := by
  unfold Wave.writeS
  split
  · rfl
  · split
    · split
      · rw [Wave.setFrag_flags]
      · rfl
    · rfl

/-- A write to em0 to em2 changes a fragment's mask alone. -/
theorem Wave.z_writeS (w : Wave) (side : Bool) (r : Nat) (v : W64) :
    ((w.writeS side r v).frag side).map (·.z) = (w.frag side).map (·.z) := by
  unfold Wave.writeS
  split
  · cases side <;> rfl
  · split
    · split
      · rename_i f e
        rw [Wave.frag_setFrag_same, e]
        rfl
      · rfl
    · rfl

theorem Completes.imp {i : Instr} {s : State} {h : Here} {x : Writes} {q q' : Wave → Prop} (c : Completes i s h x q)
    (hq : ∀ w, q w → q' w) : Completes i s h x q' := by
  obtain ⟨t, w, e, hf, hw, hqw⟩ := c
  exact ⟨t, w, e, hf, hw, hq w hqw⟩

theorem TrappingS.imp {i : Instr} {s : State} {h : Here} {fl : Flags} {p p' : Prop} (t : TrappingS i s h fl p)
    (hp : p → p') : TrappingS i s h fl p' :=
  ⟨fun h0 => hp (t.1 h0), t.2⟩

/-- A meaning that raises the flags `fl`, leaves Z at `z` and writes only the scalar `d`. -/
theorem Clear.scalarFloat {s : State} {h : Here} {rs : List Nat} (c : Clear s h rs) {i : Instr} {g : Guard} {u : Uses}
    {k : Here → Except Abort State} (e : exec i s = onWave g u s k) (hu : ∀ r ∈ u.vr ++ u.nm ++ u.vw, r ∈ rs)
    (hi : u.indexed = false) {fl : Flags} {z : W32} {zb : Bool} {d : BitVec 6} {v : W64}
    (hz : zb = true ∨ z = h.f.z) (hk : k h = h.arithS s fl z fun w => w.writeS h.side d.toNat v) :
    TrappingS i s h fl (Completes i s h { s := [d.toNat], flags := true, z := zb } fun w =>
      w.readS h.side d.toNat = h.stored d.toNat v ∧ w.flags = h.w.flags ||| fl ∧ (w.frag h.side).map (·.z) = some z) := by
  refine c.trappingS e hu (.inl hi) hk fun e' => ?_
  have hraised := raised_frag c.here fl z
  have hb := ((Body.refl c { s := [d.toNat], flags := true, z := zb }).raised fl z rfl hz).writeS d.toNat v
    (.inl (List.mem_singleton_self _))
  refine hb.completes (fun w => (w.raised h.side fl z).writeS h.side d.toNat v) e' fun f hf => ⟨?_, ?_, ?_⟩
  · rw [Wave.readS_advance _ _ _ hf, Wave.readS_writeS _ _ _ _ _ hraised]
    rfl
  · rw [Wave.setFrag_flags, Wave.flags_writeS, raised_flags c.here]
  · have hfz := Wave.z_writeS (h.w.raised h.side fl z) h.side d.toNat v
    rw [hf, hraised] at hfz
    rw [Wave.frag_setFrag_same]
    exact hfz

/-- The sf group: the shared meaning `scalarFlt` gives its result, flags and frame. -/
theorem Clear.scalarFlt {s : State} {h : Here} {rs : List Nat} (c : Clear s h rs) {i : Instr} {o : SFlt} {n : Nat}
    {f : Rnd → FVal → FVal → FVal → FRes} (e : exec i s = scalarFlt o n f s) :
    let z := nextZ (h.rnd o.rnd) h.f.z
    let a := h.fltS o.ty o.a
    let b := h.fltS o.ty o.b
    let c := h.fltS o.ty o.c
    let r := deliver o.ty (howOf (h.rnd o.rnd) z 0 1 0) (modeFtz h.w.mode) ([a, b, c].take n) (f (h.rnd o.rnd) a b c)
    TrappingS i s h r.2 (Completes i s h { s := [o.d.toNat], flags := true, z := true } fun w =>
      w.readS h.side o.d.toNat = h.stored o.d.toNat (BitVec.ofNat 64 (encodeF o.ty (saturateF o.ty o.sat r.1))) ∧
        w.flags = h.w.flags ||| r.2 ∧ (w.frag h.side).map (·.z) = some z) :=
  c.scalarFloat e (by simp) rfl (.inl rfl) rfl

/-- A comparison of integers writes its truth and nothing else. -/
theorem Clear.cmpInt {s : State} {h : Here} {rs : List Nat} (c : Clear s h rs) (cc : ICond) {ty : Ty} (d a b : BitVec 6)
    (ht : ty.isF = false) : ScalarResult (.cmp cc ty d a b) s h d
      (if cmpI cc ty (h.s a).toNat (h.s b).toNat then 1 else 0) := by
  have e : exec (.cmp cc ty d a b) s = execCmp cc ty d a b s := rfl
  refine c.scalarResult ?_
  rw [e, execCmp]
  refine c.onWave_ok _ _ _ (by simp) (.inl rfl) ?_
  simp only [ht, Bool.false_eq_true, if_false]
  rfl

/-- A comparison of floats may raise invalid and leaves Z. -/
theorem Clear.cmpFloat {s : State} {h : Here} {rs : List Nat} (c : Clear s h rs) (cc : ICond) {ty : Ty} (d a b : BitVec 6)
    (ht : ty.isF = true) :
    let r := cmpF cc.float (h.fltS ty a) (h.fltS ty b)
    TrappingS (.cmp cc ty d a b) s h r.2 (Completes (.cmp cc ty d a b) s h { s := [d.toNat], flags := true } fun w =>
      w.readS h.side d.toNat = h.stored d.toNat (if r.1 then 1 else 0) ∧ w.flags = h.w.flags ||| r.2) := by
  have e : exec (.cmp cc ty d a b) s = execCmp cc ty d a b s := rfl
  intro r
  refine (c.scalarFloat (z := h.f.z) e (by simp) rfl (.inr rfl) ?_).imp fun hc => hc.imp fun w hw => ⟨hw.1, hw.2.1⟩
  simp only [ht, if_true]
  rfl

/-- cvts: a conversion of one scalar. -/
theorem Clear.cvts {s : State} {h : Here} {rs : List Nat} (c : Clear s h rs) (src : Ty) (o : SFlt) :
    let mode := if alwaysExact o.ty src then Rnd.rne else h.rnd o.rnd
    let r := convert o.ty src (howOf mode (nextZ mode h.f.z) 0 1 0) (modeDaz h.w.mode) (modeFtz h.w.mode) o.sat
      ((h.s o.a).toNat % 2 ^ src.width)
    TrappingS (.cvts src o) s h r.2 (Completes (.cvts src o) s h { s := [o.d.toNat], flags := true, z := true } fun w =>
      w.readS h.side o.d.toNat = h.stored o.d.toNat (fillS o.ty r.1) ∧ w.flags = h.w.flags ||| r.2 ∧
        (w.frag h.side).map (·.z) = some (nextZ mode h.f.z)) := by
  have e : exec (.cvts src o) s = execCvts src o s := rfl
  exact c.scalarFloat e (by simp) rfl (.inl rfl) rfl

/-- Settles O3: each meaning is one `arithS` that writes one scalar; the integer comparison raises nothing. -/
theorem scalarFloatResults : Obligations.ScalarFloatResults := by
  unfold Obligations.ScalarFloatResults
  intro s h c
  refine ⟨fun cc ty d a b => c.cmpInt cc d a b, fun cc ty d a b => c.cmpFloat cc d a b, c.cvts, ?_⟩
  simp only [List.forall_mem_cons, List.not_mem_nil, false_imp_iff, implies_true, and_true]
  have add (o : SFlt) := c.scalarFlt (i := .sfadd o) (f := fun m a b _ => (resAdd m a b).zeroSum (m == .rdn)) rfl
  have mul (o : SFlt) := c.scalarFlt (i := .sfmul o) (f := fun _ a b _ => resMul a b) rfl
  have fma (o : SFlt) := c.scalarFlt (i := .sffma o) (f := fun m a b c => (resFma m a b c).zeroSum (m == .rdn)) rfl
  exact ⟨add, mul, fma⟩

end Sys2Proof.Machine

/-! Conversions: what their writes leave in the elements of the registers they name (R178 to R181). -/
namespace Sys2Proof.Machine

theorem Ty.laneWidth_of_isCvt {t : Ty} (ht : t.isCvt = true) : laneWidth t.width := by
  cases t <;> simp_all [laneWidth, Ty.width, Ty.isCvt, Ty.isInt, Ty.isS, Ty.isN, Ty.isF]

theorem Cvt.laneWidth_of_ok {o : Cvt} (ho : o.ok = true) : laneWidth o.dst.width := by
  simp only [Cvt.ok, Bool.and_eq_true] at ho
  exact Ty.laneWidth_of_isCvt ho.1.1.1.1.1.1

theorem regsOf_of_ne {t : Ty} (ht : t.width ≠ 64) (r : Nat) : regsOf t r = [r] := if_neg ht

theorem Clear.ecc {s : State} {h : Here} {rs : List Nat} (c : Clear s h rs) (codes : List Nat) : h.ecc s codes = .ok () := by
  have hnone : codes.find? (fun x => h.w.bad.contains x) = none := by simp [c.words]
  rw [Here.ecc, hnone]

theorem Clear.cvt {s : State} {h : Here} {o : Cvt} (hw : wellFormed (.cvt o) = true)
    (c : Clear s h (regsOf o.src o.a.toNat ++ regsOf o.dst o.d.toNat)) :
    let e := 32 / min (max o.src.width o.dst.width) 32
    let so := if o.src.width ≤ o.dst.width then o.q.toNat * e else 0
    let dn := if o.dst.width ≤ o.src.width then o.q.toNat * e else 0
    let z := nextZ (Cvt.mode o h) h.f.z
    let out (l j : Nat) := Cvt.elem o h (howOf (Cvt.mode o h) z l e j) (h.w.elem o.src.width o.a.toNat l (so + j))
    FloatResult (.cvt o) s h (h.part o.g) o.dst o.d.toNat (fun l => orFlags ((List.range e).map fun j => (out l j).2)) z
      fun l k => if dn ≤ k ∧ k < dn + e then (out l (k - dn)).1 else h.w.elem o.dst.width o.d.toNat l k := by
  simp only [wellFormed, Bool.and_eq_true] at hw
  have e : exec (.cvt o) s = execCvt o s := rfl
  refine c.floatResult e (fun r hr => ?_) rfl (Cvt.laneWidth_of_ok hw.1) rfl
  simp only [List.append_nil, List.mem_append] at hr ⊢
  rcases hr with (hr | hr) | hr
  · exact .inl hr
  · split at hr
    · rename_i hlt
      exact .inr (by rwa [regsOf_of_ne (by omega)])
    · cases hr
  · exact .inr hr

theorem Clear.pack {s : State} {h : Here} {o : Cvt} (hw : wellFormed (.pack o) = true)
    (c : Clear s h ((List.range (o.src.width / o.dst.width)).map (o.a.toNat + ·) ++ [o.d.toNat])) :
    let n := 32 / o.src.width
    let e := 32 / o.dst.width
    let z := nextZ (Cvt.mode o h) h.f.z
    let out (l j : Nat) := Cvt.elem o h (howOf (Cvt.mode o h) z l e j)
      (h.w.elem o.src.width (o.a.toNat + j / n) l (j % n))
    FloatResult (.pack o) s h (h.part o.g) o.dst o.d.toNat (fun l => orFlags ((List.range e).map fun j => (out l j).2)) z
      fun l j => (out l j).1 := by
  simp only [wellFormed, Bool.and_eq_true] at hw
  have e : exec (.pack o) s = execPack o s := rfl
  exact c.floatResult e (fun r hr => by simpa using hr) rfl (Cvt.laneWidth_of_ok hw.1.1.1) rfl

/-- The elements of another register stay. -/
theorem Wave.elem_writeElems_other (w : Wave) {wd : Nat} (hwd : wd ≠ 64) {r r' : Nat} (hr : r' ≠ r) (m : Lanes)
    (f : Nat → Nat → Nat) {l : Nat} (hl : l < 96) (j : Nat) : (w.writeElems wd r m f).elem wd r' l j = w.elem wd r' l j := by
  simp only [Wave.elem, Wave.writeElems, hwd, if_false, Wave.readV_writeV _ _ _ _ _ _ hl, hr, false_and]

/-- Elements written to successive registers: the register `d + r` takes those of `f r`. -/
def Wave.writeRegs (w : Wave) (wd d : Nat) (m : Lanes) (f : Nat → Nat → Nat → Nat) (n : Nat) : Wave :=
  (List.range n).foldl (fun w r => w.writeElems wd (d + r) m (f r)) w

theorem Wave.writeRegs_succ (w : Wave) (wd d : Nat) (m : Lanes) (f : Nat → Nat → Nat → Nat) (n : Nat) :
    w.writeRegs wd d m f (n + 1) = (w.writeRegs wd d m f n).writeElems wd (d + n) m (f n) := by
  simp [Wave.writeRegs, List.range_succ]

theorem Wave.elem_writeRegs (w : Wave) {wd : Nat} (hw : laneWidth wd) (hwd : wd ≠ 64) (d : Nat) (m : Lanes)
    (f : Nat → Nat → Nat → Nat) {l j : Nat} (hl : l < 96) (hm : m.getLsbD l = true) (hj : j < 32 / wd) {r : Nat} :
    ∀ n, r < n → (w.writeRegs wd d m f n).elem wd (d + r) l j = f r l j % 2 ^ wd
  | 0, hr => absurd hr (Nat.not_lt_zero r)
  | n + 1, hr => by
    rw [Wave.writeRegs_succ]
    by_cases hn : r = n
    · subst hn
      exact Wave.elem_writeElems _ _ _ _ _ _ _ hl hm hw (by simpa [elemsPerLane, hwd] using hj)
    · rw [Wave.elem_writeElems_other _ hwd (by omega) _ _ hl]
      exact Wave.elem_writeRegs w hw hwd d m f hl hm hj n (by omega)

theorem Body.writeRegs {h : Here} {x : Writes} {w : Wave} (b : Body h x w) {t : Ty} (ht : t.width ≠ 64) (d : Nat) {m : Lanes}
    (f : Nat → Nat → Nat → Nat) (hm : ∀ l, l < 96 → m.getLsbD l = true → x.m.getLsbD l = true) :
    ∀ n, (∀ r, r < n → d + r ∈ x.v) → Body h x (w.writeRegs t.width d m f n)
  | 0, _ => b
  | n + 1, hr => by
    rw [Wave.writeRegs_succ]
    refine (Body.writeRegs b ht d f hm n fun r hn => hr r (by omega)).writeElems t _ m _ ?_ hm
    rw [regsOf_of_ne ht]
    exact List.forall_mem_singleton.mpr (hr n (by omega))

/-- A meaning that raises flags, leaves Z at `z` and changes the wave by `f` within `x`. -/
theorem Clear.arithEffect {s : State} {h : Here} {rs : List Nat} (c : Clear s h rs) {i : Instr} {g : Guard} {u : Uses}
    {k : Here → Except Abort State} (e : exec i s = onWave g u s k) (hu : ∀ r ∈ u.vr ++ u.nm ++ u.vw, r ∈ rs)
    (hi : u.indexed = false) {m : Lanes} {fl : Nat → Flags} {z : W32} {f : Wave → Wave} (hk : k h = h.arith s m fl z f)
    {x : Writes} (hxf : x.flags = true) (hxz : x.z = true) (hb : ∀ w, Body h x w → Body h x (f w)) {q : Wave → Prop}
    (hq : ∀ fl fr, q ((f (h.w.raised h.side fl z)).setFrag h.side fr)) : Trapping i s h m fl (Completes i s h x q) :=
  c.trapping e hu (.inl hi) hk fun e' =>
    (hb _ ((Body.refl c x).raised _ z hxf (.inl hxz))).completes (fun w => f (w.raised h.side (orFlags ((lanesOf m).map fl)) z))
      e' fun _ _ => hq _ _

/-- A meaning that raises flags and writes the elements of `n` successive registers (R179, R181). -/
theorem Clear.regsResult {s : State} {h : Here} {rs : List Nat} (c : Clear s h rs) {i : Instr} {g : Guard} {u : Uses}
    {k : Here → Except Abort State} (e : exec i s = onWave g u s k) (hu : ∀ r ∈ u.vr ++ u.nm ++ u.vw, r ∈ rs)
    (hi : u.indexed = false) {m : Lanes} {fl : Nat → Flags} {z : W32} {t : Ty} {d n : Nat} {f : Nat → Nat → Nat → Nat}
    (hw : laneWidth t.width) (ht : t.width ≠ 64) (hk : k h = h.arith s m fl z fun w => w.writeRegs t.width d m f n) :
    Trapping i s h m fl (Completes i s h { v := (List.range n).map (d + ·), m, flags := true, z := true } fun w =>
      ∀ r l j, r < n → l < 96 → m.getLsbD l = true → j < 32 / t.width →
        w.elem t.width (d + r) l j = f r l j % 2 ^ t.width) := by
  have hb (w : Wave) (b : Body h { v := (List.range n).map (d + ·), m, flags := true, z := true } w) :
      Body h { v := (List.range n).map (d + ·), m, flags := true, z := true } (w.writeRegs t.width d m f n) :=
    b.writeRegs ht d f (fun _ _ a => a) n (by simp)
  refine c.arithEffect (f := fun w => w.writeRegs t.width d m f n) e hu hi hk rfl rfl hb ?_
  intro _ _ r l j hr hl hm hj
  rw [Wave.elem_setFrag, Wave.elem_writeRegs _ hw ht d m f hl hm hj n hr]

theorem Clear.unpack {s : State} {h : Here} {o : Cvt} (hw : wellFormed (.unpack o) = true)
    (c : Clear s h (o.a.toNat :: (List.range (o.dst.width / o.src.width)).map (o.d.toNat + ·))) :
    let n := 32 / o.dst.width
    let e := 32 / o.src.width
    let z := nextZ (Cvt.mode o h) h.f.z
    let out (l j : Nat) := Cvt.elem o h (howOf (Cvt.mode o h) z l e j) (h.w.elem o.src.width o.a.toNat l j)
    Trapping (.unpack o) s h (h.part o.g) (fun l => orFlags ((List.range e).map fun j => (out l j).2))
      (Completes (.unpack o) s h { v := (List.range (o.dst.width / o.src.width)).map (o.d.toNat + ·), m := h.part o.g,
                                   flags := true, z := true } fun w =>
        ∀ r l j, r < o.dst.width / o.src.width → l < 96 → (h.part o.g).getLsbD l = true → j < n →
          w.elem o.dst.width (o.d.toNat + r) l j = (out l (n * r + j)).1 % 2 ^ o.dst.width) := by
  simp only [wellFormed, Bool.and_eq_true, decide_eq_true_eq] at hw
  have e : exec (.unpack o) s = execUnpack o s := rfl
  exact c.regsResult e (fun r hr => by simpa using hr) rfl (Cvt.laneWidth_of_ok hw.1.1.1) (by omega) rfl

/-- R38: element `i` of block `b` and its place: its lane is a lane of the block, and counting from there gives `i` again. -/
theorem dx_place {dx : Ty} (hd : dx = .dx8 ∨ dx = .dx4) (b : Nat) {i : Nat} (hi : i < 32) :
    (32 * b + i) / dxPer dx / dxLanes dx = b ∧
      (32 * b + i) / dxPer dx % dxLanes dx * dxPer dx + (32 * b + i) % dxPer dx = i := by
  rcases hd with rfl | rfl
  · show (32 * b + i) / 4 / 8 = b ∧ (32 * b + i) / 4 % 8 * 4 + (32 * b + i) % 4 = i
    omega
  · show (32 * b + i) / 8 / 4 = b ∧ (32 * b + i) / 8 % 4 * 8 + (32 * b + i) % 8 = i
    omega

theorem dxLanes_pos {dx : Ty} (hd : dx = .dx8 ∨ dx = .dx4) : 0 < dxLanes dx := by rcases hd with rfl | rfl <;> decide

/-- The lane of an element of a block below the last exists. -/
theorem dx_lane_lt {dx : Ty} (hd : dx = .dx8 ∨ dx = .dx4) {b i : Nat} (hb : b < 96 / dxLanes dx) (hi : i < 32) :
    (32 * b + i) / dxPer dx < 96 := by
  rcases hd with rfl | rfl
  · have hb' : b < 96 / 8 := hb
    show (32 * b + i) / 4 < 96
    omega
  · have hb' : b < 96 / 4 := hb
    show (32 * b + i) / 8 < 96
    omega

/-- The mask of some blocks holds a lane when they hold its block. -/
theorem dxMask_bit {dx : Ty} (hd : dx = .dx8 ∨ dx = .dx4) (bs : List Nat) {l : Nat} (hl : l < 96) :
    (dxMask dx bs).getLsbD l = decide (l / dxLanes dx ∈ bs) := by
  have hp := dxLanes_pos hd
  rw [dxMask, lanesMask_bit _ _ hl, decide_eq_decide]
  simp only [List.mem_flatMap, List.mem_map, List.mem_range]
  constructor
  · rintro ⟨b, hb, x, hx, rfl⟩
    rwa [Nat.mul_add_div hp, Nat.div_eq_of_lt hx, Nat.add_zero]
  · exact fun hb => ⟨_, hb, l % dxLanes dx, Nat.mod_lt _ hp, Nat.div_add_mod l _⟩

theorem mem_dxBlocks_lt {dx : Ty} {m : Lanes} {b : Nat} (hb : b ∈ dxBlocks dx m) : b < 96 / dxLanes dx :=
  List.mem_range.mp (List.mem_filter.mp hb).1

/-- R180: the codes of the blocks `bs` into register `d`, their scales into register `c` under group `grp`; `old` holds the
scales that stay beside a new one. -/
def Wave.writeDx (w : Wave) (dx : Ty) (d c grp : Nat) (bs : List Nat) (blk : Nat → Nat × Nat × List Nat × Flags)
    (old : Nat → Nat → Nat) : Wave :=
  (w.writeV d (dxMask dx bs) fun l => packLane (32 / dxPer dx) fun k =>
      (blk (l / dxLanes dx)).2.2.1.getD (l % dxLanes dx * dxPer dx + k) 0).writeV
    c (lanesMask (bs.map fun b => (dxScaleAt grp b).1)) fun l => packLane 16 fun half =>
      if bs.contains (2 * (l - 6 * grp) + half) then
        (blk (2 * (l - 6 * grp) + half)).1 + 256 * (blk (2 * (l - 6 * grp) + half)).2.1
      else old l half

section WriteDx
variable (w : Wave) {dx : Ty} {d c : Nat} (grp : Nat) (bs : List Nat) (blk : Nat → Nat × Nat × List Nat × Flags)
  (old : Nat → Nat → Nat)

/-- Register `d` takes the codes in the lanes of the blocks alone. -/
theorem Wave.readV_writeDx_codes (hd : dx = .dx8 ∨ dx = .dx4) (hdc : c ≠ d) {l : Nat} (hl : l < 96) :
    (w.writeDx dx d c grp bs blk old).readV d l =
      if l / dxLanes dx ∈ bs then packLane (32 / dxPer dx) fun k =>
        (blk (l / dxLanes dx)).2.2.1.getD (l % dxLanes dx * dxPer dx + k) 0
      else w.readV d l := by
  simp only [Wave.writeDx, Wave.readV_writeV _ _ _ _ _ _ hl, dxMask_bit hd _ hl, hdc.symm, false_and, if_false, true_and,
    decide_eq_true_eq]

/-- R180: the codes of a processed block. -/
theorem Wave.elem_writeDx_code (hd : dx = .dx8 ∨ dx = .dx4) (hdc : c ≠ d) {b i : Nat} (hb : b ∈ bs)
    (hlt : b < 96 / dxLanes dx) (hi : i < 32) :
    (w.writeDx dx d c grp bs blk old).elem (32 / dxPer dx) d ((32 * b + i) / dxPer dx) ((32 * b + i) % dxPer dx) =
      (blk b).2.2.1.getD i 0 % 2 ^ (32 / dxPer dx) := by
  obtain ⟨hblock, helem⟩ := dx_place hd b hi
  have hper : 32 / dxPer dx ≠ 64 ∧ 32 / dxPer dx * (32 / (32 / dxPer dx)) = 32 ∧
      (32 * b + i) % dxPer dx < 32 / (32 / dxPer dx) := by
    rcases hd with rfl | rfl
    · exact ⟨by decide, by decide, Nat.mod_lt _ (by decide)⟩
    · exact ⟨by decide, by decide, Nat.mod_lt _ (by decide)⟩
  obtain ⟨hne, hfill, hplace⟩ := hper
  rw [Wave.elem, if_neg hne, Wave.readV_writeDx_codes w grp bs blk old hd hdc (dx_lane_lt hd hlt hi), hblock, if_pos hb,
    bits_packLane _ _ _ hfill hplace, helem]

/-- A lane of register `c` that holds no scale of the blocks stays. -/
theorem Wave.readV_writeDx_scales_other (hdc : c ≠ d) {l : Nat} (hl : l < 96) (hs : ∀ b ∈ bs, (dxScaleAt grp b).1 ≠ l) :
    (w.writeDx dx d c grp bs blk old).readV c l = w.readV c l := by
  have hm : l ∉ bs.map fun b => (dxScaleAt grp b).1 := by simpa using hs
  simp [Wave.writeDx, Wave.readV_writeV _ _ _ _ _ _ hl, lanesMask_bit _ _ hl, hm, hdc]

/-- The halves of a lane that takes a scale: of a processed block its scales, else what `old` holds. -/
theorem Wave.elem_writeDx_scale {b : Nat} (hl : (dxScaleAt grp b).1 < 96)
    (hs : (dxScaleAt grp b).1 ∈ bs.map fun b => (dxScaleAt grp b).1) :
    (w.writeDx dx d c grp bs blk old).elem 16 c (dxScaleAt grp b).1 (b % 2) =
      (if b ∈ bs then (blk b).1 + 256 * (blk b).2.1 else old (dxScaleAt grp b).1 (b % 2)) % 2 ^ 16 := by
  have hb : 2 * ((dxScaleAt grp b).1 - 6 * grp) + b % 2 = b := by
    show 2 * (6 * grp + b / 2 - 6 * grp) + b % 2 = b
    omega
  rw [Wave.elem, if_neg (by decide), Wave.writeDx, Wave.readV_writeV _ _ _ _ _ _ hl, lanesMask_bit _ _ hl,
    if_pos ⟨rfl, decide_eq_true hs⟩, bits_packLane 16 _ _ rfl (Nat.mod_lt _ (by decide)), hb]
  simp only [List.contains_iff_mem]

theorem Wave.elem_lt {wd : Nat} (hwd : wd ≠ 64) (r l j : Nat) : w.elem wd r l j < 2 ^ wd := by
  rw [Wave.elem, if_neg hwd]
  exact BitVec.isLt _

/-- The scales of a block that is not processed stay. -/
theorem Wave.elem_writeDx_scale_kept (hdc : c ≠ d) (ho : ∀ l j, old l j = w.elem 16 c l j) {b : Nat}
    (hl : (dxScaleAt grp b).1 < 96) (hb : b ∉ bs) :
    (w.writeDx dx d c grp bs blk old).elem 16 c (dxScaleAt grp b).1 (b % 2) = w.elem 16 c (dxScaleAt grp b).1 (b % 2) := by
  by_cases hs : (dxScaleAt grp b).1 ∈ bs.map fun b => (dxScaleAt grp b).1
  · rw [Wave.elem_writeDx_scale w grp bs blk old hl hs, if_neg hb, ho, Nat.mod_eq_of_lt (w.elem_lt (by decide) _ _ _)]
  · have hs' : ∀ b' ∈ bs, (dxScaleAt grp b').1 ≠ (dxScaleAt grp b).1 := by simpa using hs
    simp only [Wave.elem, Wave.readV_writeDx_scales_other w grp bs blk old hdc hl hs', if_neg (by decide : ¬ 16 = 64)]

end WriteDx

theorem Body.writeDx {h : Here} {x : Writes} {w : Wave} (b : Body h x w) (dx : Ty) {d c : Nat} (grp : Nat) (bs : List Nat)
    (blk : Nat → Nat × Nat × List Nat × Flags) (old : Nat → Nat → Nat) (hd : d ∈ x.v) (hc : c ∈ x.v)
    (hm : ∀ l, l < 96 → x.m.getLsbD l = true) : Body h x (w.writeDx dx d c grp bs blk old) :=
  (b.writeV d _ _ hd fun l hl _ => hm l hl).writeV c _ _ hc fun l hl _ => hm l hl

/-- The lane of a block's scales exists: of dx4, which has twice the blocks, group 15 is no operand (R180). -/
theorem dxScaleAt_lt {dx : Ty} (hd : dx = .dx8 ∨ dx = .dx4) {grp : BitVec 4} (hg : dx = .dx4 → grp ≠ 15) {b : Nat}
    (hb : b < 96 / dxLanes dx) : (dxScaleAt grp.toNat b).1 < 96 := by
  show 6 * grp.toNat + b / 2 < 96
  have hgrp := grp.isLt
  rcases hd with rfl | rfl
  · have hb' : b < 96 / 8 := hb
    omega
  · have hb' : b < 96 / 4 := hb
    have : grp.toNat ≠ 15 := fun e => hg rfl (BitVec.eq_of_toNat_eq e)
    omega

@[simp] theorem Wave.readV_raised (w : Wave) (side : Bool) (fl : Flags) (z : W32) (r l : Nat) :
    (w.raised side fl z).readV r l = w.readV r l := by
  unfold Wave.raised
  dsimp only
  split
  · rw [Wave.readV_setFrag]
    rfl
  · rfl

@[simp] theorem Wave.elem_raised (w : Wave) (side : Bool) (fl : Flags) (z : W32) (wd r l j : Nat) :
    (w.raised side fl z).elem wd r l j = w.elem wd r l j := by simp [Wave.elem, Wave.readV64]

/-- R180: element `n` of the source of dxq. -/
def Here.dxSource (h : Here) (o : DxOp) (n : Nat) : FVal :=
  decodeF o.src (modeDaz h.w.mode) (h.w.elem o.src.width (o.a.toNat + (dxPlace o.src n).1) (dxPlace o.src n).2.1
    (dxPlace o.src n).2.2)

/-- R180: a block of dxq, quantised: its exponents, codes and flags. -/
def Here.dxBlock (h : Here) (o : DxOp) (b : Nat) : Nat × Nat × List Nat × Flags :=
  quantBlock o.dst (fun i => howOf (h.rnd o.rnd) (nextZ (h.rnd o.rnd) h.f.z) ((32 * b + i) / dxPer o.dst) (dxPer o.dst)
      ((32 * b + i) % dxPer o.dst))
    ((List.range 32).map fun i => h.dxSource o (32 * b + i))

theorem Clear.dxq {s : State} {h : Here} {o : DxOp} (hw : wellFormed (.dxq o) = true)
    (c : Clear s h ((List.range (dxRegs o.dst o.src)).map (o.a.toNat + ·) ++ [o.d.toNat, o.c.toNat])) :
    let bs := dxBlocks o.dst (h.part o.g)
    Trapping (.dxq o) s h (dxMask o.dst bs) (fun l => (h.dxBlock o (l / dxLanes o.dst)).2.2.2)
      (Completes (.dxq o) s h { v := [o.d.toNat, o.c.toNat], flags := true, z := true } fun w =>
        (∀ b i, b ∈ bs → i < 32 →
          w.elem (32 / dxPer o.dst) o.d.toNat ((32 * b + i) / dxPer o.dst) ((32 * b + i) % dxPer o.dst) =
            (h.dxBlock o b).2.2.1.getD i 0 % 2 ^ (32 / dxPer o.dst)) ∧
        (∀ b, b ∈ bs → w.elem 16 o.c.toNat (dxScaleAt o.grp.toNat b).1 (b % 2) =
          ((h.dxBlock o b).1 + 256 * (h.dxBlock o b).2.1) % 2 ^ 16) ∧
        (∀ l, l < 96 → (dxMask o.dst bs).getLsbD l = false → w.readV o.d.toNat l = h.w.readV o.d.toNat l) ∧
        (∀ b, b < 96 / dxLanes o.dst → b ∉ bs → w.elem 16 o.c.toNat (dxScaleAt o.grp.toNat b).1 (b % 2) =
          h.w.elem 16 o.c.toNat (dxScaleAt o.grp.toNat b).1 (b % 2)) ∧
        ∀ l, l < 96 → (∀ b, b < 96 / dxLanes o.dst → (dxScaleAt o.grp.toNat b).1 ≠ l) →
          w.readV o.c.toNat l = h.w.readV o.c.toNat l) := by
  intro bs
  simp only [wellFormed, Bool.and_eq_true, Bool.or_eq_true, beq_iff_eq, bne_iff_ne] at hw
  obtain ⟨⟨⟨hd, -⟩, hcd⟩, hg⟩ := hw
  have hdc : o.c.toNat ≠ o.d.toNat := fun e => hcd (BitVec.eq_of_toNat_eq e)
  have hgrp : o.dst = .dx4 → o.grp ≠ 15 := fun e => hg.resolve_left fun hne => hne e
  have hlt : ∀ b ∈ bs, b < 96 / dxLanes o.dst := fun b hb => mem_dxBlocks_lt hb
  have e : exec (.dxq o) s = execDxq o s := rfl
  refine c.arithEffect (z := nextZ (h.rnd o.rnd) h.f.z)
    (f := fun w => w.writeDx o.dst o.d.toNat o.c.toNat o.grp.toNat bs (h.dxBlock o) (h.w.elem 16 o.c.toNat))
    e (fun r hr => by simpa using hr) rfl ?_ rfl rfl
    (fun w b => b.writeDx o.dst o.grp.toNat bs (h.dxBlock o) _ (by simp) (by simp)
      fun l hl => (BitVec.getLsbD_allOnes ..).trans (decide_eq_true hl))
    fun _ _ => ⟨?_, ?_, ?_, ?_, ?_⟩
  · dsimp only
    rw [c.ecc]
    rfl
  · intro b i hb hi
    rw [Wave.elem_setFrag, Wave.elem_writeDx_code _ _ _ _ _ hd hdc hb (hlt b hb) hi]
  · intro b hb
    rw [Wave.elem_setFrag, Wave.elem_writeDx_scale _ _ _ _ _ (dxScaleAt_lt hd hgrp (hlt b hb)) (List.mem_map_of_mem hb), if_pos hb]
  · intro l hl hm
    rw [dxMask_bit hd _ hl, decide_eq_false_iff_not] at hm
    rw [Wave.readV_setFrag, Wave.readV_writeDx_codes _ _ _ _ _ hd hdc hl, if_neg hm, Wave.readV_raised]
  · intro b hb96 hb
    rw [Wave.elem_setFrag, Wave.elem_writeDx_scale_kept _ _ _ _ _ hdc (fun _ _ => (Wave.elem_raised ..).symm)
      (dxScaleAt_lt hd hgrp hb96) hb, Wave.elem_raised]
  · intro l hl hs
    rw [Wave.readV_setFrag, Wave.readV_writeDx_scales_other _ _ _ _ _ hdc hl fun b hb => hs b (hlt b hb), Wave.readV_raised]

theorem Ty.laneWidth_of_dxd {t : Ty} (ht : (t = .f32 ∨ t = .f16) ∨ t = .bf16) : laneWidth t.width ∧ t.width ≠ 64 := by
  rcases ht with (rfl | rfl) | rfl <;> simp [laneWidth, Ty.width]

/-- R181: the element of dxd that goes to sub-element `j` of lane `l` of register `r` (after the first), and its flags. -/
def Here.dxElem (h : Here) (o : DxOp) (r l j : Nat) : FVal × Flags :=
  let mode := if o.dst = .f16 then h.rnd o.rnd else .rne
  let n := if o.dst.width = 32 then 96 * r + l else 192 * r + 2 * l + j
  let sc := bits (h.w.readV o.c.toNat (dxScaleAt o.grp.toNat (n / 32)).1) (dxScaleAt o.grp.toNat (n / 32)).2 16
  match decodeDx o.src (sc % 256) (sc / 256) (h.w.elem (32 / dxPer o.src) o.a.toNat (n / dxPer o.src) (n % dxPer o.src)) with
  | .fin neg x e =>
    if o.dst = .f16 then roundTo .f16 (howOf mode (nextZ mode h.f.z) l 2 j) (modeFtz h.w.mode) ⟨neg, x, e⟩
    else (.fin neg x e, 0)
  | v => (v, flNV)

theorem Clear.dxd {s : State} {h : Here} {o : DxOp} (hw : wellFormed (.dxd o) = true)
    (c : Clear s h ([o.a.toNat, o.c.toNat] ++ (List.range (dxRegs o.src o.dst)).map (o.d.toNat + ·))) :
    Trapping (.dxd o) s h (h.part o.g) (fun l => orFlags ((List.range (dxRegs o.src o.dst)).map fun r =>
        orFlags ((List.range (32 / o.dst.width)).map fun j => (h.dxElem o r l j).2)))
      (Completes (.dxd o) s h { v := (List.range (dxRegs o.src o.dst)).map (o.d.toNat + ·), m := h.part o.g,
                                flags := true, z := true } fun w =>
        ∀ r l j, r < dxRegs o.src o.dst → l < 96 → (h.part o.g).getLsbD l = true → j < 32 / o.dst.width →
          w.elem o.dst.width (o.d.toNat + r) l j = encodeF o.dst (h.dxElem o r l j).1 % 2 ^ o.dst.width) := by
  simp only [wellFormed, Bool.and_eq_true, Bool.or_eq_true, beq_iff_eq] at hw
  obtain ⟨⟨⟨-, ht⟩, -⟩, -⟩ := hw
  obtain ⟨hwd, hne⟩ := Ty.laneWidth_of_dxd ht
  have e : exec (.dxd o) s = execDxd o s := rfl
  refine c.regsResult (z := nextZ (if o.dst = .f16 then h.rnd o.rnd else .rne) h.f.z)
    (f := fun r l j => encodeF o.dst (h.dxElem o r l j).1) e (fun r hr => by simpa using hr) rfl hwd hne ?_
  dsimp only
  rw [c.ecc]
  rfl

/-- Settles O10: each meaning is one `arith` whose effect writes elements of the registers it names. -/
theorem conversionResults : Obligations.ConversionResults := by
  unfold Obligations.ConversionResults
  exact ⟨fun _ _ _ hw c => c.cvt hw, fun _ _ _ hw c => c.pack hw, fun _ _ _ hw c => c.unpack hw,
    fun _ _ _ hw c => c.dxq hw, fun _ _ _ hw c => c.dxd hw⟩

end Sys2Proof.Machine

/-! What a wake leaves of memory: caches of cores apart, everything, when no pending store event is performed for a crew. -/
namespace Sys2Proof.Machine

/-- Memory is as before but for what the L1s of cores hold. -/
def MemKept (s t : State) : Prop := ∃ l1 l1va, t.mem = { s.mem with l1, l1va }

/-- No pending store event is performed for a crew. -/
def NoCrewPosts (s : State) : Prop := ∀ p ∈ s.mem.posts, p.crews = []

theorem MemKept.of_mem {s t : State} (e : t.mem = s.mem) : MemKept s t := ⟨_, _, e⟩

theorem MemKept.trans {s t r : State} (a : MemKept s t) (b : MemKept t r) : MemKept s r := by
  obtain ⟨_, _, ea⟩ := a
  obtain ⟨_, _, eb⟩ := b
  exact ⟨_, _, by rw [eb, ea]⟩

theorem MemKept.byteAt {s t : State} (a : MemKept s t) (x : Nat) : t.mem.byteAt x = s.mem.byteAt x := by
  obtain ⟨_, _, e⟩ := a
  rw [e]
  rfl

theorem MemKept.noCrewPosts {s t : State} (a : MemKept s t) (hp : NoCrewPosts s) : NoCrewPosts t := by
  obtain ⟨_, _, e⟩ := a
  unfold NoCrewPosts
  rw [e]
  exact hp

/-- A fold of steps that keep memory where no event is performed for a crew keeps it. -/
theorem MemKept.foldl {α : Type} {f : State → α → State} (hf : ∀ s x, NoCrewPosts s → MemKept s (f s x)) :
    ∀ (l : List α) (s : State), NoCrewPosts s → MemKept s (l.foldl f s)
  | [], _, _ => .of_mem rfl
  | x :: l, s, hp => (hf s x hp).trans (MemKept.foldl hf l _ ((hf s x hp).noCrewPosts hp))

theorem duePosts_cons (p : Post → Bool) (x : Post) (l : List Post) : duePosts p (x :: l) =
    if p x || (duePosts p l).1.any x.meets then (x :: (duePosts p l).1, (duePosts p l).2)
    else ((duePosts p l).1, x :: (duePosts p l).2) := rfl

/-- Where no pending event is named, none is performed. -/
theorem duePosts_none {p : Post → Bool} : ∀ (l : List Post), (∀ x ∈ l, p x = false) → duePosts p l = ([], l)
  | [], _ => rfl
  | x :: l, h => by
    rw [duePosts_cons, duePosts_none l fun y hy => h y (List.mem_cons_of_mem x hy), h x List.mem_cons_self]
    rfl

theorem acquire_crw_memKept {s : State} (core id crew : Nat) (hp : NoCrewPosts s) : MemKept s (s.acquire core id crew .crw) := by
  have hposts : s.mem.posts.map (fun p => if p.crews.contains crew then { p with obs := id :: p.obs } else p) = s.mem.posts :=
    (List.map_congr_left fun p h => by simp [hp p h]).trans (List.map_id _)
  refine ⟨(s.mem.dropL1 core).l1, (s.mem.dropL1 core).l1va, ?_⟩
  unfold State.acquire
  dsimp only
  rw [hposts]
  rfl

theorem seqAcquire_memKept {s : State} (i : Inst) (hp : NoCrewPosts s) : MemKept s (s.seqAcquire i) := by
  have hdue : duePosts (fun p => p.crews.contains i.crew) (s.setMem (s.mem.dropL1 i.core)).mem.posts = ([], s.mem.posts) :=
    duePosts_none _ fun p h => by simp [hp p h]
  refine ⟨(s.mem.dropL1 i.core).l1, (s.mem.dropL1 i.core).l1va, ?_⟩
  rw [State.seqAcquire, State.settle, hdue]
  rfl

/-- R236, R416: the waits that a wake ends are acquires of waves, then of sequencers. -/
theorem wake_memKept {s : State} (hp : NoCrewPosts s) : MemKept s s.wake := by
  have waves (t : State) (x : Nat × Wave) (ht : NoCrewPosts t) := MemKept.foldl
    (f := fun t (f : Fragment) => t.acquire x.2.core f.id x.2.crew .crw) (fun _ f hr => acquire_crw_memKept _ f.id _ hr)
    (x.2.frags.filter fun f => f.wait.flipped s (x.2.core / 8)) t ht
  have hw := MemKept.foldl waves (s.waves.filter fun x => x.2.wakes s) { s with
    waves := s.waves.map fun x => if x.2.wakes s then (x.1, x.2.mapFrags (·.wake s (x.2.core / 8))) else x
    seqs := s.seqs.map fun x => if x.2.wakes s then (x.1, x.2.advance) else x } hp
  exact MemKept.trans hw (MemKept.foldl (f := fun t (x : Nat × Inst) => t.seqAcquire x.2)
    (fun _ x ht => seqAcquire_memKept x.2 ht) _ _ (hw.noCrewPosts hp))

/-- R282: what an operation that left memory alone leaves there when its commit ends barrier waits. -/
theorem committed_byteAt {s s1 : State} (hm : s1.mem = s.mem) (k : Nat) (i : Inst) (hp : NoCrewPosts s) (a : Nat) :
    (s1.committed k i).mem.byteAt a = s.mem.byteAt a := by
  have hp' : NoCrewPosts (s1.putInst k { i with ops := i.ops.drop 1, wait := .none }) :=
    MemKept.noCrewPosts (.of_mem hm) hp
  rw [State.committed, (wake_memKept hp').byteAt, State.putInst_mem, hm]

/-- The oldest operation of a core's sequencer, when nothing stops it, commits (mdrainx has its own commit, R298). -/
theorem Oldest.commits {s s1 : State} {core : Nat} {m : MatCtx} {i1 : Inst} (ho : Oldest s core m)
    (hx : ∀ ty rnd sat d q, m.o.op ≠ .mdrainx ty rnd sat d q) (hc : m.commit s = (s1, .ok i1)) (hm : s1.mem = s.mem) :
    Commits s s1 core m i1 := by
  refine ⟨?_, fun hp a => committed_byteAt hm m.key i1 hp a⟩
  obtain ⟨hfind, hhead, hcrew, hlaunch⟩ := ho
  obtain ⟨key, i, o, c, l⟩ := m
  obtain ⟨rest, hops⟩ : ∃ rest, i.ops = o :: rest := by
    cases hi : i.ops with
    | nil => simp [hi] at hhead
    | cons x rest => exact ⟨rest, by simpa [hi] using hhead⟩
  dsimp only at hcrew hlaunch hx
  have e : exec (.matrixCommit core) s = execMatrixCommit core s := rfl
  rw [e, execMatrixCommit, hfind]
  dsimp only
  rw [hops]
  dsimp only
  rw [← hcrew, ← hlaunch]
  split
  · exact absurd ‹_› (hx _ _ _ _ _)
  · rw [hc]

/-! Accumulators of a sequencer: what a read gives after an operation has written one. -/

@[simp] theorem Inst.putAcc_carry (i : Inst) (f64 : Bool) (d lo : Nat) (l : List Nat) : (i.putAcc f64 d lo l).carry = i.carry := by
  cases f64 <;> rfl
@[simp] theorem Inst.putAcc_flags (i : Inst) (f64 : Bool) (d lo : Nat) (l : List Nat) : (i.putAcc f64 d lo l).flags = i.flags := by
  cases f64 <;> rfl
@[simp] theorem Inst.raise_acc (i : Inst) (fl : Flags) : (i.raise fl).acc = i.acc := rfl
@[simp] theorem Inst.raise_carry (i : Inst) (fl : Flags) : (i.raise fl).carry = i.carry := rfl
@[simp] theorem Inst.raise_flags (i : Inst) (fl : Flags) : (i.raise fl).flags = i.flags ||| fl := rfl
@[simp] theorem Inst.note_acc (i : Inst) (rd wr : List (Nat × Nat)) : (i.note rd wr).acc = i.acc := rfl
@[simp] theorem Inst.note_carry (i : Inst) (rd wr : List (Nat × Nat)) : (i.note rd wr).carry = i.carry := rfl
@[simp] theorem Inst.note_flags (i : Inst) (rd wr : List (Nat × Nat)) : (i.note rd wr).flags = i.flags := rfl

theorem Inst.accAt_congr {i i1 : Inst} (e : i1.acc = i.acc) (f64 : Bool) (d x : Nat) : i1.accAt f64 d x = i.accAt f64 d x := by
  simp only [Inst.accAt, e]

/-- R63: a word of the accumulators after the elements of one, or of a pair, were written. -/
theorem Inst.read_putAcc (i : Inst) (f64 : Bool) (d : Nat) {l : List Nat} (hl : l.length ≤ 4096) (k : Nat) :
    (i.putAcc f64 d 0 l).acc.read k =
      if 4096 * d ≤ k ∧ k < 4096 * d + l.length then BitVec.ofNat 32 (l.getD (k - 4096 * d) 0)
      else if f64 = true ∧ 4096 * (d + 1) ≤ k ∧ k < 4096 * (d + 1) + l.length then
        BitVec.ofNat 32 (l.getD (k - 4096 * (d + 1)) 0 / 2 ^ 32)
      else i.acc.read k := by
  cases f64 with
  | false =>
    simp only [Inst.putAcc, Cells.read_update, Nat.add_zero, pow_zero, Nat.div_one, Bool.false_eq_true, if_false, false_and]
  | true =>
    simp only [Inst.putAcc, Cells.read_update, Nat.add_zero, pow_zero, Nat.div_one, if_true, true_and]
    by_cases hlow : 4096 * d ≤ k ∧ k < 4096 * d + l.length
    · rw [if_neg (by omega : ¬ (4096 * (d + 1) ≤ k ∧ k < 4096 * (d + 1) + l.length)), if_pos hlow, if_pos hlow]
    · rw [if_neg hlow, if_neg hlow]

/-- R63: an element of an accumulator, or of a pair, after its elements were written. -/
theorem Inst.accAt_putAcc (i : Inst) (f64 : Bool) (d : Nat) {l : List Nat} (hl : l.length ≤ 4096) {e : Nat} (he : e < l.length) :
    (i.putAcc f64 d 0 l).accAt f64 d e = l.getD e 0 % 2 ^ (if f64 then 64 else 32) := by
  have low : 4096 * d ≤ 4096 * d + e ∧ 4096 * d + e < 4096 * d + l.length := by omega
  have high : 4096 * (d + 1) ≤ 4096 * (d + 1) + e ∧ 4096 * (d + 1) + e < 4096 * (d + 1) + l.length := by omega
  have apart : ¬ (4096 * d ≤ 4096 * (d + 1) + e ∧ 4096 * (d + 1) + e < 4096 * d + l.length) := by omega
  simp only [Inst.accAt, Inst.read_putAcc i f64 d hl, if_pos low, if_neg apart, high, and_self, and_true,
    Nat.add_sub_cancel_left, BitVec.toNat_ofNat]
  cases f64 with
  | false => rfl
  | true =>
    simp only [if_true, BitVec.toNat_ofNat]
    omega

/-- Accumulators beside those written are as before. -/
theorem otherAcc_putAcc (i : Inst) (f64 : Bool) (d : Nat) {l : List Nat} (hl : l.length ≤ 4096) :
    OtherAcc i (i.putAcc f64 d 0 l) f64 d := by
  intro k hk
  have low : ¬ (4096 * d ≤ k ∧ k < 4096 * d + l.length) := by split at hk <;> omega
  have high : ¬ (f64 = true ∧ 4096 * (d + 1) ≤ k ∧ k < 4096 * (d + 1) + l.length) := by
    rintro ⟨rfl, hlo, hhi⟩
    simp only [if_true] at hk
    omega
  rw [Inst.read_putAcc i f64 d hl, if_neg low, if_neg high]

/-- What an operation that writes every element of an accumulator leaves: `i1` has its accumulators, and the flags `fl` raised. -/
structure AccWritten (i i1 : Inst) (f64 : Bool) (d : Nat) (v : Nat → Nat) (fl : Flags) : Prop where
  others : OtherAcc i i1 f64 d
  carry : i1.carry = i.carry
  flags : i1.flags = i.flags ||| fl
  elements : ∀ e, e < 4096 → i1.accAt f64 d e = v e % 2 ^ (if f64 then 64 else 32)

theorem accWritten_of_acc {i i1 : Inst} {f64 : Bool} {d : Nat} {v : Nat → Nat} {fl : Flags}
    (ha : i1.acc = (i.putAcc f64 d 0 ((List.range 4096).map v)).acc) (hc : i1.carry = i.carry)
    (hf : i1.flags = i.flags ||| fl) : AccWritten i i1 f64 d v fl where
  others k hk := by rw [ha, otherAcc_putAcc i f64 d (by simp) k hk]
  carry := hc
  flags := hf
  elements e he := by
    rw [Inst.accAt_congr ha, Inst.accAt_putAcc i f64 d (by simp) (by simpa using he)]
    simp [he]

/-! The products of a matrix operation: 64 columns for each row. -/

theorem sparseColumns_length (t : Ty) (k : Nat) (rd : Nat → Byte) : ∀ n a, (sparseColumns t k rd n a).1.length = n
  | 0, _ => rfl
  | n + 1, a => by simp [sparseColumns, sparseColumns_length t k rd n]

/-- R292: B has 64 columns. -/
@[simp] theorem matB_length (t : Ty) (sp : Bool) (k : Nat) (rd : Nat → Byte) (a : Nat) : (matB t sp k rd a).1.length = 64 := by
  unfold matB
  split
  · exact sparseColumns_length t k rd 64 a
  · simp

/-- Rows of `b` entries one after another, as one list. -/
theorem flatMap_rows {α : Type} (b : Nat) (hb : 0 < b) (g : Nat → Nat → α) : ∀ n,
    (List.range n).flatMap (fun r => (List.range b).map (g r)) = (List.range (n * b)).map fun e => g (e / b) (e % b)
  | 0 => by simp
  | n + 1 => by
    have hlast : (List.range b).map (g n) = ((List.range b).map (n * b + ·)).map fun e => g (e / b) (e % b) := by
      rw [List.map_map]
      refine List.map_congr_left fun c hc => ?_
      have hc : c < b := List.mem_range.mp hc
      simp [Nat.add_div_of_dvd_right, Nat.div_eq_of_lt hc, Nat.mod_eq_of_lt hc, Nat.mul_div_cancel _ hb]
    rw [List.range_succ, List.flatMap_append, flatMap_rows b hb g n, List.flatMap_singleton, hlast, ← List.map_append,
      ← List.range_add, Nat.succ_mul]

theorem zipIdx_map_eq {α β : Type} (l : List α) (x : α) (f : α × Nat → β) :
    l.zipIdx.map f = (List.range l.length).map fun j => f (l.getD j x, j) := by
  refine List.ext_getElem (by simp) fun j hz _ => ?_
  have hj : j < l.length := by simpa using hz
  simp [hj]

/-- R293: the elements of a product, row after row. -/
theorem Inst.product_eq (i : Inst) (o : Mma) (rows cols : List (List FVal)) (lo : Nat) (hc : cols.length = 64) :
    i.product o rows cols lo = (List.range (rows.length * 64)).map fun e =>
      matSum o.fmt i.rnd (i.accAt (o.fmt == .f64) o.d.toNat (64 * (lo + e / 64) + e % 64)) (rows.getD (e / 64) [])
        (cols.getD (e % 64) []) := by
  simp only [Inst.product, zipIdx_map_eq cols [], hc]
  exact flatMap_rows 64 (by decide) (fun r c => matSum o.fmt i.rnd (i.accAt (o.fmt == .f64) o.d.toNat (64 * (lo + r) + c))
    (rows.getD r []) (cols.getD c [])) _

/-! The commits of the operations on accumulators. -/

/-- The element `e` of the accumulator of mma after the operation, and the flags it raises (R52, R293). -/
def MatCtx.mmaElem (m : MatCtx) (s : State) (o : Mma) (e : Nat) : Nat × Flags :=
  matSum o.fmt m.i.rnd (m.i.accAt (o.fmt == .f64) o.d.toNat e)
    (matRow o.fmt o.k.toNat (m.rdA s) (m.o.ea + e / 64 * (16 * o.rs.toNat)))
    ((matB o.fmt o.sp o.k.toNat (m.rdW s) m.o.eb).1.getD (e % 64) [])

/-- The product of mma has the elements of the accumulator in their order. -/
theorem MatCtx.product_mma (m : MatCtx) (s : State) (o : Mma) :
    m.i.product o ((List.range 64).map fun r => matRow o.fmt o.k.toNat (m.rdA s) (m.o.ea + r * (16 * o.rs.toNat)))
      (matB o.fmt o.sp o.k.toNat (m.rdW s) m.o.eb).1 0 = (List.range 4096).map (m.mmaElem s o) := by
  rw [Inst.product_eq _ _ _ _ _ (matB_length ..)]
  simp only [List.length_map, List.length_range]
  refine List.map_congr_left fun e he => ?_
  have hrow : e / 64 < 64 := by
    have := List.mem_range.mp he
    omega
  rw [Nat.zero_add, Nat.div_add_mod, MatCtx.mmaElem]
  simp [hrow]

theorem MatCtx.mma_writes {m : MatCtx} {s : State} {o : Mma} (hop : m.o.op = .mma o)
    (hr : m.ready s (rowRanges m.o.ea (16 * o.rs.toNat) (rowBytes o.fmt o.k.toNat)) []
      [(m.o.eb, (matB o.fmt o.sp o.k.toNat (m.rdW s) m.o.eb).2 - m.o.eb)] (accWords (o.fmt == .f64) o.d.toNat 0 64) = (s, none)) :
    ∃ i1, m.commit s = (s, .ok i1) ∧ AccWritten m.i i1 (o.fmt == .f64) o.d.toNat (fun e => (m.mmaElem s o e).1)
      (flagsOf ((List.range 4096).map (m.mmaElem s o))) := by
  simp only [MatCtx.commit, hop, MatCtx.mma, hr, orStop, MatCtx.product_mma, List.map_map]
  exact ⟨_, rfl, accWritten_of_acc rfl (by simp) (by simp)⟩

theorem MatCtx.mload_writes {m : MatCtx} {s : State} {ty : Ty} {d : BitVec 3} {xa : BitVec 4} {rs : BitVec 16}
    (hop : m.o.op = .mload ty d xa rs) (hr : m.ready s (rowRanges m.o.ea (16 * rs.toNat) (8 * ty.width)) [] [] [] = (s, none)) :
    ∃ i1, m.commit s = (s, .ok i1) ∧ AccWritten m.i i1 (ty == .f64) d.toNat
      (fun e => leAt (m.rdA s) (m.o.ea + e / 64 * (16 * rs.toNat) + e % 64 * (ty.width / 8)) (ty.width / 8)) 0 := by
  simp only [MatCtx.commit, hop, MatCtx.mload, hr, orStop]
  exact ⟨_, rfl, accWritten_of_acc rfl (by simp) (by simp)⟩

/-- The element `e` of the accumulator of mrsc, rescaled, and the flags it raises (R296). -/
def MatCtx.mrscElem (m : MatCtx) (s : State) (ty : Ty) (d : BitVec 3) (e : Nat) : Nat × Flags :=
  rescale ty m.i.rnd (m.i.accAt (ty == .f64) d.toNat e) (leAt (m.rdA s) (m.o.ea + e / 64 * (ty.width / 8)) (ty.width / 8))

theorem MatCtx.mrsc_writes {m : MatCtx} {s : State} {ty : Ty} {d : BitVec 3} {xa : BitVec 4} (hop : m.o.op = .mrsc ty d xa)
    (hr : m.ready s [(m.o.ea, 64 * (ty.width / 8))] [] [] (accWords (ty == .f64) d.toNat 0 64) = (s, none)) :
    ∃ i1, m.commit s = (s, .ok i1) ∧ AccWritten m.i i1 (ty == .f64) d.toNat (fun e => (m.mrscElem s ty d e).1)
      (flagsOf ((List.range 4096).map (m.mrscElem s ty d))) := by
  simp only [MatCtx.commit, hop, MatCtx.mrsc, hr, orStop, List.map_map]
  exact ⟨_, rfl, accWritten_of_acc rfl (by simp) (by rw [Inst.note_flags, Inst.raise_flags, Inst.putAcc_flags]; rfl)⟩

/-- mzero reads nothing, so nothing stops it (R295). -/
theorem MatCtx.mzero_writes {m : MatCtx} {s : State} {d : BitVec 3} (hop : m.o.op = .mzero d) :
    ∃ i1, m.commit s = (s, .ok i1) ∧ AccWritten m.i i1 false d.toNat (fun _ => 0) 0 := by
  have hzero : List.replicate 4096 0 = (List.range 4096).map fun _ => 0 := by simp [List.map_const']
  simp only [MatCtx.commit, hop, hzero]
  exact ⟨_, rfl, accWritten_of_acc rfl (Inst.putAcc_carry ..) ((Inst.putAcc_flags ..).trans BitVec.or_zero.symm)⟩

/-! mmag: what the checks leave, and the rows of its groups. -/

/-- A check that an operation passes. -/
theorem check_passed {p : Prop} [Decidable p] {s s1 : State} {x : MatStop} {c : Commit} {i1 : Inst}
    (e : (if p then (s, .error x) else c) = (s1, .ok i1)) : ¬ p ∧ c = (s1, .ok i1) := by
  split at e
  · cases e
  · exact ⟨‹_›, e⟩

/-- Window words that must be filled stop an operation. -/
theorem seqFills_none {core ck : Nat} {s s1 : State} :
    ∀ {l : List (Nat × Nat)}, State.seqFills core ck s l = (s1, none) → s1 = s
  | [], e => by
    cases e
    rfl
  | (k, b) :: rest, e => by
    unfold State.seqFills at e
    dsimp only at e
    split at e
    · cases e
    · cases e
    · split at e <;> cases e

/-- An operation that nothing stops has not changed the state by its checks. -/
theorem MatCtx.ready_none {m : MatCtx} {s s1 : State} {rdA wrA rdW : List (Nat × Nat)} {codes : List Nat}
    (e : m.ready s rdA wrA rdW codes = (s1, none)) : s1 = s := by
  unfold MatCtx.ready at e
  dsimp only at e
  split at e
  · cases e
  · split at e
    · cases e
    · rename_i hf
      have hs := seqFills_none hf
      split at e
      · cases e
      · split at e
        · cases e
        · split at e <;> cases e
          exact hs

theorem orStop_ready {m : MatCtx} {s s1 : State} {rdA wrA rdW : List (Nat × Nat)} {codes : List Nat} {k : State → Commit}
    {i1 : Inst} (e : orStop (m.ready s rdA wrA rdW codes) k = (s1, .ok i1)) : k s = (s1, .ok i1) := by
  cases hr : m.ready s rdA wrA rdW codes with
  | mk t x =>
    rw [hr] at e
    cases x with
    | some x => cases e
    | none => rwa [← MatCtx.ready_none hr]

/-- Groups without rows apart, the groups are as many rows. -/
theorem groupStarts_rows : ∀ (n : Nat) (gs : List MatGroup),
    ((groupStarts n gs).map (·.2.rows)).sum = (gs.map (·.rows)).sum
  | _, [] => rfl
  | n, g :: gs => by
    unfold groupStarts
    split
    · rename_i h0
      rw [groupStarts_rows n gs]
      simp [h0]
    · simp [groupStarts_rows _ gs]

/-- The elements that mmag computes, group after group (R294). -/
def MatCtx.mmagElems (m : MatCtx) (s : State) (o : Mma) : List (Nat × Flags) :=
  (groupStarts 0 (m.groups s)).flatMap fun g =>
    m.i.product o ((List.range g.2.rows).map fun r => matRow o.fmt o.k.toNat (m.rdA s) (m.o.ea + (g.1 + r) * (16 * o.rs.toNat)))
      (matB o.fmt o.sp o.k.toNat (m.rdW s) g.2.boff).1 g.1

theorem MatCtx.mmagElems_length (m : MatCtx) (s : State) (o : Mma) :
    (m.mmagElems s o).length = ((m.groups s).map (·.rows)).sum * 64 := by
  have hg (g : Nat × MatGroup) : (m.i.product o
      ((List.range g.2.rows).map fun r => matRow o.fmt o.k.toNat (m.rdA s) (m.o.ea + (g.1 + r) * (16 * o.rs.toNat)))
      (matB o.fmt o.sp o.k.toNat (m.rdW s) g.2.boff).1 g.1).length = g.2.rows * 64 := by
    simp [Inst.product_eq _ _ _ _ _ (matB_length ..)]
  rw [MatCtx.mmagElems, List.length_flatMap, ← groupStarts_rows 0]
  simp only [hg, List.sum_map_mul_right]

/-- R294: an mmag that commits has a table of at most 64 groups and 64 rows; it writes its elements and its row
mask, and leaves memory. -/
theorem MatCtx.mmag_ok {m : MatCtx} {s s1 : State} {o : Mma} {i1 : Inst} (e : m.mmag s o = (s1, .ok i1)) :
    leAt (m.rdA s) m.o.eb 4 ≤ 64 ∧ ((m.groups s).map (·.rows)).sum ≤ 64 ∧ s1.mem = s.mem ∧
      i1.acc = (m.i.putAcc (o.fmt == .f64) o.d.toNat 0 ((m.mmagElems s o).map (·.1))).acc ∧ i1.carry = m.i.carry ∧
      i1.rowmask = (groupStarts 0 (m.groups s)).foldl (fun x g => x ||| (1#64) <<< g.1) 0 := by
  unfold MatCtx.mmag at e
  obtain ⟨-, e⟩ := check_passed e
  obtain ⟨hng, e⟩ := check_passed (orStop_ready e)
  obtain ⟨-, e⟩ := check_passed e
  obtain ⟨htotal, e⟩ := check_passed (orStop_ready e)
  split at e
  · cases e
  · obtain ⟨-, e⟩ := check_passed e
    cases orStop_ready e
    exact ⟨by omega, by omega, rfl, rfl, by simp, rfl⟩

/-- The commit of an oldest operation that nothing stops and that writes one accumulator. -/
theorem Oldest.commits_written {s : State} {core : Nat} {m : MatCtx} {f64 : Bool} {d : Nat} {v : Nat → Nat} {fl : Flags}
    (ho : Oldest s core m) (hx : ∀ ty rnd sat d q, m.o.op ≠ .mdrainx ty rnd sat d q)
    (hw : ∃ i1, m.commit s = (s, .ok i1) ∧ AccWritten m.i i1 f64 d v fl) :
    ∃ i1, Commits s s core m i1 ∧ AccWritten m.i i1 f64 d v fl := by
  obtain ⟨i1, hc, hw⟩ := hw
  exact ⟨i1, ho.commits hx hc rfl, hw⟩

/-- Settles O35: each commit writes the elements that its lemma above names, and a commit leaves memory alone. -/
theorem matrixProductsCommit : Obligations.MatrixProductsCommit := by
  unfold Obligations.MatrixProductsCommit
  intro s core m ho
  refine ⟨fun o hop => ?_, fun d hop => ?_, fun ty d xa rs hop => ?_, fun ty d xa hop => ?_, fun o s1 i1 hop e => ?_⟩
  · intro f64 k b v hr
    obtain ⟨i1, hc, hw⟩ := ho.commits_written (by simp [hop]) (MatCtx.mma_writes hop hr)
    exact ⟨i1, hc, hw.others, hw.carry, hw.flags, hw.elements⟩
  · obtain ⟨i1, hc, hw⟩ := ho.commits_written (by simp [hop]) (MatCtx.mzero_writes hop)
    exact ⟨i1, hc.1, hc, hw.others, hw.carry, by simpa using hw.flags, hw.elements⟩
  · intro f64 hr
    obtain ⟨i1, hc, hw⟩ := ho.commits_written (by simp [hop]) (MatCtx.mload_writes hop hr)
    exact ⟨i1, hc, hw.others, hw.carry, by simpa using hw.flags, hw.elements⟩
  · intro f64 v hr
    obtain ⟨i1, hc, hw⟩ := ho.commits_written (by simp [hop]) (MatCtx.mrsc_writes hop hr)
    exact ⟨i1, hc, hw.others, hw.carry, hw.flags, hw.elements⟩
  · obtain ⟨hng, htotal, hm, hacc, hcarry, hmask⟩ := MatCtx.mmag_ok e
    have hcommit : m.commit s = (s1, .ok i1) := by rw [MatCtx.commit, hop]; exact e
    have hlen : ((m.mmagElems s o).map (·.1)).length ≤ 4096 := by
      rw [List.length_map, MatCtx.mmagElems_length]
      omega
    refine ⟨ho.commits (by simp [hop]) hcommit hm, fun k hk => ?_, hcarry, hng, htotal, hmask⟩
    rw [hacc, otherAcc_putAcc m.i _ _ hlen k hk]

end Sys2Proof.Machine

/-! Writes of %mode and %flags, and the instructions that write a predicate. -/
namespace Sys2Proof.Machine

/-- R68: the mode register and Z of the executing fragment are written together. -/
theorem Body.writeMode {h : Here} {x : Writes} {w : Wave} (b : Body h x w) (hm : x.mode = true) (hz : x.z = true)
    {f : Fragment} (hf : w.frag h.side = some f) (mode z : W32) :
    Body h x (({ w with mode }).setFrag h.side (some { f with z })) := by
  obtain ⟨f', hf', hpc, hfetch, howned, hrecon, -, hmask⟩ := b.fragment
  obtain rfl : f' = f := Option.some.inj (hf'.symm.trans hf)
  refine ⟨fun r l hl ho => ?_, fun r h60 hr => ?_, fun r l hl ho => ?_, fun a => ?_, fun a => ?_, ?_, ?_, ?_, ?_⟩
  · rw [← b.vector r l hl ho]; cases h.side <;> rfl
  · rw [← b.scalar r h60 hr]; cases h.side <;> rfl
  · rw [← b.predicate r l hl ho]; cases h.side <;> rfl
  · rw [← b.flags a]; cases h.side <;> rfl
  · simp [hm] at a
  · rw [← b.other]; cases h.side <;> rfl
  · exact ⟨_, Wave.frag_setFrag_same .., hpc, hfetch, howned, hrecon, fun a => by simp [hz] at a, hmask⟩
  · refine Eq.trans ?_ b.rest; cases h.side <;> rfl
  · rw [← b.words]; cases h.side <;> rfl

/-- R69: the sticky flags are written. -/
theorem Body.writeFlags {h : Here} {x : Writes} {w : Wave} (b : Body h x w) (hx : x.flags = true) (flags : Flags) :
    Body h x { w with flags } :=
  ⟨b.vector, b.scalar, b.predicate, fun a => by simp [hx] at a, b.mode, b.other, b.fragment, b.rest, b.words⟩

theorem execSwrMode_eq (a : BitVec 6) (s : State) : exec (.swrMode a) s = execSwrMode a s := rfl

theorem execSwrFlags_eq (a : BitVec 6) (s : State) : exec (.swrFlags a) s = execSwrFlags a s := rfl

/-- R68: an accepted value of %mode. -/
theorem Clear.swrMode {s : State} {h : Here} {rs : List Nat} (c : Clear s h rs) {a : BitVec 6} (ok : modeOk (h.s a) = true) :
    Completes (.swrMode a) s h { mode := true, z := true } fun w =>
      w.mode = (h.s a).setWidth 32 ∧ (w.frag h.side).map (·.z) = some ((h.s a).extractLsb' 32 32) := by
  obtain ⟨-, -, hf, -⟩ := here_spec c.here
  have hb := (Body.refl c { mode := true, z := true }).writeMode rfl rfl hf ((h.s a).setWidth 32) ((h.s a).extractLsb' 32 32)
  refine hb.completes (fun w => ({ w with mode := (h.s a).setWidth 32 }).setFrag h.side
    (some { h.f with z := (h.s a).extractLsb' 32 32 })) ?_ fun f hg => ⟨by simp, ?_⟩
  · rw [execSwrMode_eq, execSwrMode]
    refine c.onWave_ok _ _ _ (by simp) (.inl rfl) ?_
    simp only [ok, if_true]
    rfl
  · rw [Wave.frag_setFrag_same] at hg ⊢
    cases hg
    rfl

/-- R69: a value of %flags without a bit above the flags. -/
theorem Clear.swrFlags {s : State} {h : Here} {rs : List Nat} (c : Clear s h rs) {a : BitVec 6} (ok : bits (h.s a) 7 57 = 0) :
    Completes (.swrFlags a) s h { flags := true } fun w => w.flags = (h.s a).setWidth 7 := by
  refine ((Body.refl c { flags := true }).writeFlags rfl ((h.s a).setWidth 7)).completes
    (fun w => { w with flags := (h.s a).setWidth 7 }) ?_ fun _ _ => by simp
  rw [execSwrFlags_eq, execSwrFlags]
  refine c.onWave_ok _ _ _ (by simp) (.inl rfl) ?_
  simp only [ok, if_true]
  rfl

/-- Settles O4: a value that is accepted completes; one that is refused is a trap with ILL. -/
theorem modeAndFlagWrites : Obligations.ModeAndFlagWrites := by
  unfold Obligations.ModeAndFlagWrites
  intro s h a c
  refine ⟨c.swrMode, c.swrFlags, fun bad hw => ?_, fun bad hw => ?_⟩
  · rw [execSwrMode_eq, execSwrMode]
    refine c.onWave_trap _ _ _ (by simp) (.inl rfl) hw ?_
    simp only [bad, Bool.false_eq_true, if_false]
    rfl
  · rw [execSwrFlags_eq, execSwrFlags]
    refine c.onWave_trap _ _ _ (by simp) (.inl rfl) hw ?_
    simp only [bad, if_false]
    rfl

/-- A meaning that tests each participating lane writes the outcomes to its predicate and nothing else. -/
theorem Clear.setLanes {s : State} {h : Here} {rs : List Nat} (c : Clear s h rs) {i : Instr} {g : Guard} {u : Uses}
    {k : Here → Except Abort State} (e : exec i s = onWave g u s k) (hu : ∀ r ∈ u.vr ++ u.nm ++ u.vw, r ∈ rs)
    (hi : u.indexed = false) {m : Lanes} {d : BitVec 4} {v : Nat → Bool} (hk : k h = h.setLanes s m d v) :
    PredicateResult i s h m d v :=
  c.predicateResult (e.trans (c.onWave_ok g u k hu (.inl hi) hk))

/-- A meaning that writes one scalar and nothing else. -/
theorem Clear.setScalar {s : State} {h : Here} {rs : List Nat} (c : Clear s h rs) {i : Instr} {g : Guard} {u : Uses}
    {k : Here → Except Abort State} (e : exec i s = onWave g u s k) (hu : ∀ r ∈ u.vr ++ u.nm ++ u.vw, r ∈ rs)
    (hi : u.indexed = false) {d : BitVec 6} {v : W64} (hk : k h = h.ok s fun w => w.writeS h.side d.toNat v) :
    ScalarResult i s h d v :=
  c.scalarResult (e.trans (c.onWave_ok g u k hu (.inl hi) hk))

/-- R172: fcmp writes its predicate and raises the invalid exceptions of its lanes; Z stays. -/
theorem Clear.fcmp {s : State} {h : Here} {o : FCmp} (c : Clear s h (regsOf o.ty o.a.toNat ++ o.b.vregs o.ty)) :
    let out (l : Nat) := cmpF o.cc (h.fltV o.ty o.a l 0) (h.fltB o.ty o.b l 0)
    Trapping (.fcmp o) s h (h.part o.g) (fun l => (out l).2)
      (Completes (.fcmp o) s h { p := if o.d.toNat = 15 then [] else [o.d.toNat], m := h.part o.g, flags := true } fun w =>
        (o.d.toNat ≠ 15 → ∀ l, l < 96 → (h.part o.g).getLsbD l = true → (w.readP o.d.toNat).getLsbD l = (out l).1) ∧
        w.flags = h.w.flags ||| orFlags ((lanesOf (h.part o.g)).map fun l => (out l).2)) := by
  intro out
  have e : exec (.fcmp o) s = execFcmp o s := rfl
  refine c.trapping e (by simp) (.inl rfl) rfl fun e' => ?_
  have hd : o.d.toNat ∈ (if o.d.toNat = 15 then [] else [o.d.toNat]) ∨ o.d.toNat = 15 := by
    by_cases h15 : o.d.toNat = 15
    · exact .inr h15
    · simp [h15]
  refine (((Body.refl c _).raised _ h.f.z rfl (.inr rfl)).writeP o.d.toNat (h.part o.g)
    (lanesMask ((lanesOf (h.part o.g)).filter fun l => (out l).1)) hd fun _ _ a => a).completes
    (fun w => (w.raised h.side (orFlags ((lanesOf (h.part o.g)).map fun l => (out l).2)) h.f.z).writeP o.d.toNat
      (h.part o.g) (lanesMask ((lanesOf (h.part o.g)).filter fun l => (out l).1))) e' fun _ _ => ⟨fun h15 l hl hm => ?_, ?_⟩
  · rw [Wave.readP_setFrag, Wave.writeP_bit _ _ _ _ _ h15 hl hm]
  · rw [Wave.setFrag_flags, Wave.writeP_flags, raised_flags c.here]

/-- Settles O9: each meaning writes its predicate, or its scalar, and nothing else; fcmp may trap. -/
theorem predicateResults : Obligations.PredicateResults := by
  unfold Obligations.PredicateResults
  refine ⟨fun g cc ty d a b s h _ c => ?_, fun o s h _ c => c.fcmp, fun s h c => ⟨?_, ?_, ?_, ?_, ?_⟩⟩
  · have e : exec (.vcmp g cc ty d a b) s = execVcmp g cc ty d a b s := rfl
    exact c.setLanes e (by simp) rfl rfl
  · intro g d a b t
    have e : exec (.plop g d a b t) s = execPlop g d a b t s := rfl
    exact c.setLanes e (by simp) rfl rfl
  · intro g d a
    have e : exec (.pfirst g d a) s = execPfirst g d a s := rfl
    exact c.setLanes e (by simp) rfl rfl
  · intro g d a b
    have e : exec (.pfrom g d a b) s = execPfrom g d a b s := rfl
    exact c.setLanes e (by simp) rfl rfl
  · intro g d a
    have e : exec (.ppopc g d a) s = execPpopc g d a s := rfl
    exact c.setScalar e (by simp) rfl rfl
  · intro g d a b
    have e : exec (.pballot g d a b) s = execPballot g d a b s := rfl
    exact c.setScalar e (by simp) rfl rfl

end Sys2Proof.Machine

/-! Launches at their dispatcher: what each event does, and what rolling back or killing a launch leaves in the table of launches. -/
namespace Sys2Proof.Machine

@[simp] theorem Table.get?_modify_same {α : Type} (t : Table α) (k : Nat) (f : α → α) :
    (t.modify k f).get? k = (t.get? k).map f := by
  unfold Table.modify
  split
  · rename_i x e
    rw [Table.get?_put_same, e, Option.map_some]
  · rename_i e
    rw [e, Option.map_none]

theorem launch_of_get? {s : State} {k : Nat} {l : Launch} (e : s.launches.get? k = some l) : s.launch k = l := by
  rw [State.launch, e, Option.getD_some]

theorem setLaunch_get? {s : State} {k : Nat} {l : Launch} (e : s.launches.get? k = some l) (f : Launch → Launch) :
    (s.setLaunch k f).launches.get? k = some (f l) := by
  rw [State.setLaunch, Table.get?_modify_same, e, Option.map_some]

theorem launch_setLaunch {s : State} {k : Nat} {l : Launch} (e : s.launches.get? k = some l) (f : Launch → Launch) :
    (s.setLaunch k f).launch k = f l := launch_of_get? (setLaunch_get? e f)

/-! R397: the dispatcher's choice. -/

theorem firstServed_none {s : State} : ∀ {cs : List Cand}, (∀ c ∈ cs, s.serveCand c = none) → s.firstServed cs = .next s
  | [], _ => rfl
  | c :: cs, h => by
    rw [State.firstServed, h c (List.mem_cons_self ..)]
    exact firstServed_none fun x hx => h x (List.mem_cons_of_mem _ hx)

theorem firstServed_first {s : State} {c : Cand} {r : Host.Outcome State Fault Refusal} (b : List Cand)
    (hc : s.serveCand c = some r) : ∀ {a : List Cand}, (∀ x ∈ a, s.serveCand x = none) → s.firstServed (a ++ c :: b) = r
  | [], _ => by rw [List.nil_append, State.firstServed, hc]
  | x :: a, h => by
    rw [List.cons_append, State.firstServed, h x (List.mem_cons_self ..)]
    exact firstServed_first b hc fun y hy => h y (List.mem_cons_of_mem _ hy)

/-! R368, R369: one try of a chosen launch. -/

theorem exec_launchDispatch {s : State} {k : Nat} {l : Launch} (e : s.launches.get? k = some l) :
    exec (.launchDispatch k) s = if (l.st = .ready ∨ l.st = .dispatching) ∧ l.parked = false ∧ s.running l.ctx = true
      then s.tryDispatch k else .next s := by
  show execLaunchDispatch k s = _
  simp [execLaunchDispatch, e]

/-- R436: a fault task protects nothing and writes no journal entry, so it starts at once. -/
theorem startLaunch_task_running {s : State} {k : Nat} {l : Launch} (e : s.launches.get? k = some l) (ht : l.task.isSome = true)
    (c : Checked) : ((s.startLaunch k c []).launch k).st = .running := by
  simp only [State.startLaunch, List.foldl_nil, if_true, State.journalOf, launch_setLaunch e, ht]

section TryDispatch
variable (s : State) (k : Nat)

/-- The state in which a chosen launch is checked. -/
def State.dispatching : State := s.setLaunch k fun l => { l with st := .dispatching }

theorem tryDispatch_task (ht : ((s.dispatching k).launch k).task.isSome = true) :
    s.tryDispatch k = .next ((s.dispatching k).startLaunch k { wins := [], groups := [], wset := [], pages := [] } []) :=
  if_pos ht

variable {s k} (ht : ((s.dispatching k).launch k).task = none)
include ht

theorem tryDispatch_bad {s1 : State} {n : Nat} {c : W64} {off fa : Nat}
    (hc : (s.dispatching k).dispatchChecks k = (s1, .error (n, .bad c off fa))) :
    s.tryDispatch k = .next (s1.parkLaunch k c n off fa) := by
  unfold State.dispatching at ht hc
  simp only [State.tryDispatch, ht, hc, Option.isSome_none, Bool.false_eq_true, if_false]

theorem tryDispatch_wait {s1 : State} {n : Nat} (hc : (s.dispatching k).dispatchChecks k = (s1, .error (n, .wait))) :
    s.tryDispatch k = .next s1 := by
  unfold State.dispatching at ht hc
  simp only [State.tryDispatch, ht, hc, Option.isSome_none, Bool.false_eq_true, if_false]

theorem tryDispatch_taken {s1 : State} {c : Checked} (hc : (s.dispatching k).dispatchChecks k = (s1, .ok c))
    (hp : s1.pagesTaken k ((s.dispatching k).launch k) c.pages = true) : s.tryDispatch k = .next s1 := by
  unfold State.dispatching at ht hc hp
  simp only [State.tryDispatch, ht, hc, hp, Option.isSome_none, Bool.false_eq_true, if_false, if_true]

/-- R371: a launch whose checks pass and whose pages no other launch protects starts when every new page gets a shadow. -/
theorem tryDispatch_free {s1 : State} {c : Checked} (hc : (s.dispatching k).dispatchChecks k = (s1, .ok c))
    (hp : s1.pagesTaken k ((s.dispatching k).launch k) c.pages = false) :
    let l0 := (s.dispatching k).launch k
    let kept := l0.keptShadows c.pages
    let used := ((s1.launches.filter fun y => y.1 != k && y.2.ctx == l0.ctx).flatMap fun y => y.2.shadows) ++ kept
    let new := shadowsFor (s1.ctx l0.ctx).shpool (s1.ctx l0.ctx).shlen (used.map fun h => (h.shadow, h.size))
      (c.pages.filter fun p => !kept.any fun h => h.isFor p)
    (new = none → s.tryDispatch k = .next s1) ∧
      ∀ sh, new = some sh → s.tryDispatch k = .next (s1.startLaunch k c (kept ++ sh)) := by
  intro l0 kept used new
  unfold State.dispatching at ht hc hp
  have e : s.tryDispatch k = match new with
      | none => .next s1
      | some sh => .next (s1.startLaunch k c (kept ++ sh)) := by
    simp only [State.tryDispatch, ht, hc, hp, Option.isSome_none, Bool.false_eq_true, if_false]
    rfl
  exact ⟨fun h => by rw [e, h], fun sh h => by rw [e, h]⟩

end TryDispatch

/-! R370: the placement of a crew. -/

/-- A crew of the launch `k` of `s` and its waves, made in `s'`; `s` names the crew and gives its place in the launch. -/
def State.makeCrew (s : State) (k : Nat) (p : Place) (s' : State) : Option State :=
  let l := s.launch k
  let groups : Table Group := (l.groups.zipIdx.filter fun (x : BitVec 64 × Nat) => x.1 != 0).map
    fun (x : BitVec 64 × Nat) => (x.2, Group.start x.1)
  let c : Crew := { launch := k, idx := l.placed, clus := p.clus, unit := p.unit, nunits := l.units, groups }
  let s1 := (List.range l.units).foldl (fun s u => s.reclaim p.clus (p.unit + u)) s'
  ({ s1 with crews := s1.crews.put s.crews.nextKey c } : State).populate s.crews.nextKey l p

/-- What follows the making of a crew. -/
def State.crewPlaced (s : State) (k : Nat) (p : Place) : State :=
  ((s.freshCores p).setLaunch k fun l => { l with placed := l.placed + 1 }).startTask k

/-- The launch may have its next crew placed there. -/
def State.placeable (s : State) (k : Nat) (p : Place) : Prop :=
  let l := s.launch k
  l.st = .running ∧ l.parked = false ∧ l.placed < l.crewsN ∧ s.running l.ctx = true ∧ s.fits l p = true

/-- The check of placeCrew, as a condition that holds back the placement. -/
theorem placeable_iff {s : State} {k : Nat} {p : Place} : s.placeable k p ↔
    ¬ ((s.launch k).st ≠ .running ∨ (s.launch k).parked = true ∨ (s.launch k).crewsN ≤ (s.launch k).placed ∨
      (!s.running (s.launch k).ctx) = true ∨ (!s.fits (s.launch k) p) = true) := by
  simp [State.placeable, not_or]

theorem placeCrew_not {s0 : State} {k : Nat} {p : Place} (h : ¬ (s0.tidyCluster p.clus).placeable k p) :
    s0.placeCrew k p = .next s0 := by
  rw [placeable_iff, not_not] at h
  unfold State.placeCrew
  dsimp only
  rw [if_pos h]

theorem placeCrew_go {s0 : State} {k : Nat} {p : Place} (h : (s0.tidyCluster p.clus).placeable k p) :
    s0.placeCrew k p =
      let s := s0.tidyCluster p.clus
      if (s.makeCrew k p s).isNone then .next s0
      else s.writeBase k p fun s1 => match s.makeCrew k p s1 with
        | none => .next s1
        | some s2 => .next (s2.crewPlaced k p) := by
  rw [placeable_iff] at h
  unfold State.placeCrew
  dsimp only
  rw [if_neg h]
  rfl

theorem writeBase_none {s : State} {k : Nat} {p : Place} {f : State → Host.Outcome State Fault Refusal}
    (h : (s.launch k).pk 0x60 8 = 0) : s.writeBase k p f = f s := if_pos h

theorem writeBase_ok {s s1 : State} {k pa : Nat} {p : Place} {f : State → Host.Outcome State Fault Refusal}
    (h : (s.launch k).pk 0x60 8 ≠ 0)
    (ha : s.dispAccess (s.launch k).die (s.launch k).ctx ((s.launch k).pk 0x60 8 + 4 * (s.launch k).placed) .write = (s1, .ok pa))
    (hb : (s.launch k).cbaseBad (s1.queue (s.launch k).ctx (s.launch k).q) = false) :
    s.writeBase k p f = f ((s1.putBytes pa (leBytes 4 (65536 * p.unit))).noteWrite (some k) pa 4) := by
  simp only [State.writeBase, h, ha, hb, Bool.false_eq_true, if_false]

theorem placeCrew_noRoom {s0 : State} {k : Nat} {p : Place} (h : (s0.tidyCluster p.clus).placeable k p)
    (hm : (s0.tidyCluster p.clus).makeCrew k p (s0.tidyCluster p.clus) = none) : s0.placeCrew k p = .next s0 := by
  rw [placeCrew_go h]
  exact if_pos (Option.isNone_iff_eq_none.mpr hm)

/-- The crew is made in the state `s1` that the write of its base leaves. -/
theorem placeCrew_placed {s0 s1 s2 : State} {k : Nat} {p : Place} (h : (s0.tidyCluster p.clus).placeable k p)
    (hm : (s0.tidyCluster p.clus).makeCrew k p (s0.tidyCluster p.clus) ≠ none)
    (hb : ∀ f, (s0.tidyCluster p.clus).writeBase k p f = f s1)
    (hs : (s0.tidyCluster p.clus).makeCrew k p s1 = some s2) : s0.placeCrew k p = .next (s2.crewPlaced k p) := by
  rw [placeCrew_go h]
  refine (if_neg fun hn => hm (Option.isNone_iff_eq_none.mp hn)).trans ?_
  rw [hb, hs]

theorem allocPark_only {s s1 : State} {c len al a : Nat} (e : s.allocPark c len al = some (s1, a)) :
    s1 = { s with ctxs := s1.ctxs } := by
  unfold State.allocPark at e
  split at e
  · cases e
    rfl
  · cases e

/-- R56, R382: a new wave is loaded on its core and starts at the entry with every lane active. -/
theorem newWave_loaded {s t : State} {ck core wid : Nat} {l : Launch} (e : s.newWave ck l core wid = some t) :
    ∃ (s1 : State) (w : Wave), t = s1.drawn.putWave s1.waves.nextKey w ∧ s1 = { s with ctxs := s1.ctxs } ∧
      w.fa = some { id := s.draw, pc := BitVec.ofNat 56 l.entry, owned := BitVec.allOnes 96, mask := BitVec.allOnes 96 } ∧
      w.fb = none ∧ w.status = .resident ∧ w.crew = ck ∧ w.wid = wid ∧ w.core = core ∧ w.gran = l.granN ∧
      w.budget = l.budget ∧ w.s = l.scalars ∧ w.v = [] ∧ w.p = [] := by
  unfold State.newWave at e
  split at e
  · cases e
  · rename_i s1 a ha
    have hs1 := allocPark_only ha
    have hdraw : s1.draw = s.draw := by rw [hs1]
    cases e
    exact ⟨s1, _, rfl, hs1, by rw [hdraw], rfl, rfl, rfl, rfl, rfl, rfl, rfl, rfl, rfl, rfl⟩

/-! R373: the end of a launch whose work is gone. -/

theorem exec_launchComplete {s : State} {k : Nat} {l : Launch} (e : s.launches.get? k = some l) :
    exec (.launchComplete k) s = if (l.st = .draining ∨ l.st = .failed ∨ l.st = .killed) ∧ l.done = false ∧ l.parked = false ∧
      l.marker = false ∧ s.launchIdle k = true then s.completeLaunch k else .next s := by
  show execLaunchComplete k s = _
  simp [execLaunchComplete, e]

theorem dispWrite_ok {s s1 : State} {die ctx va pa : Nat} (v : W64) (who : Option Nat)
    (e : s.dispAccess die ctx va .write = (s1, .ok pa)) :
    s.dispWrite die ctx va v who = ((s1.put64 pa v).noteWrite who pa 8, .ok pa) := by
  rw [State.dispWrite, e]

theorem completeLaunch_noWord {s : State} {k : Nat}
    (h : ¬ ((((s.releaseShadows k).launch k).compAddr ≠ 0 ∧ ((s.releaseShadows k).launch k).noWord = false ∧
      ((s.releaseShadows k).launch k).task = none))) : s.completeLaunch k = .next ((s.releaseShadows k).endLaunch k) := by
  refine if_pos ?_
  simpa only [not_and_or, not_not, Bool.not_eq_false, ← Option.not_isSome_iff_eq_none] using h

theorem completeLaunch_word {s s2 : State} {k pa : Nat}
    (h : ((s.releaseShadows k).launch k).compAddr ≠ 0 ∧ ((s.releaseShadows k).launch k).noWord = false ∧
      ((s.releaseShadows k).launch k).task = none)
    (ha : (s.releaseShadows k).dispAccess ((s.releaseShadows k).launch k).die ((s.releaseShadows k).launch k).ctx
      ((s.releaseShadows k).launch k).compAddr .write = (s2, .ok pa)) :
    s.completeLaunch k = .next (((s2.put64 pa (if ((s.releaseShadows k).launch k).st = .draining
        then ((s.releaseShadows k).launch k).compVal else ((s.releaseShadows k).launch k).compVal ^^^ 0x8000000000000000)).noteWrite
      (some k) pa 8).endLaunch k) := by
  obtain ⟨haddr, hword, htask⟩ := h
  refine (if_neg ?_).trans ?_
  · simp [haddr, hword, htask]
  · rw [dispWrite_ok _ _ ha]

/-! R395: deadlines. -/

theorem exec_deadlineMiss {s : State} {k : Nat} {l : Launch} (e : s.launches.get? k = some l) :
    exec (.deadlineMiss k) s =
      .next (if l.done = false ∧ l.marker = false ∧ l.deadline ≠ 0 ∧ l.deadline < s.clk ∧ l.missed = false
        then (s.setLaunch k fun l => { l with missed := true }).count 9 else s) := by
  have hexec : exec (.deadlineMiss k) s = .next (s.missDeadline k) := by
    show execDeadlineMiss k s = _
    rw [execDeadlineMiss, e]
  rw [hexec, State.missDeadline, launch_of_get? e]
  congr 1
  refine if_congr ?_ rfl rfl
  simp only [Bool.not_eq_true']
  tauto

/-! Which launches stand in the table: memory and its caches do not touch it. -/

theorem foldl_launches {α : Type} {f : State → α → State} (hf : ∀ s x, (f s x).launches = s.launches) :
    ∀ (l : List α) (s : State), (l.foldl f s).launches = s.launches
  | [], _ => rfl
  | x :: l, s => (foldl_launches hf l (f s x)).trans (hf s x)

@[simp] theorem State.recoverLine_launches (s : State) (l : Nat) : (s.recoverLine l).launches = s.launches := by
  unfold State.recoverLine
  split <;> rfl

@[simp] theorem State.probe_launches (s : State) (l : Nat) (ts : List Nat) : (s.probe l ts).1.launches = s.launches :=
  foldl_launches (f := fun s d => s.probeDrop l d) (fun _ _ => rfl) _ s

@[simp] theorem State.recall_launches (s : State) (l : Nat) : (s.recall l).launches = s.launches := by
  unfold State.recall
  dsimp only
  split
  · exact State.recoverLine_launches s l
  · exact (State.probe_launches ..).trans (State.recoverLine_launches s l)

@[simp] theorem State.doGetM_launches (s : State) (d l : Nat) : (s.doGetM d l).launches = s.launches := by
  unfold State.doGetM
  dsimp only
  split
  · split
    · exact State.recoverLine_launches s l
    · exact (State.probe_launches ..).trans (State.recoverLine_launches s l)
  · split <;> exact (State.probe_launches ..).trans (State.recoverLine_launches s l)

@[simp] theorem State.homeWrite_launches (s : State) (pa n : Nat) (f : Nat → Byte) (k : Option (Nat × Nat)) :
    (s.homeWrite pa n f k).launches = s.launches :=
  foldl_launches (fun s l => s.recall_launches l) (linesOf pa n) s

@[simp] theorem State.putBytes_launches (s : State) (pa : Nat) (l : List Byte) : (s.putBytes pa l).launches = s.launches :=
  s.homeWrite_launches ..

@[simp] theorem State.put64_launches (s : State) (pa : Nat) (v : W64) : (s.put64 pa v).launches = s.launches :=
  s.putBytes_launches ..

@[simp] theorem State.coreWrite_launches (s : State) (core pa n : Nat) (f : Nat → Byte) :
    (s.coreWrite core pa n f).launches = s.launches := by
  refine foldl_launches (fun s l => ?_) (linesOf pa n) s
  dsimp only
  split
  · exact s.homeWrite_launches ..
  · exact s.doGetM_launches ..

@[simp] theorem State.countFrame_launches (s : State) (pa : Nat) : (s.countFrame pa).launches = s.launches := by
  unfold State.countFrame
  split
  · rfl
  · dsimp only
    split <;> rfl

@[simp] theorem State.setLeaf_launches (s : State) (ctx va st : Nat) : (s.setLeaf ctx va st).launches = s.launches := by
  unfold State.setLeaf
  split
  · exact s.put64_launches ..
  · rfl

@[simp] theorem State.copyFrame_launches (s : State) (src dst n : Nat) : (s.copyFrame src dst n).launches = s.launches :=
  (foldl_launches (fun s _ => s.countFrame_launches _) _ _).trans
    (s.homeWrite_launches dst n (fun a => s.readAt (src + (a - dst))) none)

@[simp] theorem State.journalOf_launches (s : State) (l : Launch) (ty : Nat) (killed : Bool) :
    (s.journalOf l ty killed).launches = s.launches := by
  unfold State.journalOf State.journal
  split
  · rfl
  · split
    · rfl
    · exact s.putBytes_launches ..

/-! R372: a launch that is rolled back. -/

theorem exec_launchReplay (s : State) (k : Nat) : exec (.launchReplay k) s = execLaunchReplay k s := rfl

theorem launchReplay_other {s : State} {k : Nat} {l : Launch} (e : s.launches.get? k = some l) (h : l.st ≠ .replaying) :
    exec (.launchReplay k) s = .next s := by
  rw [exec_launchReplay, execLaunchReplay, e]
  exact if_pos h

/-- R367: a launch into whose pages another agent has written is not replayed. -/
theorem launchReplay_fails {s : State} {k : Nat} {l : Launch} (e : s.launches.get? k = some l) (h : l.st = .replaying)
    (hr : l.nonReplay = true) : exec (.launchReplay k) s = .next (s.setLaunch k fun l => { l with st := .failed }) := by
  rw [exec_launchReplay, execLaunchReplay, e]
  simp only [h, hr, ne_eq, not_true_eq_false, if_false, if_true]

/-- R372: the pages are copied back; the launch keeps its place and dispatches again. -/
theorem launchReplay_dispatches {s : State} {k : Nat} {l : Launch} (e : s.launches.get? k = some l) (hst : l.st = .replaying)
    (hr : l.nonReplay = false) : ∃ t, exec (.launchReplay k) s = .next t ∧ (t.launch k).st = .dispatching ∧
      (t.launch k).replayed = true ∧ ∀ h ∈ (t.launch k).shadows, h.copied = false := by
  rw [exec_launchReplay, execLaunchReplay, e]
  simp only [hst, hr, ne_eq, not_true_eq_false, if_false, Bool.false_eq_true]
  refine ⟨_, rfl, ?_⟩
  have hback (l1 : List Shadow) (s : State) : (l1.foldl (fun s h =>
      (s.copyFrame h.shadow h.frame h.size).setLeaf l.ctx h.va 1) s).launches = s.launches :=
    foldl_launches (fun s h => by rw [State.setLeaf_launches, State.copyFrame_launches]) l1 s
  rw [launch_setLaunch (by rw [State.journalOf_launches]; exact setLaunch_get? (by rw [hback]; exact e) _)]
  simp

/-! The launches that stand in the table while work is stopped. -/

/-- A launch that stands in the table of `s` stands in that of `t`. -/
structure LaunchesStay (s t : State) : Prop where
  stands : ∀ k, (s.launches.get? k).isSome = true → (t.launches.get? k).isSome = true

theorem LaunchesStay.of_eq {s t : State} (e : t.launches = s.launches) : LaunchesStay s t := ⟨fun k h => by rwa [e]⟩

theorem LaunchesStay.trans {s t u : State} (a : LaunchesStay s t) (b : LaunchesStay t u) : LaunchesStay s u :=
  ⟨fun k h => b.stands k (a.stands k h)⟩

theorem LaunchesStay.foldl {α : Type} {f : State → α → State} (hf : ∀ s x, LaunchesStay s (f s x)) :
    ∀ (l : List α) (s : State), LaunchesStay s (l.foldl f s)
  | [], _ => .of_eq rfl
  | x :: l, s => (hf s x).trans (foldl hf l (f s x))

theorem Table.isSome_get?_map {α : Type} {g : Nat × α → Nat × α} (hg : ∀ x, (g x).1 = x.1) (k : Nat) :
    ∀ t : Table α, (Table.get? (t.map g) k).isSome = (t.get? k).isSome
  | [] => rfl
  | (a, v) :: t => by
    have ha : (g (a, v)).1 = a := hg (a, v)
    rw [List.map_cons, Table.get?, Table.get?, ha]
    split
    · rfl
    · exact isSome_get?_map hg k t

theorem LaunchesStay.of_map {s t : State} {g : Nat × Launch → Nat × Launch} (e : t.launches = s.launches.map g)
    (hg : ∀ x, (g x).1 = x.1) : LaunchesStay s t := ⟨fun k h => by rwa [e, Table.isSome_get?_map hg]⟩

theorem Table.isSome_get?_modify {α : Type} (t : Table α) (j k : Nat) (f : α → α) :
    ((t.modify j f).get? k).isSome = (t.get? k).isSome := by
  by_cases h : k = j
  · subst h
    rw [Table.get?_modify_same, Option.isSome_map]
  · unfold Table.modify
    split
    · rw [Table.get?_put_other _ _ _ _ h]
    · rfl

theorem LaunchesStay.setLaunch (s : State) (k : Nat) (f : Launch → Launch) : LaunchesStay s (s.setLaunch k f) :=
  ⟨fun j h => by rwa [State.setLaunch, Table.isSome_get?_modify]⟩

theorem LaunchesStay.noteWrite (s : State) (who : Option Nat) (pa n : Nat) : LaunchesStay s (s.noteWrite who pa n) :=
  .of_map rfl fun x => by dsimp only; split <;> rfl

theorem LaunchesStay.storePieces (core : Nat) (who : Option Nat) : ∀ (ps : List Piece) (bs : List Byte) (s : State),
    LaunchesStay s (s.storePieces core who ps bs)
  | [], _, _ => .of_eq rfl
  | _ :: ps, _, s => ((of_eq (s.coreWrite_launches ..)).trans (noteWrite ..)).trans (storePieces core who ps _ _)

theorem LaunchesStay.performed (s : State) (p : Post) : LaunchesStay s (s.performed p) :=
  (storePieces p.core p.who p.parts p.data s).trans (.of_eq rfl)

theorem LaunchesStay.settle (s : State) (p : Post → Bool) : LaunchesStay s (s.settle p) :=
  (LaunchesStay.of_eq (State.setMem_launches ..)).trans (foldl performed _ _)

theorem LaunchesStay.acquire (s : State) (core id crew : Nat) (sc : Scope) : LaunchesStay s (s.acquire core id crew sc) := by
  unfold State.acquire
  dsimp only
  split
  · exact .of_eq rfl
  · exact .of_eq rfl
  · exact ((LaunchesStay.of_eq (State.setMem_launches ..)).trans (settle ..)).trans (.of_eq (State.setCrew_launches ..))

theorem LaunchesStay.releaseScope (s : State) (ctx n : Nat) : LaunchesStay s (s.releaseScope ctx n) :=
  (LaunchesStay.of_map rfl fun x => by dsimp only; split <;> rfl).trans (foldl (fun s x => acquire ..) _ _)

theorem LaunchesStay.putScope (s : State) (ctx n count st parent : Nat) :
    LaunchesStay s (s.putScope ctx n count st parent) := .of_eq (s.putBytes_launches ..)

theorem LaunchesStay.unholdFrom (ctx : Nat) : ∀ (fuel : Nat) (s : State) (n : Nat),
    LaunchesStay s (State.unholdFrom ctx fuel s n)
  | 0, _, _ => .of_eq rfl
  | fuel + 1, s, n => by
    unfold State.unholdFrom
    dsimp only
    split
    · exact .of_eq rfl
    · split
      · exact ((putScope ..).trans (releaseScope ..)).trans (unholdFrom ctx fuel _ _)
      · exact putScope ..

theorem LaunchesStay.withdraw (s : State) (k : Option Nat) : LaunchesStay s (s.withdraw k) := by
  unfold State.withdraw
  split
  · exact setLaunch ..
  · exact .of_eq rfl

theorem LaunchesStay.closeRecord (s : State) (k : Nat) : LaunchesStay s (s.closeRecord k) := by
  unfold State.closeRecord
  split
  · rename_i r _
    have hrec : LaunchesStay s { (s.setRecState k 2) with records := s.records.erase k } := .of_eq (s.putBytes_launches ..)
    exact (hrec.trans (unholdFrom r.ctx 256 _ r.fs)).trans (withdraw ..)
  · exact .of_eq rfl

theorem LaunchesStay.groupRelease (s : State) (ck n : Nat) (g : Group) : LaunchesStay s (s.groupRelease ck n g) := by
  unfold State.groupRelease
  dsimp only
  refine LaunchesStay.trans ?_ (foldl (fun s x => foldl (fun s f => ?_) _ _) _ _)
  · exact .of_eq rfl
  · split
    · exact acquire ..
    · exact .of_eq rfl

theorem LaunchesStay.leaveGroups (s : State) (ck wid : Nat) : LaunchesStay s (s.leaveGroups ck wid) := by
  refine foldl (fun s x => ?_) _ _
  dsimp only
  split
  · exact .of_eq (State.setCrew_launches ..)
  · exact (LaunchesStay.of_eq (State.setCrew_launches ..)).trans (groupRelease ..)

theorem LaunchesStay.freePark (s : State) (ctx a : Nat) : LaunchesStay s (s.freePark ctx a) := .of_eq rfl

theorem LaunchesStay.freeWave (s : State) (k : Nat) : LaunchesStay s (s.freeWave k) := by
  unfold State.freeWave
  split
  · rename_i w _
    exact ((leaveGroups s w.crew w.wid).trans (freePark _ (s.ctxOf w) w.save)).trans (.of_eq rfl)
  · exact .of_eq rfl

theorem LaunchesStay.freeInst (s : State) (k : Nat) : LaunchesStay s (s.freeInst k) := by
  unfold State.freeInst
  split <;> exact .of_eq rfl

theorem LaunchesStay.tidyCluster (s : State) (clus : Nat) : LaunchesStay s (s.tidyCluster clus) := by
  refine foldl (fun s i => ?_) _ _
  dsimp only [State.tidyCore]
  split <;> exact .of_eq rfl

theorem LaunchesStay.dropCrew (s : State) (ck : Nat) : LaunchesStay s (s.dropCrew ck) := by
  unfold State.dropCrew
  split
  · refine LaunchesStay.trans ?_ (tidyCluster _ _)
    split <;> exact .of_eq rfl
  · exact .of_eq rfl

theorem LaunchesStay.withLink {s t : State} (h : LaunchesStay s t) (link : Link) : LaunchesStay s { t with link } :=
  h.trans (.of_eq rfl)

theorem LaunchesStay.withSamples {s t : State} (h : LaunchesStay s t) (samples : Table Sampled) :
    LaunchesStay s { t with samples } := h.trans (.of_eq rfl)

theorem LaunchesStay.withDetached {s t : State} (h : LaunchesStay s t) (detached : List Detached) :
    LaunchesStay s { t with detached } := h.trans (.of_eq rfl)

theorem LaunchesStay.eraseCopy (s : State) (k : Nat) : LaunchesStay s (s.eraseCopy k) := .of_eq rfl

/-- R372: stopping a launch's work takes no launch out of the table. -/
theorem LaunchesStay.stopLaunch (s : State) (k : Nat) : LaunchesStay s (s.stopLaunch k) := by
  unfold State.stopLaunch
  refine withSamples (trans ?_ (foldl dropCrew _ _)) _
  refine withLink (trans ?_ (foldl eraseCopy _ _)) _
  refine ((trans ?_ (foldl closeRecord _ _)).trans (foldl freeWave _ _)).trans (foldl freeInst _ _)
  exact (settle s _).withDetached _

/-! R375: a kill. -/

theorem exec_launchKill (s : State) (k : Nat) : exec (.launchKill k) s = .next (s.killLaunch k) := rfl

section Kill
variable {s : State} {k : Nat} {l : Launch} (e : s.launches.get? k = some l)
include e

theorem killLaunch_over (h : l.done = true ∨ l.st = .killed ∨ l.st = .complete ∨ l.st = .failed) : s.killLaunch k = s := by
  simp only [State.killLaunch, e, h, if_true]

variable (h : ¬ (l.done = true ∨ l.st = .killed ∨ l.st = .complete ∨ l.st = .failed))
include h

theorem killLaunch_marker (hm : l.marker = true) : s.killLaunch k = s.endMarker k true := by
  simp only [State.killLaunch, e, h, hm, if_true, if_false]

theorem killLaunch_killed (hm : l.marker = false) :
    ((s.killLaunch k).launch k).st = .killed ∧ ((s.killLaunch k).launch k).parked = false := by
  obtain ⟨l', e'⟩ := Option.isSome_iff_exists.mp (((LaunchesStay.stopLaunch s k).withDetached
    (s.detached.filter fun d => s.detLaunch d != some k)).stands k (by rw [e]; rfl))
  simp only [State.killLaunch, e, h, hm, if_false, Bool.false_eq_true]
  rw [launch_setLaunch e']
  exact ⟨rfl, rfl⟩

end Kill

theorem exec_crewPlacement (k clus unit : Nat) (cores : List Nat) (s : State) :
    exec (.crewPlacement k clus unit cores) s = s.placeCrew k ⟨clus, unit, cores⟩ := rfl

theorem exec_dispatcherChoice (die : Nat) (s : State) :
    exec (.dispatcherChoice die) s = s.firstServed (sortBy (s.candKey die) (s.candidates die)) := rfl

/-- Settles O54: each event is its case above; a kill and a replay use that the launch stays in the table. -/
theorem launchEvents : Obligations.LaunchEvents := by
  unfold Obligations.LaunchEvents
  refine ⟨?choice, ?dispatch, ?placement, fun s t ck l core wid => newWave_loaded, ?complete,
    fun k s l e => ⟨launchReplay_other e, launchReplay_fails e, launchReplay_dispatches e⟩, ?kill,
    fun k s l e => exec_deadlineMiss e⟩
  case choice =>
    intro die s cs
    rw [exec_dispatcherChoice]
    refine ⟨firstServed_none, fun a c b u hcs ha hc => ?_⟩
    rw [show sortBy (s.candKey die) (s.candidates die) = a ++ c :: b from hcs]
    exact firstServed_first b hc ha
  case dispatch =>
    intro k s l e go s0 l0
    rw [exec_launchDispatch e]
    have hl0 : l0 = { l with st := .dispatching } := launch_setLaunch e _
    refine ⟨fun hno => if_neg hno, fun hgo ht => ?_, fun hgo ht => ?_⟩
    · rw [if_pos hgo, tryDispatch_task s k (by rw [← ht]; exact congrArg (·.task.isSome) hl0)]
      exact ⟨_, rfl, startLaunch_task_running (setLaunch_get? e _) ht _⟩
    · have ht0 : l0.task = none := (congrArg (·.task) hl0).trans ht
      rw [if_pos hgo]
      exact ⟨fun s1 n c off fa hc => tryDispatch_bad ht0 hc, fun s1 n hc => tryDispatch_wait ht0 hc,
        fun s1 c hc => ⟨tryDispatch_taken ht0 hc, tryDispatch_free ht0 hc⟩⟩
  case placement =>
    intro k clus unit cores s0 s l p go
    rw [exec_crewPlacement]
    have hgo : go ↔ (s0.tidyCluster p.clus).placeable k p := Iff.rfl
    rw [hgo]
    refine ⟨placeCrew_not, ?_⟩
    intro groups c make placed
    have hmake : make = (s0.tidyCluster p.clus).makeCrew k p := rfl
    have hplaced (s2 : State) : placed s2 = s2.crewPlaced k p := rfl
    simp only [hmake, hplaced]
    refine ⟨placeCrew_noRoom, fun s2 h hb hm => ?_, fun s1 pa s2 h hb hroom ha hfree hm => ?_⟩
    · exact placeCrew_placed h (Option.ne_none_iff_exists'.mpr ⟨s2, hm⟩) (fun f => writeBase_none hb) hm
    · exact placeCrew_placed h hroom (fun f => writeBase_ok hb ha hfree) hm
  case complete =>
    intro k s l e go s1 m word
    rw [exec_launchComplete e]
    refine ⟨fun hno => if_neg hno, fun hgo hw => ?_, fun s2 pa hgo hw ha => ?_⟩
    · rw [if_pos hgo, completeLaunch_noWord hw]
    · rw [if_pos hgo, completeLaunch_word hw ha]
  case kill =>
    intro k s l e
    rw [exec_launchKill]
    refine ⟨fun h => by rw [killLaunch_over e h], fun hd hk hc hf => ?_⟩
    have h : ¬ (l.done = true ∨ l.st = .killed ∨ l.st = .complete ∨ l.st = .failed) := by simp [hd, hk, hc, hf]
    exact ⟨fun hm => by rw [killLaunch_marker e h hm], fun hm => ⟨_, rfl, killLaunch_killed e h hm⟩⟩

end Sys2Proof.Machine

/-! Saved work: what a save area holds of its wave, and what evictions, restores, fetches, ageing and budgets do. -/
namespace Sys2Proof.Machine

/-! Bytes as engines read them. -/

theorem leBytes_succ (n x : Nat) : leBytes (n + 1) x = BitVec.ofNat 8 x :: leBytes n (x / 256) := by
  simp only [leBytes, List.range_succ_eq_map, List.map_cons, List.map_map, pow_zero, Nat.div_one]
  congr 1
  refine List.map_congr_left fun i _ => ?_
  rw [Function.comp, pow_succ', Nat.div_div_eq_div_mul]

theorem leNat_leBytes : ∀ n x : Nat, leNat (leBytes n x) = x % 256 ^ n
  | 0, x => by simp [leBytes, leNat, Nat.mod_one]
  | n + 1, x => by
    have h : leNat (leBytes (n + 1) x) = x % 256 + 256 * leNat (leBytes n (x / 256)) := by
      rw [leBytes_succ]
      simp [leNat]
    rw [h, leNat_leBytes n, pow_succ', Nat.mod_mul]

theorem byteOf_eq {w : Nat} (x : BitVec w) (i : Nat) : byteOf x i = BitVec.ofNat 8 (x.toNat / 256 ^ i) := by
  rw [byteOf, BitVec.extractLsb', Nat.shiftRight_eq_div_pow, pow_mul, show (2 : Nat) ^ 8 = 256 from rfl]

/-- The bytes of a word, put together again. -/
theorem getNat_of_bytes {s : State} {pa n w : Nat} {x : BitVec w} (hw : w = 8 * n)
    (h : ∀ i, i < n → s.readAt (pa + i) = byteOf x i) : s.getNat pa n = x.toNat := by
  have hbytes : s.getBytes pa n = leBytes n x.toNat :=
    List.map_congr_left fun i hi => (h i (List.mem_range.mp hi)).trans (byteOf_eq x i)
  rw [State.getNat, hbytes, leNat_leBytes, show (256 : Nat) = 2 ^ 8 from rfl, ← pow_mul, ← hw, Nat.mod_eq_of_lt x.isLt]

/-- R274: coherent memory answers an engine with the byte that every agent sees. -/
theorem readAt_coherent {s : State} (hc : Coherent s) {a : Nat} (ha : a < 2 ^ 52) : s.readAt a = s.mem.byteAt a := by
  have hl := hc (a / 128) (by omega)
  unfold State.readAt
  split
  · rename_i o ho
    obtain ⟨e, he, hown⟩ := Option.bind_eq_some_iff.mp ho
    rw [if_pos (hl.delivered e o he ((mem_holders e o).mpr ⟨hl.owner e o he hown, .inr hown⟩))]
  · rfl

/-! R77, R78: where a wave's save area holds what. -/

section Image
variable {w : Wave} (hbad : w.bad = []) (side : Bool) (state : Nat)
include hbad

theorem imageByte_header {o : Nat} (ho : o < 0x100) : w.imageByte side state o = (w.header side state).getD o 0 := by
  simp [Wave.imageByte, hbad, ho]

theorem imageByte_scalar {r b : Nat} (hr : r < 60) (hb : b < 8) :
    w.imageByte side state (0x100 + 8 * r + b) = byteOf (w.s.read r) b := by
  have h1 : ¬ 0x100 + 8 * r + b < 0x100 := by omega
  have h2 : 0x100 + 8 * r + b < 0x300 := by omega
  have hreg : (0x100 + 8 * r + b - 0x100) / 8 = r := by omega
  have hbyte : (0x100 + 8 * r + b) % 8 = b := by omega
  simp only [Wave.imageByte, hbad, List.contains_nil, Bool.false_eq_true, h1, h2, hreg, hbyte, if_true, if_false, Wave.readS, hr]

theorem imageByte_vector {r l b : Nat} (hr : r < w.n) (hl : l < 96) (hb : b < 4) :
    w.imageByte side state (0x400 + 384 * r + 4 * l + b) = byteOf (w.readV r l) b := by
  have h1 : ¬ 0x400 + 384 * r + 4 * l + b < 0x100 := by omega
  have h2 : ¬ 0x400 + 384 * r + 4 * l + b < 0x300 := by omega
  have h3 : ¬ 0x400 + 384 * r + 4 * l + b < 0x400 := by omega
  have h4 : 0x400 + 384 * r + 4 * l + b < 0x400 + 384 * w.n := by omega
  have hreg : (0x400 + 384 * r + 4 * l + b - 0x400) / 384 = r := by omega
  have hlane : (0x400 + 384 * r + 4 * l + b - 0x400) % 384 / 4 = l := by omega
  have hbyte : (0x400 + 384 * r + 4 * l + b) % 4 = b := by omega
  simp only [Wave.imageByte, hbad, List.contains_nil, Bool.false_eq_true, h1, h2, h3, h4, hreg, hlane, hbyte, if_true, if_false]

end Image

/-- R78: the PC of the fragment in the clear, 8 bytes of the header. -/
theorem header_pc {w : Wave} {side : Bool} {f : Fragment} (hf : w.frag side = some f) (state : Nat) {i : Nat} (hi : i < 8) :
    (w.header side state).getD (8 + i) 0 = byteOf (f.pc.setWidth 64) i := by
  have hpc : (f.pc.setWidth 64 : W64).toNat = f.pc.toNat := by
    rw [BitVec.toNat_setWidth, Nat.mod_eq_of_lt (by omega)]
  have hhead : ([1, BitVec.ofNat 8 w.gran, BitVec.ofNat 8 state, if side then 1 else 0] ++ leBytes 4 0 : List Byte).length = 8 := by
    simp [leBytes]
  simp only [Wave.header, hf, Option.getD_some, List.append_assoc]
  rw [← List.append_assoc _ (leBytes 4 0), List.getD_append_right _ _ _ _ (by omega), hhead, Nat.add_sub_cancel_left,
    List.getD_append _ _ _ _ (by simpa [leBytes] using hi)]
  simp [leBytes, hi, byteOf_eq, hpc]

/-! R340, R399: a wave is saved. -/

theorem commitPreds_none {s : State} {k : Nat} {w : Wave} (hw : s.waves.get? k = some w)
    (hp : ∀ x ∈ s.stores.preds, x.2.wave ≠ k) : s.commitPreds k = s.putWave k w := by
  have hmine : s.stores.preds.filter (fun x => x.2.wave == k) = [] := by simpa using hp
  have hother : s.stores.preds.filter (fun x => x.2.wave != k) = s.stores.preds := by simpa using hp
  simp only [State.commitPreds, hw, hmine, hother, List.foldl_nil]
  rfl

theorem coherent_putWave {s : State} (k : Nat) (w : Wave) (hc : Coherent s) : Coherent (s.putWave k w) :=
  coherent_of_same (s := s) (fun _ _ => rfl) (fun _ => rfl) (fun l _ => SameLine.refl s.mem l) hc

/-- The wave as its save area shows it: what no code word can give is drawn under this tag (R76). -/
def State.tagged (s : State) (w : Wave) : Wave := { w with sealTag := s.draw }

/-- R77: a wave without a pending predicate is saved: its area holds its image, on coherent memory. -/
theorem saveWave_saved {s : State} {k : Nat} {w : Wave} (side : Bool) (st : WStatus) (hc : Coherent s)
    (hw : s.waves.get? k = some w) (hp : ∀ x ∈ s.stores.preds, x.2.wave ≠ k) (hb : w.save + saveSize w.gran ≤ 2 ^ 52) :
    (∃ x, (s.saveWave k side st).waves.get? k = some x ∧ x.status = st ∧ x.save = w.save) ∧
      ∀ o, o < saveSize w.gran - 1024 → (s.saveWave k side st).readAt (w.save + o) =
        (s.tagged w).imageByte side (if st = .adjourned then 4 else 5) o := by
  have hw' : (s.putWave k w).waves.get? k = some w := Table.get?_put_same ..
  have hstored := homeWrite_stored (s := s.putWave k w) (pa := w.save) (n := saveSize w.gran - 1024)
    (fun a => (s.tagged w).imageByte side (if st = .adjourned then 4 else 5) (a - w.save)) none
    (by omega) (coherent_putWave k w hc)
  have htag : ({ w with sealTag := s.draw } : Wave) = s.tagged w := rfl
  simp only [State.saveWave, commitPreds_none hw hp, hw', State.putWave_draw, htag]
  generalize (s.putWave k w).homeWrite w.save (saveSize w.gran - 1024) _ = s1 at hstored ⊢
  refine ⟨⟨_, Table.get?_put_same .., by simp, by simp⟩, fun o ho => ?_⟩
  refine (readAt_coherent (s := s1) hstored.coherent (by omega)).trans ?_
  rw [hstored.bytes _ (by omega), if_pos (by omega), Nat.add_sub_cancel_left]

theorem Fragment.calmed_pc (f : Fragment) : f.calmed.pc = f.pc := by
  unfold Fragment.calmed
  split <;> rfl

/-- R340: what the save area of an evicted wave holds: the PC of the fragment in the clear, the scalars, the vector lanes. -/
theorem evictWave_saves {s : State} {k : Nat} {w : Wave} {f : Fragment} (hc : Coherent s) (hw : s.waves.get? k = some w)
    (hf : w.fa = some f) (hp : ∀ x ∈ s.stores.preds, x.2.wave ≠ k) (hbad : w.bad = [])
    (hb : w.save + saveSize w.gran ≤ 2 ^ 52) :
    ∃ x, (s.evictWave k).waves.get? k = some x ∧ x.status = .evicted ∧ x.save = w.save ∧
      ((s.evictWave k).get64 (w.save + 8)).setWidth 56 = f.pc ∧
      (∀ r, r < 60 → (s.evictWave k).get64 (w.save + 0x100 + 8 * r) = w.s.read r) ∧
      ∀ r l, r < w.n → l < 96 →
        BitVec.ofNat 32 ((s.evictWave k).getNat (w.save + 0x400 + 384 * r + 4 * l) 4) = w.readV r l := by
  have hevict : s.evictWave k = (s.putWave k w.calmed).saveWave k false .evicted := by
    simp only [State.evictWave, hw, hf, Option.isNone_some]
  obtain ⟨⟨x, hx, hst, hsave⟩, hbyte⟩ := saveWave_saved false .evicted (coherent_putWave k w.calmed hc)
    (Table.get?_put_same ..) hp hb
  rw [← hevict] at hx hbyte
  generalize hv : (s.putWave k w.calmed).tagged w.calmed = v at hbyte
  have hvbad : v.bad = [] := by rw [← hv]; exact hbad
  have hvn : v.n = w.n := by rw [← hv]; rfl
  have hvs (r : Nat) : v.s.read r = w.s.read r := by rw [← hv]; rfl
  have hvv (r l : Nat) : v.readV r l = w.readV r l := by rw [← hv]; rfl
  have hvf : v.frag false = some f.calmed := by rw [← hv]; exact congrArg (Option.map Fragment.calmed) hf
  have hread {a o : Nat} (ha : a = w.save + o) (ho : o < 1536 + 384 * w.n) :
      (s.evictWave k).readAt a = v.imageByte false 5 o := by
    rw [ha]
    exact hbyte o (show o < 2560 + 384 * w.n - 1024 by omega)
  refine ⟨x, hx, hst, hsave, ?_, fun r hr => ?_, fun r l hr hl => ?_⟩
  · have hpc : (s.evictWave k).getNat (w.save + 8) 8 = (f.pc.setWidth 64).toNat := getNat_of_bytes rfl fun i hi => by
      rw [hread (Nat.add_assoc ..) (by omega), imageByte_header hvbad _ _ (by omega), header_pc hvf _ hi, Fragment.calmed_pc]
    rw [State.get64, hpc, BitVec.ofNat_toNat]
    simp
  · have hs : (s.evictWave k).getNat (w.save + 0x100 + 8 * r) 8 = (w.s.read r).toNat := getNat_of_bytes rfl fun i hi => by
      rw [hread (o := 0x100 + 8 * r + i) (by omega) (by omega), imageByte_scalar hvbad _ _ hr hi, hvs]
    rw [State.get64, hs, BitVec.ofNat_toNat, BitVec.setWidth_eq]
  · have hl : (s.evictWave k).getNat (w.save + 0x400 + 384 * r + 4 * l) 4 = (w.readV r l).toNat := getNat_of_bytes rfl fun i hi => by
      rw [hread (o := 0x400 + 384 * r + 4 * l + i) (by omega) (by omega), imageByte_vector hvbad _ _ (by omega) hl hi, hvv]
    rw [hl, BitVec.ofNat_toNat, BitVec.setWidth_eq]

/-! R241, R382, R400: a saved wave is restored. -/

theorem exec_waveRestore {s : State} {k : Nat} {w : Wave} (e : s.waves.get? k = some w) (core slot : Nat) :
    exec (.waveRestore k core slot) s =
      if (w.status = .evicted ∨ (w.status = .adjourned ∧ w.ready = true)) ∧ (s.crew w.crew).space = none ∧
        s.running (s.ctxOf w) = true ∧ s.waveFits w core = true ∧ slot ∈ s.freeSlots core
      then .next (s.restoreWave k w core slot) else .next s := by
  have hexec : exec (.waveRestore k core slot) s = execWaveRestore k core slot s := rfl
  rw [hexec, execWaveRestore, e]
  simp only [List.contains_iff_mem]

section RestoreWave
variable {s : State} {w : Wave} (k core slot : Nat)

theorem restoreWave_unsealed (h : s.sealOk k w = false) : s.restoreWave k w core slot = s.sealFault k w cSEAL := by
  rw [State.restoreWave, h]
  rfl

variable (h : s.sealOk k w = true)
include h

theorem restoreWave_badTarget (hpc : pcForm (s.get64 (w.save + 8)) = false) :
    s.restoreWave k w core slot = s.sealFault k w cBADTARGET := by
  rw [State.restoreWave, h, hpc]
  rfl

theorem restoreWave_loaded (hpc : pcForm (s.get64 (w.save + 8)) = true) : s.restoreWave k w core slot =
    ({ s.loadWave w with core, slot } : Wave).ids.foldl (fun s id => s.acquire core id w.crew .crw)
      (s.putWave k { s.loadWave w with core, slot }) := by
  rw [State.restoreWave, h, hpc]
  rfl

end RestoreWave

/-! R77, R78: what a restored wave takes from its save area. -/

section LoadWave
variable (s : State) (w : Wave)

theorem loadWave_crew : (s.loadWave w).crew = w.crew := by simp [State.loadWave]

theorem loadWave_wid : (s.loadWave w).wid = w.wid := by simp [State.loadWave]

theorem loadWave_gran : (s.loadWave w).gran = w.gran := by simp [State.loadWave]

theorem loadWave_frag : (s.loadWave w).frag (s.savedSide w) = some (s.savedFrag w) := by
  unfold State.loadWave
  cases s.savedSide w <;> rfl

theorem loadWave_scalar {r : Nat} (hr : r < 60) : (s.loadWave w).s.read r = s.get64 (w.save + 0x100 + 8 * r) := by
  simp only [State.loadWave, Cells.read_update]
  rw [if_pos (by omega), Nat.add_assoc]

theorem loadWave_vector {r l : Nat} (hr : r < w.n) (hl : l < 96) :
    (s.loadWave w).readV r l = BitVec.ofNat 32 (s.getNat (w.save + 0x400 + 384 * r + 4 * l) 4) := by
  have hreg : (96 * r + l) / 96 = r := by omega
  have hlane : (96 * r + l) % 96 = l := by omega
  simp only [Wave.readV, State.loadWave, Cells.read_update, hreg, hlane]
  rw [if_pos (by omega)]

end LoadWave

/-! R79, R399, R400: instances and crews. -/

theorem exec_sequencerPark {s : State} {k : Nat} {i : Inst} (e : s.seqs.get? k = some i) :
    exec (.sequencerPark k) s = .next (if i.parkable = true ∧ s.instYields i = true then s.parkInst k else s) := by
  have hexec : exec (.sequencerPark k) s = execSequencerPark k s := rfl
  rw [hexec, execSequencerPark, e]
  exact (apply_ite Host.Outcome.next _ _ _).symm

theorem exec_sequencerRestore {s : State} {k : Nat} {i : Inst} (e : s.seqs.get? k = some i) :
    exec (.sequencerRestore k) s =
      .next (if s.instCandidate i = true ∧ s.seqFree ((s.instCore i).getD i.core) = true then s.restoreOn k i else s) := by
  have hexec : exec (.sequencerRestore k) s = execSequencerRestore k s := rfl
  rw [hexec, execSequencerRestore, e]
  exact (apply_ite Host.Outcome.next _ _ _).symm

/-- R338: a sequencer gives up the work of a suspended context. -/
theorem instYields_of_suspended {s : State} {i : Inst} (h : (s.ctx (s.launch (s.crew i.crew).launch).ctx).st = .suspended) :
    s.instYields i = true := by
  simp [State.instYields, h]

/-- R399: a sequencer gives up its work for a candidate of higher rank on its core. -/
theorem instYields_of_rival {s : State} {i : Inst} {y : Nat × Inst} (hy : y ∈ s.seqs) (hc : s.instCandidate y.2 = true)
    (hcore : y.2.core = i.core)
    (hr : (s.launch (s.crew i.crew).launch).rank < (s.launch (s.crew y.2.crew).launch).rank) : s.instYields i = true := by
  have hany : (s.seqs.any fun x => s.instCandidate x.2 && x.2.core == i.core &&
      (s.launch (s.crew i.crew).launch).rank < (s.launch (s.crew x.2.crew).launch).rank) = true :=
    List.any_eq_true.mpr ⟨y, hy, by simp [hc, hcore, hr]⟩
  simp only [State.instYields, hany, Bool.or_true, Bool.true_or]

theorem exec_crewEviction (k : Nat) (s : State) : exec (.crewEviction k) s = execCrewEviction k s := rfl

/-- R338: a crew of a suspended context goes. -/
theorem crewYields_of_suspended {s : State} {k : Nat} (h : (s.ctx (s.launch (s.crew k).launch).ctx).st = .suspended) :
    s.crewYields k = true := by
  simp [State.crewYields, h]

theorem exec_crewRestore {s : State} {k : Nat} {c : Crew} (e : s.crews.get? k = some c) :
    exec (.crewRestore k) s = .next (if c.space.isSome = true ∧
        (s.tidyCluster c.clus).running ((s.tidyCluster c.clus).launch c.launch).ctx = true ∧
        (s.tidyCluster c.clus).crewFits c = true
      then (s.tidyCluster c.clus).restoreCrew k c else s) := by
  have hexec : exec (.crewRestore k) s = execCrewRestore k s := rfl
  rw [hexec, execCrewRestore, e]
  exact (apply_ite Host.Outcome.next _ _ _).symm

/-! R87, R386, R394: fetches, ageing and budgets. -/

theorem exec_lineFetch {s s1 : State} {k : Nat} {b : Bool} {h : Here} (e : s.fragment k b = some h)
    (hl : h.enterLine s = .ok s1) : exec (.lineFetch k b) s = .next s1 := by
  have hexec : exec (.lineFetch k b) s = execLineFetch k b s := rfl
  simp only [hexec, execLineFetch, e, hl]
  rfl

theorem exec_fragmentAged {s : State} {k : Nat} {b : Bool} {h : Here} (e : s.fragment k b = some h) :
    exec (.fragmentAged k b) s =
      if 256 ≤ h.f.age then .next (s.putWave k (h.w.setFrag b (some { h.f with aged := true }))) else .next s := by
  have hexec : exec (.fragmentAged k b) s = execFragmentAged k b s := rfl
  rw [hexec, execFragmentAged, e]

theorem exec_budgetExhausted_wave (s : State) (k : Nat) : exec (.budgetExhausted false k) s = .next (s.budgetOut k) := rfl

theorem exec_budgetExhausted_inst {s : State} {k : Nat} {i : Inst} (e : s.seqs.get? k = some i) :
    exec (.budgetExhausted true k) s = .next (if i.status = .live ∧ i.budget = 0 ∧ i.ops = []
      then s.adjournInst k { causes := cBUDGET, pc := i.pc.setWidth 64 } else s) := by
  have hexec : exec (.budgetExhausted true k) s = execBudgetExhausted true k s := rfl
  rw [hexec, execBudgetExhausted, e]
  exact (apply_ite Host.Outcome.next _ _ _).symm

section BudgetOut
variable {s : State} {k : Nat} {w : Wave} (e : s.waves.get? k = some w)
include e

theorem budgetOut_held (h : w.status ≠ .live ∨ w.budget ≠ 0 ∨ w.mustWait s k = true) : s.budgetOut k = s := by
  have hno : ¬ (w.status = .live ∧ w.budget = 0 ∧ (!w.mustWait s k) = true) := by
    simpa only [not_and_or, Bool.not_eq_true', Bool.not_eq_false] using h
  simp only [State.budgetOut, e, hno, if_false]

/-- R394: the fragment that issued last, or the other one, stands in the clear. -/
theorem budgetOut_adjourns {h : Here} (hs : w.status = .live) (hb : w.budget = 0) (hw : w.mustWait s k = false)
    (hf : s.fragment k (if (w.frag w.issuedB).isSome then w.issuedB else !w.issuedB) = some h) :
    s.budgetOut k = s.adjourn k (if (w.frag w.issuedB).isSome then w.issuedB else !w.issuedB) (h.report cBUDGET) := by
  simp only [State.budgetOut, e, hs, hb, hw, hf, Bool.not_false, and_self, if_true]

end BudgetOut

/-- Settles O55: each event is its case above; an evicted wave's area is its image on coherent memory. -/
theorem savedWork : Obligations.SavedWork := by
  unfold Obligations.SavedWork
  refine ⟨?restore, fun k s w f hc hw hf hp hbad hb => evictWave_saves hc hw hf hp hbad hb, ?sequencer, ?eviction,
    fun k s c e => exec_crewRestore e, ?fragment, ?budget, fun k s i e => exec_budgetExhausted_inst e⟩
  case restore =>
    intro k core slot s w e go
    rw [exec_waveRestore e]
    refine ⟨fun hno => if_neg hno, fun hgo h => ?_, fun hgo h hpc => ?_, fun hgo h hpc => ?_⟩
    · rw [if_pos hgo, restoreWave_unsealed k core slot h]
    · rw [if_pos hgo, restoreWave_badTarget k core slot h hpc]
    · rw [if_pos hgo, restoreWave_loaded k core slot h hpc]
      exact ⟨_, rfl, rfl, rfl, rfl, loadWave_crew s w, loadWave_wid s w, loadWave_gran s w, loadWave_frag s w,
        fun r hr => loadWave_scalar s w hr, fun r l hr hl => loadWave_vector s w hr hl⟩
  case sequencer =>
    intro k s i e l
    exact ⟨exec_sequencerPark e, instYields_of_suspended, fun y hy hc hcore hr => instYields_of_rival hy hc hcore hr,
      exec_sequencerRestore e⟩
  case eviction =>
    intro k s
    rw [exec_crewEviction, execCrewEviction]
    refine ⟨fun h => by rw [h]; rfl, crewYields_of_suspended, fun t h ht => by rw [h, ht]; rfl⟩
  case fragment =>
    intro k b s h e
    rw [exec_fragmentAged e]
    exact ⟨fun s1 hl => exec_lineFetch e hl, fun ha => if_pos ha, fun ha => if_neg (by omega)⟩
  case budget =>
    intro k s w e
    rw [exec_budgetExhausted_wave]
    refine ⟨fun h => by rw [budgetOut_held e h], fun h side hs hb hw hside hf => ?_⟩
    rw [hside] at hf ⊢
    rw [budgetOut_adjourns e hs hb hw hf]

end Sys2Proof.Machine

/-! The fields of a word and the word of its fields (R93): packing and unpacking are inverse, in bits and in bytes. -/
namespace Sys2Proof

theorem extractLsb'_append_high {v w s l : Nat} {x : BitVec v} {y : BitVec w} {z : BitVec l} (hs : w ≤ s)
    (h : x.extractLsb' (s - w) l = z) : (x ++ y).extractLsb' s l = z := by
  rw [BitVec.extractLsb'_append_eq_of_le hs, h]

theorem getLsbD_append_high {v w i : Nat} {x : BitVec v} {y : BitVec w} {b : Bool} (hi : w ≤ i)
    (h : x.getLsbD (i - w) = b) : (x ++ y).getLsbD i = b := by
  rw [BitVec.getLsbD_append, if_neg (by omega), h]

theorem getLsbD_append_flag {v : Nat} {x : BitVec v} {b : Bool} : (x ++ if b then 1#1 else 0#1).getLsbD 0 = b := by
  rw [BitVec.getLsbD_append, if_pos (by decide)]
  cases b <;> rfl

/-- Each field lies above the fields after it in R93's order. -/
theorem fieldsOf_toWord (f : Fields) : fieldsOf f.toWord = f := by
  obtain ⟨op, fn, d, a, b, c, g, gn, rnd, sat, ty, imm⟩ := f
  simp only [fieldsOf, Fields.toWord, Fields.mk.injEq]
  refine ⟨?op, ?fn, ?d, ?a, ?b, ?c, ?g, ?gn, ?rnd, ?sat, ?ty, ?imm⟩
  case' op => iterate 10 apply extractLsb'_append_high (by decide)
  case op => exact BitVec.extractLsb'_append_eq_left
  case' fn => iterate 10 apply extractLsb'_append_high (by decide)
  case' d => iterate 9 apply extractLsb'_append_high (by decide)
  case' a => iterate 8 apply extractLsb'_append_high (by decide)
  case' b => iterate 7 apply extractLsb'_append_high (by decide)
  case' c => iterate 6 apply extractLsb'_append_high (by decide)
  case' g => iterate 5 apply extractLsb'_append_high (by decide)
  case' gn => iterate 4 apply extractLsb'_append_high (by decide)
  case' rnd => iterate 3 apply extractLsb'_append_high (by decide)
  case' sat => iterate 2 apply extractLsb'_append_high (by decide)
  case' ty => apply extractLsb'_append_high (by decide)
  all_goals exact BitVec.extractLsb'_append_eq_right

/-- The fields of R93 are adjacent and cover the word, so that joining them two at a time gives it back. -/
theorem toWord_fieldsOf (w : BitVec 96) : (fieldsOf w).toWord = w := by
  simp only [fieldsOf, Fields.toWord]
  iterate 11 rw [BitVec.extractLsb'_append_extractLsb'_eq_extractLsb' (by rfl)]
  exact BitVec.extractLsb'_eq_self

theorem wordOfBytes_bytesOfWord (w : BitVec 96) : wordOfBytes (bytesOfWord w) = w := by
  apply BitVec.eq_of_toNat_eq
  simp only [wordOfBytes, bytesOfWord, List.range, List.range.loop, List.map, List.foldr, BitVec.extractLsb'_toNat,
    BitVec.toNat_ofNat, Nat.shiftRight_eq_div_pow]
  omega

theorem decodeBytes_bytesOfWord (w : BitVec 96) : decodeBytes (bytesOfWord w) = decode w := by
  rw [decodeBytes, if_pos (by simp [bytesOfWord]), wordOfBytes_bytesOfWord]

/-! Codes of R32 to R106: reading back what was written, in the width of its field. -/

@[simp] theorem tyOf_tyCode (t : Ty) : tyOf (tyCode t % 256) = some t := by cases t <;> rfl

@[simp] theorem icondOf_icondCode (c : ICond) : icondOf (icondCode c % 256) = some c := by cases c <;> rfl

@[simp] theorem sregOf_sregCode (x : SReg) : sregOf (sregCode x % 4294967296) = some x := by cases x <;> rfl

@[simp] theorem scpyOf_scpyCode (k : ScpyKind) : scpyOf (scpyCode k % 256) = some k := by cases k <;> rfl

@[simp] theorem scopeOf_scopeCode (c : Scope) : scopeOf (scopeCode c % 8) = some c := by cases c <;> rfl

@[simp] theorem gstatFn_clear (clr : Bool) (n : BitVec 2) : (n8 (n.toNat + if clr then 4 else 0))[2] = clr := by
  revert clr n
  decide

@[simp] theorem gstatFn_counter (clr : Bool) (n : BitVec 2) : BitVec.ofNat 2 (n.toNat + if clr then 4 else 0) = n := by
  revert clr n
  decide

section MemFn
variable (am : AMode) (h : Hint) (rf : RForm)

@[simp] theorem amOf_memFn : amOf ((memFn am h rf).toNat >>> 6 % 4) = am := by cases am <;> cases h <;> cases rf <;> rfl

@[simp] theorem hintOf_memFn : hintOf ((memFn am h rf).toNat >>> 4 % 4) = some h := by
  cases am <;> cases h <;> cases rf <;> rfl

@[simp] theorem rfOf_memFn : rfOf ((memFn am h rf).toNat % 16) = some rf := by cases am <;> cases h <;> cases rf <;> rfl

end MemFn

/-! The common fields: guard, type, rounding and saturation, each with what writing it leaves unchanged. -/
namespace Fields
variable (f : Fields) (g : Guard) (t : Ty) (r : Rnd) (s : Sat)

@[simp] theorem guard_withGuard : (f.withGuard g).guard = g := by obtain ⟨p, neg⟩ := g; cases neg <;> rfl
@[simp] theorem withGuard_op : (f.withGuard g).op = f.op := rfl
@[simp] theorem withGuard_fn : (f.withGuard g).fn = f.fn := rfl
@[simp] theorem withGuard_d : (f.withGuard g).d = f.d := rfl
@[simp] theorem withGuard_a : (f.withGuard g).a = f.a := rfl
@[simp] theorem withGuard_b : (f.withGuard g).b = f.b := rfl
@[simp] theorem withGuard_c : (f.withGuard g).c = f.c := rfl
@[simp] theorem withGuard_rnd : (f.withGuard g).rnd = f.rnd := rfl
@[simp] theorem withGuard_sat : (f.withGuard g).sat = f.sat := rfl
@[simp] theorem withGuard_ty : (f.withGuard g).ty = f.ty := rfl
@[simp] theorem withGuard_imm : (f.withGuard g).imm = f.imm := rfl

@[simp] theorem tyOf_withTy : tyOf (f.withTy t).ty.toNat = some t := by cases t <;> rfl
@[simp] theorem withTy_op : (f.withTy t).op = f.op := rfl
@[simp] theorem withTy_fn : (f.withTy t).fn = f.fn := rfl
@[simp] theorem withTy_d : (f.withTy t).d = f.d := rfl
@[simp] theorem withTy_a : (f.withTy t).a = f.a := rfl
@[simp] theorem withTy_b : (f.withTy t).b = f.b := rfl
@[simp] theorem withTy_c : (f.withTy t).c = f.c := rfl
@[simp] theorem withTy_rnd : (f.withTy t).rnd = f.rnd := rfl
@[simp] theorem withTy_sat : (f.withTy t).sat = f.sat := rfl
@[simp] theorem withTy_imm : (f.withTy t).imm = f.imm := rfl

@[simp] theorem rndOf_withRS : rndOf (f.withRS r s).rnd.toNat = some r := by cases r <;> rfl
@[simp] theorem satOf_withRS : satOf (f.withRS r s).sat.toNat = some s := by cases s <;> rfl
@[simp] theorem withRS_op : (f.withRS r s).op = f.op := rfl
@[simp] theorem withRS_fn : (f.withRS r s).fn = f.fn := rfl
@[simp] theorem withRS_d : (f.withRS r s).d = f.d := rfl
@[simp] theorem withRS_a : (f.withRS r s).a = f.a := rfl
@[simp] theorem withRS_b : (f.withRS r s).b = f.b := rfl
@[simp] theorem withRS_c : (f.withRS r s).c = f.c := rfl
@[simp] theorem withRS_ty : (f.withRS r s).ty = f.ty := rfl
@[simp] theorem withRS_imm : (f.withRS r s).imm = f.imm := rfl

end Fields

/-! Immediates that hold several fields (R104, R285, R331, R409, R463): each field reads back. -/
section Immediates
variable (b : Bool) (x1 : BitVec 1) (kind lv : BitVec 2) (sh : BitVec 3) (p : BitVec 6) (l : BitVec 7) (g : BitVec 8)
  (k : BitVec 15) (rs : BitVec 16) (off : BitVec 22) (disp : BitVec 24) (n : BitVec 31) (sz : PgSize)

@[simp] theorem flagImm_bit : (if b then 1#32 else 0#32)[0] = b := by cases b <;> rfl

@[simp] theorem fieldImm_pos : BitVec.setWidth 6 ((0#17) ++ l ++ (0#2) ++ p : W32) = p := BitVec.setWidth_append_eq_right

@[simp] theorem fieldImm_len : BitVec.extractLsb' 8 7 ((0#17) ++ l ++ (0#2) ++ p : W32) = l :=
  extractLsb'_append_high (by decide) (extractLsb'_append_high (by decide) BitVec.extractLsb'_append_eq_right)

@[simp] theorem leaImm_shift : BitVec.setWidth 3 (disp ++ (0#5) ++ sh : W32) = sh := BitVec.setWidth_append_eq_right

@[simp] theorem leaImm_disp : BitVec.extractLsb' 8 24 (disp ++ (0#5) ++ sh : W32) = disp :=
  extractLsb'_append_high (by decide) BitVec.extractLsb'_append_eq_left

@[simp] theorem rsImm_rs : BitVec.extractLsb' 16 16 (rsImm rs) = rs := BitVec.extractLsb'_append_eq_left

@[simp] theorem mmaImm_rs : BitVec.extractLsb' 16 16 (rs ++ (if b then 1#1 else 0#1) ++ k : W32) = rs :=
  extractLsb'_append_high (by decide) BitVec.extractLsb'_append_eq_left

@[simp] theorem mmaImm_sparse : (rs ++ (if b then 1#1 else 0#1) ++ k : W32)[15] = b :=
  getLsbD_append_high (by decide) (getLsbD_append_flag (x := rs))

@[simp] theorem mmaImm_k : BitVec.setWidth 15 (rs ++ (if b then 1#1 else 0#1) ++ k : W32) = k :=
  BitVec.setWidth_append_eq_right

@[simp] theorem sloopImm_kind : ((0#1) ++ n : W32)[31] = false :=
  getLsbD_append_high (x := 0#1) (y := n) (i := 31) (by decide) rfl

@[simp] theorem sloopImm_count : BitVec.setWidth 31 ((0#1) ++ n : W32) = n := BitVec.setWidth_append_eq_right

@[simp] theorem offImm_flag : (x1 ++ (0#9) ++ off : W32)[31] = x1.getLsbD 0 :=
  getLsbD_append_high (by decide) (getLsbD_append_high (by decide) rfl)

@[simp] theorem offImm_off : BitVec.setWidth 22 (x1 ++ (0#9) ++ off : W32) = off := BitVec.setWidth_append_eq_right

@[simp] theorem flag_bit : (if b then 1#1 else 0#1)[0] = b := by cases b <;> rfl

/-- The two highest fields of sfin's immediate, joined by `simp`. -/
@[simp] theorem sfinImm_flag : ((512#10) ++ off : W32)[31] = true := getLsbD_append_high (by decide) rfl

@[simp] theorem sfinImm_off : BitVec.setWidth 22 ((512#10) ++ off : W32) = off := BitVec.setWidth_append_eq_right

@[simp] theorem sbwaitImm_off :
    BitVec.setWidth 22 ((0#4) ++ lv ++ (0#1) ++ (if b then 1#1 else 0#1) ++ (0#2) ++ off : W32) = off :=
  BitVec.setWidth_append_eq_right

@[simp] theorem sbwaitImm_phase : ((0#4) ++ lv ++ (0#1) ++ (if b then 1#1 else 0#1) ++ (0#2) ++ off : W32)[24] = b :=
  getLsbD_append_high (by decide) (getLsbD_append_high (by decide) (getLsbD_append_flag (x := 0#4 ++ lv ++ 0#1)))

@[simp] theorem sbwaitImm_level :
    BitVec.extractLsb' 26 2 ((0#4) ++ lv ++ (0#1) ++ (if b then 1#1 else 0#1) ++ (0#2) ++ off : W32) = lv :=
  extractLsb'_append_high (by decide) (extractLsb'_append_high (by decide) (extractLsb'_append_high (by decide)
    (extractLsb'_append_high (by decide) BitVec.extractLsb'_append_eq_right)))

@[simp] theorem grpvImm_group (x : BitVec 24) : BitVec.setWidth 8 (x ++ g : W32) = g := BitVec.setWidth_append_eq_right

@[simp] theorem grpvImm_op (x : BitVec 24) : (x ++ g : W32).toNat >>> 8 % 4 = x.toNat % 4 := by
  rw [← BitVec.extractLsb'_toNat 8 2, BitVec.extractLsb'_append_eq_of_le (by decide), BitVec.extractLsb'_toNat]
  rfl

@[simp] theorem grpvImm_and : (g.toNat % 4294967296) >>> 8 % 4 = 0 := by
  rw [Nat.shiftRight_eq_div_pow]
  omega

@[simp] theorem linkImm_kind : BitVec.extractLsb' 2 2 ((0#28) ++ kind ++ x1 ++ (if b then 1#1 else 0#1) : W32) = kind :=
  extractLsb'_append_high (by decide) (extractLsb'_append_high (by decide) BitVec.extractLsb'_append_eq_right)

@[simp] theorem linkImm_bar : ((0#28) ++ kind ++ x1 ++ (if b then 1#1 else 0#1) : W32)[1] = x1.getLsbD 0 :=
  getLsbD_append_high (by decide) (BitVec.getLsbD_append (x := 0#28 ++ kind) (y := x1))

@[simp] theorem linkImm_sparse : ((0#28) ++ kind ++ x1 ++ (if b then 1#1 else 0#1) : W32)[0] = b :=
  getLsbD_append_flag (x := 0#28 ++ kind ++ x1)

@[simp] theorem pgImm_ctx : BitVec.setWidth 6 (pgImm p sz) = p := BitVec.setWidth_append_eq_right

@[simp] theorem pgImm_size : szOf ((pgImm p sz).toNat >>> 8 % 4) = some sz := by
  have h : (pgImm p sz).extractLsb' 8 2 = BitVec.ofNat 2 (szCode sz) :=
    extractLsb'_append_high (by decide) (extractLsb'_append_high (by decide) BitVec.extractLsb'_append_eq_right)
  rw [← BitVec.extractLsb'_toNat 8 2, h]
  cases sz <;> rfl

@[simp] theorem ctxrdImm_select : BitVec.setWidth 8 ((1#18) ++ p ++ g : W32) = g := BitVec.setWidth_append_eq_right

@[simp] theorem ctxrdImm_ctx : BitVec.extractLsb' 8 6 ((1#18) ++ p ++ g : W32) = p :=
  extractLsb'_append_high (by decide) BitVec.extractLsb'_append_eq_right

@[simp] theorem ctxrdImm_given : ((1#18) ++ p ++ g : W32)[14] = true :=
  getLsbD_append_high (by decide) (getLsbD_append_high (by decide) rfl)

end Immediates

/-! The operand blocks: the opcode and the function that a block's fields hold, and its reader as the inverse. -/
section BranchFields
variable (op fn : Nat) (t : W32) (d a b : BitVec 8) (j : BitVec 24)

@[simp] theorem brFields_op : (brFields op fn t d a b j).op = n8 op := rfl
@[simp] theorem brFields_fn : (brFields op fn t d a b j).fn = n8 fn := rfl
@[simp] theorem brFields_d : (brFields op fn t d a b j).d = d := rfl
@[simp] theorem brFields_a : (brFields op fn t d a b j).a = a := rfl
@[simp] theorem brFields_b : (brFields op fn t d a b j).b = b := rfl
@[simp] theorem brFields_imm : (brFields op fn t d a b j).imm = t := rfl

@[simp] theorem second_brFields : (brFields op fn t d a b j).second = j := by
  simp only [Fields.second, brFields]
  iterate 5 rw [BitVec.extractLsb'_append_extractLsb'_eq_extractLsb' (by rfl)]
  exact BitVec.extractLsb'_eq_self

end BranchFields

section Blocks
variable (op fn : Nat)

@[simp] theorem sintFields_class (o : SInt) : (sintFields fn o).op.toNat >>> 4 % 16 = 1 := by
  cases hb : o.b <;> simp [sintFields, hb]
@[simp] theorem sintFields_form (o : SInt) : ¬ 0x11 < (sintFields fn o).op.toNat := by cases hb : o.b <;> simp [sintFields, hb]
@[simp] theorem sintFields_fn (o : SInt) : (sintFields fn o).fn = n8 fn := rfl
@[simp] theorem sintOf_sintFields (o : SInt) : sintOf (sintFields fn o) ((sintFields fn o).op.toNat == 0x11) = some o := by
  obtain ⟨ty, sat, d, a, b, c⟩ := o
  cases b <;> simp [sintFields, sintOf]

@[simp] theorem vopFields_fn (base : Nat) (o : VOp) : (vopFields base fn o).fn = n8 fn := rfl
@[simp] theorem vopFields_classInt (o : VOp) : (vopFields 0x30 fn o).op.toNat >>> 4 % 16 = 3 := by
  cases hb : o.b <;> simp [vopFields, srcvFields, hb]
@[simp] theorem vopFields_formInt (o : VOp) : ¬ 0x32 < (vopFields 0x30 fn o).op.toNat := by
  cases hb : o.b <;> simp [vopFields, srcvFields, hb]
@[simp] theorem vopOf_vopFieldsInt (o : VOp) : vopOf (vopFields 0x30 fn o) ((vopFields 0x30 fn o).op.toNat - 0x30) = some o := by
  obtain ⟨g, ty, rnd, sat, d, a, b, c⟩ := o
  cases b <;> simp [vopFields, srcvFields, vopOf, srcvOf]
@[simp] theorem vopFields_classFloat (o : VOp) : (vopFields 0x40 fn o).op.toNat >>> 4 % 16 = 4 := by
  cases hb : o.b <;> simp [vopFields, srcvFields, hb]
@[simp] theorem vopFields_formFloat (o : VOp) : ¬ 0x42 < (vopFields 0x40 fn o).op.toNat := by
  cases hb : o.b <;> simp [vopFields, srcvFields, hb]
@[simp] theorem vopOf_vopFieldsFloat (o : VOp) :
    vopOf (vopFields 0x40 fn o) ((vopFields 0x40 fn o).op.toNat - 0x40) = some o := by
  obtain ⟨g, ty, rnd, sat, d, a, b, c⟩ := o
  cases b <;> simp [vopFields, srcvFields, vopOf, srcvOf]

@[simp] theorem sfltFields_op (o : SFlt) : (sfltFields op fn o).op = n8 op := rfl
@[simp] theorem sfltFields_fn (o : SFlt) : (sfltFields op fn o).fn = n8 fn := rfl
@[simp] theorem sfltOf_sfltFields (o : SFlt) : sfltOf (sfltFields op fn o) = some o := by simp [sfltFields, sfltOf]

@[simp] theorem cvtFields_op (o : Cvt) : (cvtFields op o).op = n8 op := rfl
@[simp] theorem cvtOf_cvtFields (o : Cvt) : cvtOf (cvtFields op o) = some o := by simp [cvtFields, cvtOf]

@[simp] theorem dxFields_op (o : DxOp) : (dxFields op o).op = n8 op := rfl
@[simp] theorem dxOf_dxFields (o : DxOp) : dxOf (dxFields op o) = some o := by simp [dxFields, dxOf]

@[simp] theorem laneFields_op (o : LaneOp) (imm : W32) : (laneFields op fn o imm).op = n8 op := rfl
@[simp] theorem laneFields_fn (o : LaneOp) (imm : W32) : (laneFields op fn o imm).fn = n8 fn := rfl
@[simp] theorem laneFields_imm (o : LaneOp) (imm : W32) : (laneFields op fn o imm).imm = imm := rfl
@[simp] theorem laneOf_laneFields (o : LaneOp) (imm : W32) : laneOf (laneFields op fn o imm) = some o := by
  simp [laneFields, laneOf]

@[simp] theorem redFields_op (o : RedScan) : (redFields op o).op = n8 op := rfl
@[simp] theorem redScanOf_redFields (o : RedScan) : redScanOf (redFields op o) = some o := by
  obtain ⟨g, red, ex, seg, ty, rnd, d, a, pc⟩ := o
  cases red <;> cases ex <;> cases seg <;> simp [redFields, redScanOf, redCode, redOf, n8]

@[simp] theorem memFields_op (o : MemOp) (load : Bool) : (memFields op o load).op = n8 op := rfl
@[simp] theorem memOf_memFields (o : MemOp) (load : Bool) : memOf (memFields op o load) load = some o := by
  cases load <;> simp [memFields, memOf]

@[simp] theorem atomFields_op (o : AtomOp) : (atomFields op o).op = n8 op := rfl
@[simp] theorem atomOf_atomFields (o : AtomOp) : atomOf (atomFields op o) = some o := by
  obtain ⟨g, at_, ord, am, scope, ty, d, a, b, c, imm⟩ := o
  cases at_ <;> cases ord <;> cases am <;> simp [atomFields, atomOf, atCode, atOf, ordCode, ordOf, amCode, amOf]

@[simp] theorem cpyFields_op (o : Cpy) (t : Ty) : (cpyFields op fn o t).op = n8 op := rfl
@[simp] theorem cpyFields_fn (o : Cpy) (t : Ty) : (cpyFields op fn o t).fn = n8 fn := rfl
@[simp] theorem tyOf_cpyFields (o : Cpy) (t : Ty) : tyOf (cpyFields op fn o t).ty.toNat = some t := Fields.tyOf_withTy _ t
@[simp] theorem cpyOf_cpyFields (o : Cpy) (t : Ty) : cpyOf (cpyFields op fn o t) = o := by
  obtain ⟨d, a, b, bar⟩ := o
  cases bar <;> simp [cpyFields, cpyOf]

@[simp] theorem mmaFields_op (o : Mma) : (mmaFields op o).op = n8 op := rfl
@[simp] theorem mmaOf_mmaFields (o : Mma) : mmaOf (mmaFields op o) = some o := by simp [mmaFields, mmaOf, seqFields]

@[simp] theorem geoFields_op (o : GeoOp) : (geoFields op o).op = n8 op := rfl
@[simp] theorem geoOf_geoFields (o : GeoOp) : geoOf (geoFields op o) = some o := by
  obtain ⟨g, ty, tb, code, d, a, b⟩ := o
  cases tb <;> cases code <;> simp [geoFields, geoOf, n8]

@[simp] theorem linkFields_op (o : LinkOp) : (linkFields op o).op = n8 op := rfl
@[simp] theorem linkOf_linkFields (o : LinkOp) : linkOf (linkFields op o) = o := by
  obtain ⟨d, a, b, kind, sp, bar⟩ := o
  cases bar <;> simp [linkFields, linkOf]

end Blocks

/-- R103: the opcode tells the form of B, and the function the comparison. -/
theorem candidate_fcmp (o : FCmp) {f : Fields} (h : encodeFields (.fcmp o) = some f) : candidate f = some (.fcmp o) := by
  obtain ⟨g, ty, cc, d, a, b⟩ := o
  cases h
  cases b <;> cases cc <;> simp [candidate, candidate4, vopOf, srcvOf, fcondCode, fcondOf, rndOf, satOf]

/-- R101: the opcode map reads from the fields of an instruction that instruction, class by class. -/
theorem candidate_of_encode (i : Instr) (f : Fields) (h : encodeFields i = some f) : candidate f = some i := by
  cases i
  case nop | br | brcNeS | brcEqS | brcAnyP | brcAllP | brcNoneP | brv | join | call | calli | ret | jmp | endF | yield
      | brk | sleep | rgn =>
    cases h
    simp [candidate, candidate0, baseFields]
  case add o | sub o | mul o | mulh o | mad o | div o | rem o | and o | or o | xor o | shl o | shr o | sar o | min o
      | max o =>
    cases h
    simp [candidate, candidate1]
  case clz | popc | brev | bfe | bfi | cmp | sel | mov | movi | movh | lea | srd | swrMode | swrFlags | cvts | sfadd
      | sfmul | sffma =>
    cases h
    simp [candidate, candidate2, baseFields]
  case vadd o | vsub o | vmul o | vmulh o | vmad o | vdiv o | vand o | vor o | vxor o | vshl o | vshr o | vsar o | vmin o
      | vmax o | vabs o | vbfe o | vbfi o | vclz o | vpopc o =>
    cases h
    simp [candidate, candidate3]
  case fadd o | fsub o | fmul o | ffma o | fdiv o | fsqrt o | frcp o | frsq o | fldexp o | frint o | fmin o | fmax o
      | fclass o | fdot2 o =>
    cases h
    simp [candidate, candidate4]
  case fcmp o => exact candidate_fcmp o h
  case fexp2 o | flog2 o | fsin o | fcos o | fdp4 o =>
    obtain ⟨g, ty, rnd, sat, d, a, b, c⟩ := o
    cases b <;> cases h
    simp [candidate, candidate5, vopOf, srcvOf]
  case fact | actflip | cvt | pack | unpack | dxq | dxd =>
    cases h
    simp [candidate, candidate5, baseFields]
  case vmov | vperm | vshflUp | vshflDown | vshflXor | vshflIdx | vmovrel | vstrel | vbcast | vcmp | vsel | plop | ppopc
      | pfirst | pballot | pfrom | vlid | vred | vscan =>
    cases h
    simp [candidate, candidate6, baseFields]
  case ldg | stg | ldl | stl | lds | sts | pfg | ldgs | cinv | wopen | wclose | wflush | winv =>
    cases h
    simp [candidate, candidate7, baseFields]
  case atom | atomc | red | atoml =>
    cases h
    simp [candidate, candidate8]
  case fence ord sc =>
    cases h
    cases ord <;> simp [candidate, candidate8, ordCode, ordOf]
  case cpy | cpys | cpyg | cpcommit | cpwait | cpact =>
    cases h
    simp [candidate, candidate9, baseFields]
  case cpyw o sparse => cases sparse <;> cases h <;> simp [candidate, candidate9]
  case mma | mmag | mzero | mload | mdrainx | mrsc | maffl | mscan | mcarLoad | mcarStore | mcarReset =>
    cases h
    simp [candidate, candidateA, seqFields]
  case mdrain o =>
    cases h
    obtain ⟨ty, act, rnd, sat, d, xa, xc, rs⟩ := o
    cases act <;> simp [candidate, candidateA, seqFields]
  case sloop | sloopInd | sendl | sadr | sinc | sbarr | sbwait | scpy | shint | saud =>
    cases h
    simp [candidate, candidateB, seqFields]
  case sfin off => cases off <;> cases h <;> simp [candidate, candidateB, seqFields]
  case orient2 | orient3 | incirc | insph | segx =>
    cases h
    simp [candidate, candidateC]
  case gstat clr d n =>
    cases h
    simp [candidate, candidateC, baseFields]
  case bari | bara | barx | barw | barwFlag | bart | grpa | grpe | grpvAnd | grpvOr | grpvAdd | qxfer | wprio =>
    cases h
    simp [candidate, candidateD, baseFields]
  case enq | qpost | qwait | fsopen | fsclose | fswait | lpost | lsend | lpoll | lqpQuery | lqpReset | lqpInit
      | lqpReady =>
    cases h
    simp [candidate, candidateE, baseFields]
  case pkrd | pkwr | pkclr | pkres | pkret | pkredir | pkkill | pgmap | pgunmap | pginv | mdrd | mdwr | flrd | flclr
      | clkrd =>
    cases h
    simp [candidate, candidateF, baseFields]
  case ctxrd d sel ctx => cases ctx <;> cases h <;> simp [candidate, candidateF, baseFields]
  all_goals cases h

theorem decode_encode {i : Instr} {f : Fields} (hw : wellFormed i = true) (h : encodeFields i = some f) :
    decode f.toWord = .ok i :=
  decode_of_candidate i f h (fieldsOf_toWord f) (candidate_of_encode i f h) hw

/-- Both are what the opcode map reads from the same fields. -/
theorem encodeFields_injective {i j : Instr} {f : Fields} (hi : encodeFields i = some f) (hj : encodeFields j = some f) :
    i = j :=
  Option.some.inj ((candidate_of_encode i f hi).symm.trans (candidate_of_encode j f hj))

/-- Settles O58: the opcode map is a left inverse of the encoder, and the decoder accepts only what the encoder writes. -/
theorem roundTrip : Obligations.RoundTrip := by
  unfold Obligations.RoundTrip
  refine ⟨fun i f hw h => ?_, fun i j f _ _ hi hj => encodeFields_injective hi hj, fun w i h => ?_⟩
  · rw [decodeBytes_bytesOfWord]
    exact ⟨decode_encode hw h, decode_encode hw h⟩
  · obtain ⟨hw, he⟩ := wellFormed_of_decode w i h
    exact ⟨hw, fieldsOf w, he, toWord_fieldsOf w⟩

end Sys2Proof

/-! Transfers whose target fails its check (R85, R88, R141, R146): they adjourn before their condition is looked at. -/
namespace Sys2Proof.Machine

/-- What executes is a fragment, so that a branch acts for its wave (R102). -/
theorem Clear.onSeqStream {s : State} {h : Here} {rs : List Nat} (c : Clear s h rs) : s.onSeqStream = false := by
  obtain ⟨-, -, -, hcur⟩ := here_spec c.here
  rw [State.onSeqStream, hcur]

theorem landed_bad (h : Here) (s : State) {x : Landing} (hx : x.dest = none) :
    h.landed s x = .error (.trap { h.report x.causes with faddr := x.faddr } s) := by
  rw [Here.landed, hx]

theorem brc_bad {s s1 : State} {h : Here} {t : W32} {x : Landing}
    (hl : h.relLanding s (target1 h.f.pc t) (rawTarget h.f.pc t) = .ok (s1, x)) (hx : x.dest = none) (cond : Bool) :
    h.brc s t cond = .error (.trap { h.report x.causes with faddr := x.faddr } s1) := by
  simp only [Here.brc, hl, landed_bad h s1 hx, bind, Except.bind]

theorem jumpTo_bad (s : State) (h : Here) {v : W64} (hv : pcForm v = false) :
    h.jumpTo s v = .error (.trap { h.report cBADTARGET with faddr := v } s) := by
  have hl : h.absLanding s v = .ok (s, { causes := cBADTARGET, faddr := v }) := by rw [Here.absLanding, hv]; rfl
  simp only [Here.jumpTo, hl, landed_bad h s (x := { causes := cBADTARGET, faddr := v }) rfl, bind, Except.bind]

section BadTarget
variable {s : State} {h : Here} (c : Clear s h []) (hw : h.w.mustWait s h.key = false)
include c hw

/-- R141: br is the branch that is always taken; no condition is reached where the target fails. -/
theorem Clear.branch_adjourns {s1 : State} {t : W32} {x : Landing}
    (hl : h.relLanding s (target1 h.f.pc t) (rawTarget h.f.pc t) = .ok (s1, x)) (hx : x.dest = none)
    (a : BitVec 6) (b : BitVec 4) :
    ∀ i ∈ [Instr.br t, .brcNeS a t, .brcEqS a t, .brcAnyP b t, .brcAllP b t, .brcNoneP b t],
      exec i s = .next (s1.adjourn h.key h.side { h.report x.causes with faddr := x.faddr }) := by
  have brc (u : Uses) (hu : u.vr ++ u.nm ++ u.vw = []) (hi : u.indexed = false) (cond : Here → Bool) :
      onWave Guard.none u s (fun h => h.brc s t (cond h)) =
        .next (s1.adjourn h.key h.side { h.report x.causes with faddr := x.faddr }) :=
    c.onWave_trap _ u _ (by simp [hu]) (.inl hi) hw (brc_bad hl hx (cond h))
  have br : exec (.br t) s = onWave Guard.none {} s fun h => h.brc s t true := by
    have hexec : exec (.br t) s = execBr t s := rfl
    rw [hexec, execBr, c.onSeqStream]
    rfl
  simp only [List.forall_mem_cons, List.not_mem_nil, false_imp_iff, implies_true, and_true]
  exact ⟨br.trans (brc {} rfl rfl fun _ => true), brc { sr := [a.toNat] } rfl rfl _, brc { sr := [a.toNat] } rfl rfl _,
    brc { pr := [b.toNat] } rfl rfl _, brc { pr := [b.toNat] } rfl rfl _, brc { pr := [b.toNat] } rfl rfl _⟩

theorem Clear.ret_adjourns {a : BitVec 6} (hv : pcForm (h.s a) = false) :
    exec (.ret a) s = .next (s.adjourn h.key h.side { h.report cBADTARGET with faddr := h.s a }) :=
  c.onWave_trap Guard.none { sr := [a.toNat] } (fun h => h.jumpTo s (h.s a)) (by simp) (.inl rfl) hw (jumpTo_bad s h hv)

theorem Clear.jmp_adjourns {a : BitVec 6} {e : W32} (hv : pcForm (h.s a + e.signExtend 64) = false) :
    exec (.jmp a e) s = .next (s.adjourn h.key h.side { h.report cBADTARGET with faddr := h.s a + e.signExtend 64 }) :=
  c.onWave_trap Guard.none { sr := [a.toNat] } (fun h => h.jumpTo s (h.s a + sext64 e)) (by simp) (.inl rfl) hw
    (jumpTo_bad s h hv)

end BadTarget

/-- Settles O14: the check of a relative target answers what is reported, whether it is not formed or does not land. -/
theorem badTargetsAdjourn : Obligations.BadTargetsAdjourn := by
  unfold Obligations.BadTargetsAdjourn
  refine fun s h c hw => ⟨fun t e he a b => ?_, fun t p x s1 hp hl hx a b => ?_, fun a => c.ret_adjourns hw,
    fun a e => c.jmp_adjourns hw⟩
  · exact c.branch_adjourns hw (x := { causes := e, faddr := if e = cBADTARGET then rawTarget h.f.pc t else 0 })
      (by rw [he]; rfl) rfl a b
  · exact c.branch_adjourns hw (by simp only [Here.relLanding, hp, hl]) hx a b

end Sys2Proof.Machine

/-! The decoder on words of the encoding tables (R92 to R109). -/
namespace Sys2Proof

/-- R108: a word decodes to the well-formed instruction whose fields it has, and to nothing else. -/
theorem decode_eq_ok_iff (w : BitVec 96) (i : Instr) :
    decode w = .ok i ↔ wellFormed i = true ∧ encodeFields i = some (fieldsOf w) := by
  refine ⟨wellFormed_of_decode w i, fun ⟨hw, he⟩ => ?_⟩
  rw [← toWord_fieldsOf w]
  exact decode_encode hw he

/-- R108: a word whose opcode map reads an instruction that has other fields decodes to nothing. -/
theorem decode_ne_ok_of_stray {w : BitVec 96} {j : Instr} (hc : candidate (fieldsOf w) = some j)
    (he : encodeFields j ≠ some (fieldsOf w)) (i : Instr) : decode w ≠ .ok i := by
  intro h
  obtain ⟨-, hi⟩ := wellFormed_of_decode w i h
  rw [Option.some.inj (hc.symm.trans (candidate_of_encode i _ hi))] at he
  exact he hi

/-- R101: a word whose opcode is not assigned decodes to nothing. -/
theorem decode_ne_ok_of_unassigned {w : BitVec 96} (hc : candidate (fieldsOf w) = none) (i : Instr) : decode w ≠ .ok i := by
  intro h
  obtain ⟨-, hi⟩ := wellFormed_of_decode w i h
  rw [candidate_of_encode i _ hi] at hc
  cases hc

/-- Settles O57: each word has the fields of its instruction; the first that does not decode is nop with a bit of IMM, the
second has opcode 0x0F. -/
theorem decodedWords : Obligations.DecodedWords := by
  unfold Obligations.DecodedWords
  simp only [decode_eq_ok_iff]
  refine ⟨⟨rfl, by decide⟩, ⟨rfl, by decide⟩, ⟨rfl, by decide⟩, ⟨rfl, by decide⟩, ⟨rfl, by decide⟩, ⟨rfl, by decide⟩,
    decode_ne_ok_of_stray (j := .nop) rfl (by decide), decode_ne_ok_of_unassigned rfl⟩

end Sys2Proof

/-! The state at reset. -/
namespace Sys2Proof.Machine

/-- R271: where no cache holds a line and no crew holds a window, memory is coherent. -/
theorem coherent_of_uncached {s : State} (hl2 : s.mem.l2 = []) (hdir : s.mem.dir = []) (hbad : s.mem.dirBad = [])
    (hcrews : s.crews = []) : Coherent s := by
  intro l _
  constructor
  case reached =>
    intro d hd
    have hnone : s.winDies l false = 0 := by rw [State.winDies, hcrews]; rfl
    simp [hnone] at hd
  all_goals simp [hl2, hdir, hbad, Table.get?]

/-- R270: where the directory names no owner, a byte is the one of main memory. -/
theorem byteAt_of_uncached {m : MemSys} (hdir : m.dir = []) (a : Nat) : m.byteAt a = m.ram.read a := by
  rw [MemSys.byteAt, MemSys.ownerData, hdir]
  rfl

theorem reset_ctx_free {c : Nat} (hc : c ≠ 0) : (State.reset.ctx c).st = .free := by
  simp [State.ctx, State.reset, Table.get?, Ne.symm hc]

/-- Settles O60: the tables of `State.reset` are empty but for context 0, and what is not in a table has its default. -/
theorem resetState : Obligations.ResetState :=
  ⟨rfl, rfl, rfl, rfl, rfl, rfl, rfl, rfl, rfl, fun _ => rfl, fun _ _ => rfl, rfl, fun _ => reset_ctx_free, rfl, rfl, rfl, rfl,
    fun _ => rfl, fun _ _ => rfl, reset_memWf, coherent_of_uncached rfl rfl rfl rfl, fun a => byteAt_of_uncached rfl a⟩

end Sys2Proof.Machine

/-! A step: the turn that the agenda names, the issue of the word that the line holds, and what follows. -/
namespace Sys2Proof.Machine

theorem step_of_agenda {s : State} {t : Turn} {rest : List Turn} (ha : s.agenda = t :: rest) :
    step s = State.turned { s with agenda := rest } (turn t { s with agenda := rest }) := by
  simp only [step, nextTurn, ha, fullTurn]

/-! R478: out of reset a turn is its action; in reset only the end of it is. -/
section Turns
variable {s : State} (hr : s.health.inReset = false)
include hr

theorem turn_issue (k : Nat) (b : Bool) : turn (.issue k b) s = issueTurn k b s := by simp only [turn, hr]; rfl

theorem turn_seqIssue (k : Nat) : turn (.seqIssue k) s = seqIssueTurn k s := by simp only [turn, hr]; rfl

theorem turn_event {i : Instr} (he : encodeFields i = none) : turn (.event i) s = exec i { s with cur := none } := by
  simp only [turn, hr, he]
  rfl

theorem turn_elapse (n : W64) : turn (.elapse n) s = .next { s with clk := s.clk + n } := by simp only [turn, hr]; rfl

end Turns

theorem turn_inReset {s : State} (hr : s.health.inReset = true) {t : Turn} (ht : t.inReset = false) :
    turn t s = .next s := by
  simp only [turn, hr, ht]
  rfl

/-! One word of a wave's stream. -/

theorem issueWord_decoded {w : BitVec 96} {i : Instr} (hw : waveStream w = true) (hd : decode w = .ok i) (h : Here)
    (s : State) : issueWord w h s = exec i s := by
  simp only [issueWord, hw, hd]
  rfl

/-- R102, R108: a word of no stream of waves, or one that decodes to nothing, adjourns the wave with ILL. -/
theorem issueWord_ill {w : BitVec 96} (hw : waveStream w = false ∨ ∀ i, decode w ≠ .ok i) {h : Here} {s : State}
    (hm : h.w.mustWait s h.key = false) : issueWord w h s = .next (s.adjourn h.key h.side (h.report cILL)) := by
  have hill : h.finish (h.settle s (.error (.trap (h.report cILL) s))) = .next (s.adjourn h.key h.side (h.report cILL)) := by
    simp only [Here.settle, hm]
    rfl
  cases hws : waveStream w with
  | false => simpa only [issueWord, hws, Bool.not_false, if_true] using hill
  | true =>
    cases hd : decode w with
    | ok i => exact absurd hd ((hw.resolve_left (by simp [hws])) i)
    | error e => simpa only [issueWord, hws, hd, Bool.not_true, Bool.false_eq_true, if_false] using hill

theorem issueHeld_single {h : Here} {l : CodeLine} (hh : h.w.held h.side h.f = false)
    (hp : linePair l (slotOf h.f.pc) = false) (s : State) :
    issueHeld h l s = issueWord (lineWord l (slotOf h.f.pc)) h s := by
  simp only [issueHeld, hh, hp]
  rfl

/-- R87, R385, R394: a fragment with a budget that has not arrived enters its line and, unless another is picked, issues. -/
theorem issueTurn_held {s0 s1 : State} {k : Nat} {b : Bool} {h0 h : Here} {l : CodeLine} (e0 : s0.fragment k b = some h0)
    (hb : h0.w.budget ≠ 0) (ha : h0.f.arrived = false) (hl : h0.enterLine s0 = .ok s1)
    (e : State.fragment { s1 with cur := some (.frag k b) } k b = some h) (hf : h.f.fetch = .line l)
    (ho : ¬ (h.f.wait = .none ∧ State.outranked { s1 with cur := some (.frag k b) } k b h = true)) :
    issueTurn k b s0 = h.after (issueHeld h l { s1 with cur := some (.frag k b) }) := by
  simp only [issueTurn, e0, hb, ha, hl, e, hf, ho, if_false, Bool.false_eq_true]

/-! The word of a sequencer's stream. -/

/-- A sequencer issues at its PC: it counts the step, and a watch that is over is classified (R377). -/
def State.seqIssuing (s : State) (k : Nat) : State :=
  { (s.noteSeqIssue k) with
    cur := some (.seq k), seqs := (s.noteSeqIssue k).seqs.modify k fun i => { i with steps := i.steps + 1 } }

section SeqIssue
variable {s0 s1 : State} {k : Nat} {h0 h : SeqHere} {l : CodeLine}
  (e0 : ({ s0 with cur := some (.seq k) } : State).seqHere = some h0) (hb : h0.i.budget ≠ 0)
  (hl : h0.enterLine s0 = .ok s1) (e : (s1.seqIssuing k).seqHere = some h) (hf : h.i.fetch = .line l)
include e0 hb hl e hf

theorem seqIssueTurn_decoded {i : Instr} (hw : seqStream (lineWord l (slotOf h.i.pc)) = true)
    (hd : decode (lineWord l (slotOf h.i.pc)) = .ok i) : seqIssueTurn k s0 = exec i (s1.seqIssuing k) := by
  rw [State.seqIssuing] at e ⊢
  simp only [seqIssueTurn, e0, hb, hl, e, hf, hw, hd, if_false, Bool.not_true, Bool.false_eq_true]

/-- R102, R108, R283: the operations issued before it are complete, so that the cause adjourns the tile task. -/
theorem seqIssueTurn_ill
    (hw : seqStream (lineWord l (slotOf h.i.pc)) = false ∨ ∀ i, decode (lineWord l (slotOf h.i.pc)) ≠ .ok i)
    (ho : h.i.ops = []) :
    seqIssueTurn k s0 = .next ((s1.seqIssuing k).adjournInst h.key (h.report cILL)) := by
  have hill (s : State) : h.finish s (.error (.trap (h.report cILL) s)) = .next (s.adjournInst h.key (h.report cILL)) := by
    simp only [SeqHere.finish, ho, if_true]
  rw [State.seqIssuing] at e ⊢
  cases hws : seqStream (lineWord l (slotOf h.i.pc)) with
  | false => simp only [seqIssueTurn, e0, hb, hl, e, hf, hws, hill, if_false, Bool.not_false, if_true]
  | true =>
    cases hd : decode (lineWord l (slotOf h.i.pc)) with
    | ok i => exact absurd hd ((hw.resolve_left (by simp [hws])) i)
    | error x => simp only [seqIssueTurn, e0, hb, hl, e, hf, hws, hd, hill, if_false, Bool.not_true, Bool.false_eq_true]

end SeqIssue

/-! What an issue notes (R385, R386, R394). -/

theorem Table.get?_mapValues {α : Type} (f : Nat → α → α) (k : Nat) :
    ∀ t : Table α, Table.get? (t.map fun x => (x.1, f x.1 x.2)) k = (t.get? k).map (f k)
  | [] => rfl
  | (j, v) :: t => by
    by_cases h : j = k
    · subst h
      simp [Table.get?]
    · simpa [Table.get?, h] using Table.get?_mapValues f k t

/-- A fragment of the core after an issue: the one that has issued, or another. -/
def Fragment.noted (f : Fragment) (mine yields : Bool) : Fragment :=
  if mine then { f with age := 0, aged := false, idle := 0, yielded := yields } else { f with idle := f.idle + 1, yielded := false }

/-- Wave `k` after the note of an issue by `h`. -/
def Wave.noted (w : Wave) (h : Here) (yields : Bool) (k : Nat) : Wave :=
  if w.core = h.w.core then
    { w with fa := w.fa.map (·.noted (k = h.key ∧ false = h.side) yields)
             fb := w.fb.map (·.noted (k = h.key ∧ true = h.side) yields)
             issuedB := if k = h.key then h.side else w.issuedB }
  else w

theorem noteIssue_get? {s : State} {k : Nat} {w : Wave} (e : s.waves.get? k = some w) (h : Here) (y : Bool) :
    (s.noteIssue h y).waves.get? k = some (w.noted h y k) := by
  have hmap : (s.noteIssue h y).waves = s.waves.map fun x => (x.1, x.2.noted h y x.1) :=
    List.map_congr_left fun x _ => by
      by_cases hc : x.2.core = h.w.core
      · simp [Wave.noted, Fragment.noted, hc]
      · simp [Wave.noted, hc]
  rw [hmap, Table.get?_mapValues fun k w => Wave.noted w h y k, e]
  rfl

section Noted
variable {w : Wave} {h : Here} (y : Bool) (k : Nat)

theorem Wave.noted_other (hc : w.core ≠ h.w.core) : w.noted h y k = w := if_neg hc

theorem Wave.noted_rest (hc : w.core = h.w.core) :
    { w.noted h y k with fa := w.fa, fb := w.fb, issuedB := w.issuedB } = w := by
  rw [Wave.noted, if_pos hc]

theorem Wave.noted_issuedB (hc : w.core = h.w.core) : (w.noted h y k).issuedB = if k = h.key then h.side else w.issuedB := by
  rw [Wave.noted, if_pos hc]

theorem Wave.noted_frag (hc : w.core = h.w.core) (b : Bool) :
    (w.noted h y k).frag b = (w.frag b).map (·.noted (k = h.key ∧ b = h.side) y) := by
  rw [Wave.noted, if_pos hc]
  cases b <;> rfl

end Noted

/-! What follows a turn (R257, R390, R397). -/

theorem seeGains_none {s : State} {d : Nat} (hc : s.candCtxs d = []) (hh : ∀ x ∈ s.ctxs, x.2.had = 0) : s.seeGains d = s := by
  simp only [State.seeGains, hc, List.foldl_nil]
  refine congrArg (fun c => { s with ctxs := c }) ((List.map_congr_left (g := id) fun x hx => ?_).trans (List.map_id _))
  simp [hh x hx]

theorem seeAllGains_none {s : State} (hc : ∀ d, d < 8 → s.candCtxs d = []) (hh : ∀ x ∈ s.ctxs, x.2.had = 0) :
    s.seeAllGains = s := by
  have hfold : ∀ ds : List Nat, (∀ d ∈ ds, d < 8) → ds.foldl State.seeGains s = s := by
    intro ds
    induction ds with
    | nil => exact fun _ => rfl
    | cons d ds ih =>
      intro hd
      rw [List.foldl_cons, seeGains_none (hc d (hd d List.mem_cons_self)) hh]
      exact ih fun x hx => hd x (List.mem_cons_of_mem d hx)
  exact hfold _ fun d hd => List.mem_range.mp hd

theorem afterTurn_quiet {s t : State} (hclk : s.clk = t.clk) (ho : t.stores.owner = [])
    (hflag : (t.waves.all fun x => !x.2.onFlag) = true) (hc : ∀ d, d < 8 → t.candCtxs d = [])
    (hh : ∀ x ∈ t.ctxs, x.2.had = 0) : s.afterTurn t = t := by
  have htidy : t.tidyOwners = t := by rw [State.tidyOwners, ho]; rfl
  have hany : (t.waves.any fun x => x.2.onFlag) = false := by simpa using hflag
  have hsee : t.seeFlags false = t := by rw [State.seeFlags, hany]; rfl
  simp only [State.afterTurn, hclk, bne_self_eq_false, Bool.false_eq_true, if_false, if_true, htidy, hsee,
    seeAllGains_none hc hh]

/-! The line that a fetch enters (R87, R92). -/

theorem fetchLine_ok {s s1 : State} {core ctx addr pa : Nat} (ht : s.translate core ctx addr .fetch = (s1, .ok pa))
    (hp : s1.poisoned (pa / 128) = false) :
    let l : CodeLine := BitVec.ofNat 512 (s1.getNat pa 64)
    (s.fetchLine core ctx addr).2 = .ok (if parityOk l = true then some l else none) := by
  simp only [State.fetchLine, ht, hp, Bool.false_eq_true, if_false]

theorem byteOf_getNat (s : State) (pa : Nat) {j : Nat} (hj : j < 64) :
    byteOf (BitVec.ofNat 512 (s.getNat pa 64)) j = s.readAt (pa + j) :=
  byteOf_leNat 64 (fun i => s.readAt (pa + i)) j hj

/-- Settles O56: the agenda names the turn; each kind of turn, its note and what follows it are the lemmas above. -/
theorem stepRunsDecoded : Obligations.StepRunsDecoded := by
  unfold Obligations.StepRunsDecoded
  refine ⟨?wave, ?after, ?note, ?sequencer, ?event, ?elapse, ?inReset, ?turned, ?fetch⟩
  case wave =>
    intro s k b rest h0 s1 h l hr hag s0 e0 hb ha hl s2 e hf ho hh hp w
    have hissue : step s = s0.turned (h.after (issueWord w h s2)) := by
      have hturn : turn (.issue k b) s0 = h.after (issueWord w h s2) := by
        rw [turn_issue (s := s0) hr, issueTurn_held e0 hb ha hl e hf ho, issueHeld_single hh hp]
      exact (step_of_agenda hag).trans (congrArg s0.turned hturn)
    exact ⟨fun i hw hd => by rw [hissue, issueWord_decoded hw hd], fun hw hm => by rw [hissue, issueWord_ill hw hm]⟩
  case after => exact fun s h => ⟨fun hn => by rw [Here.after, hn]; rfl, fun hi => by rw [Here.after, hi]; rfl⟩
  case note =>
    exact fun s h y k w e => ⟨fun hc => by rw [noteIssue_get? e, Wave.noted_other y k hc],
      fun hc => ⟨_, noteIssue_get? e h y, Wave.noted_rest y k hc, Wave.noted_issuedB y k hc, fun b => by
        rw [Wave.noted_frag y k hc]; simp only [Fragment.noted, decide_eq_true_eq]⟩⟩
  case sequencer =>
    intro s k rest h0 s1 h l hr hag s0 e0 hb hl s2 e hf w
    have hissue : step s = s0.turned (seqIssueTurn k s0) :=
      (step_of_agenda hag).trans (congrArg s0.turned (turn_seqIssue (s := s0) hr k))
    exact ⟨fun i hw hd => hissue.trans (congrArg s0.turned (seqIssueTurn_decoded e0 hb hl e hf hw hd)),
      fun hw ho => hissue.trans (congrArg s0.turned (seqIssueTurn_ill e0 hb hl e hf hw ho))⟩
  case event =>
    exact fun s i rest hr hag he =>
      (step_of_agenda hag).trans (congrArg _ (turn_event (s := { s with agenda := rest }) hr he))
  case elapse =>
    exact fun s n rest hr hag =>
      (step_of_agenda hag).trans (congrArg _ (turn_elapse (s := { s with agenda := rest }) hr n))
  case inReset =>
    exact fun s t rest hr hag ht =>
      (step_of_agenda hag).trans (congrArg _ (turn_inReset (s := { s with agenda := rest }) hr ht))
  case turned => exact fun s t hclk => ⟨by simp only [State.turned, hclk, if_true], afterTurn_quiet hclk⟩
  case fetch =>
    intro s core ctx addr s1 pa ht hp l
    exact ⟨fetchLine_ok ht hp, fun j hj => byteOf_getNat s1 pa hj,
      fun hc hpa j hj => (byteOf_getNat s1 pa hj).trans (readAt_coherent hc (by omega))⟩

end Sys2Proof.Machine

/-! Scalar integer, bit, move, address and special-register instructions: each meaning writes one scalar (R153 to R159). -/
namespace Sys2Proof.Machine

section ScalarWrites
variable {s : State} {h : Here} {rs : List Nat} (c : Clear s h rs)
include c

/-- R153: a two-source class 0x1 instruction writes its narrowed exact result. -/
theorem Clear.scalarInt2 {i : Instr} {o : SInt} {f : Nat → Nat → Int} (e : ∀ s, exec i s = scalarInt2 o f s) :
    ScalarResult i s h o.d (fillS o.ty (narrow o.ty o.sat (f (h.s o.a).toNat (h.srcS o.ty o.b)))) :=
  c.scalarResult ((e s).trans (c.onWave_ok _ _ _ (by simp) (.inl rfl) rfl))

/-- R153: the form of three sources. -/
theorem Clear.scalarInt {i : Instr} {o : SInt} {f : Nat → Nat → Nat → Int} (e : ∀ s, exec i s = scalarInt o f s) :
    ScalarResult i s h o.d (fillS o.ty (narrow o.ty o.sat (f (h.s o.a).toNat (h.srcS o.ty o.b) (h.s o.c).toNat))) :=
  c.scalarResult ((e s).trans (c.onWave_ok _ _ _ (by simp) (.inl rfl) rfl))

/-- An instruction that computes one scalar from scalars and from the state writes it and nothing else. -/
theorem Clear.scalarMove {i : Instr} {d : BitVec 6} {srcs : List (BitVec 6)} {f : State → Here → W64}
    (e : ∀ s, exec i s = scalarMove d srcs (f s) s) : ScalarResult i s h d (f s h) :=
  c.scalarResult ((e s).trans (c.onWave_ok _ _ _ (by simp) (.inl rfl) rfl))

/-- R66: srd reads the special register as the executing fragment sees it. -/
theorem Clear.srd (d : BitVec 6) (x : SReg) : ScalarResult (.srd d x) s h d (h.special s x) :=
  c.scalarMove (f := fun s h => h.special s x) fun _ => rfl

/-- R67: Z of the executing fragment stands above the wave's mode bits. -/
theorem Clear.special_mode : h.special s .mode = h.f.z ++ h.w.mode := by
  obtain ⟨-, -, hf, -⟩ := here_spec c.here
  simp only [Here.special, Wave.modeOf, hf]

/-- R157: sel takes its first source where the condition is not 0. -/
theorem Clear.sel (d a b cond : BitVec 6) :
    ScalarResult (.sel d a b cond) s h d (if h.s cond = 0 then h.s b else h.s a) := by
  have hsel : (if h.s cond != 0 then h.s a else h.s b) = if h.s cond = 0 then h.s b else h.s a := by
    by_cases h0 : h.s cond = 0 <;> simp [h0]
  rw [← hsel]
  exact c.scalarMove (f := fun _ h => if h.s cond != 0 then h.s a else h.s b) fun _ => rfl

end ScalarWrites

/-- Settles O1: the fourteen two-source instructions are one meaning over their exact results, mad is the other. -/
theorem scalarIntegerResults : Obligations.ScalarIntegerResults := by
  unfold Obligations.ScalarIntegerResults
  have two {mk : SInt → Instr} (f : Ty → Nat → Nat → Int) (e : ∀ o s, exec (mk o) s = scalarInt2 o (f o.ty) s) :
      ∀ o s h, Clear s h [] → ScalarResult (mk o) s h o.d
        (fillS o.ty (narrow o.ty o.sat (f o.ty (h.s o.a).toNat (h.srcS o.ty o.b)))) :=
    fun o _ _ c => c.scalarInt2 (e o)
  simp only [List.forall_mem_cons, List.not_mem_nil, false_imp_iff, implies_true, and_true]
  refine ⟨⟨two intAdd ?_, two intSub ?_, two intMul ?_, two intMulh ?_, two intDiv ?_, two intRem ?_, two intAnd ?_,
    two intOr ?_, two intXor ?_, two intShl ?_, two intShr ?_, two intSar ?_, two intMin ?_, two intMax ?_⟩,
    fun o s h c => c.scalarInt (f := intMad o.ty) fun _ => rfl⟩
  all_goals exact fun _ _ => rfl

/-- Settles O2: every clause is one scalar computed from scalars; only the mode register needs that the fragment executes. -/
theorem scalarMoveResults : Obligations.ScalarMoveResults := by
  unfold Obligations.ScalarMoveResults
  refine fun s h c => ⟨fun ty d a => ?clz, fun ty d a => ?popc, fun ty d a => ?brev, fun ty d a pos len => ?bfe,
    fun d a b pos len => ?bfi, c.sel, fun d a => ?mov, fun d e => ?movi, fun d e => ?movh, fun d a b sh disp => ?lea,
    fun d => ⟨c.srd d .clk, c.special_mode ▸ c.srd d .mode, c.srd d .alloc⟩, c.srd⟩
  case clz => exact c.scalarMove (f := fun _ h => BitVec.ofNat 64 (clzOf ty.width (h.s a).toNat)) fun _ => rfl
  case popc => exact c.scalarMove (f := fun _ h => BitVec.ofNat 64 (popcOf ty.width (h.s a).toNat)) fun _ => rfl
  case brev => exact c.scalarMove (f := fun _ h => BitVec.ofNat 64 (brevOf ty.width (h.s a).toNat)) fun _ => rfl
  case bfe =>
    exact c.scalarMove (f := fun _ h => BitVec.ofInt 64 (fieldOf 64 ty.isS (h.s a).toNat pos.toNat len.toNat)) fun _ => rfl
  case bfi =>
    exact c.scalarMove (f := fun _ h => BitVec.ofNat 64 (fieldSet 64 (h.s a).toNat (h.s b).toNat pos.toNat len.toNat))
      fun _ => rfl
  case mov => exact c.scalarMove (f := fun _ h => h.s a) fun _ => rfl
  case movi => exact c.scalarMove (f := fun _ _ => sext64 e) fun _ => rfl
  case movh => exact c.scalarMove (f := fun _ h => pair64 ((h.s d).setWidth 32) e) fun _ => rfl
  case lea => exact c.scalarMove (f := fun _ h => h.s a + (h.s b <<< sh.toNat) + disp.signExtend 64) fun _ => rfl

end Sys2Proof.Machine

/-! Transfers whose target passes its check (R85, R134, R141, R144 to R146): branches, computed transfers and calls. -/
namespace Sys2Proof.Machine

theorem Lands.relLanding {s s1 : State} {h : Here} {p : Pc} {l : CodeLine} (hl : Lands s h p l s1) {t : Except W64 Pc}
    (ht : t = .ok p) (raw : W64) : h.relLanding s t raw = .ok (s1, { dest := some (p, l) }) := by
  simp only [Here.relLanding, ht, show s.landing h.w.core (s.ctxOf h.w) p = _ from hl]

theorem Lands.absLanding {s s1 : State} {h : Here} {v : W64} {l : CodeLine} (hl : Lands s h (v.setWidth 56) l s1)
    (hv : pcForm v = true) : h.absLanding s v = .ok (s1, { dest := some (v.setWidth 56, l) }) := by
  simp only [Here.absLanding, hv, show s.landing h.w.core (s.ctxOf h.w) (v.setWidth 56) = _ from hl, Bool.not_true,
    Bool.false_eq_true, if_false]

theorem brc_lands {s s1 : State} {h : Here} {t : W32} {p : Pc} {l : CodeLine} (ht : target1 h.f.pc t = .ok p)
    (hl : Lands s h p l s1) (cond : Bool) : h.brc s t cond = .ok (if cond then h.goto s1 p else h.done s1 id) := by
  simp only [Here.brc, hl.relLanding ht, Here.landed, bind, Except.bind]

theorem jumpTo_lands {s s1 : State} {h : Here} {v : W64} {l : CodeLine} (hv : pcForm v = true)
    (hl : Lands s h (v.setWidth 56) l s1) : h.jumpTo s v = .ok (h.goto s1 (v.setWidth 56)) := by
  simp only [Here.jumpTo, hl.absLanding hv, Here.landed, bind, Except.bind]

/-- R425: a cause adjourns the wave where no fragment of it must finish an instruction first. -/
theorem finish_trap {s : State} {h : Here} (hw : h.w.mustWait s h.key = false) (r : Report) (s1 : State) :
    h.finish (h.settle s (.error (.trap r s1))) = .next (s1.adjourn h.key h.side r) := by
  rw [Here.settle, hw]
  rfl

section Transfers
variable {s s1 : State} {h : Here} {rs : List Nat} (c : Clear s h rs)
include c

/-- An instruction that names no vector register runs its meaning, which adjourns the wave where it meets a cause. -/
theorem Clear.onWave_scalars (sr pr : List Nat) (k : Here → Except Abort State) :
    onWave Guard.none { sr, pr } s k = h.finish (h.settle s (k h)) := by
  simp only [onWave_of_here c.here, c.check (h.part Guard.none) { sr, pr } (by simp) (.inl rfl), bind, Except.bind]

/-- R141: in a wave, br is the branch that is always taken. -/
theorem Clear.exec_br (t : W32) : exec (.br t) s = onWave Guard.none {} s fun h => h.brc s t true := by
  have e : exec (.br t) s = execBr t s := rfl
  rw [e, execBr, c.onSeqStream]
  rfl

/-- R141: a branch whose target passes goes there if its condition holds, and goes on if not. -/
theorem Clear.branch_lands {i : Instr} {sr pr : List Nat} {t : W32} {p : Pc} {l : CodeLine} {cond : Here → Bool}
    (e : exec i s = onWave Guard.none { sr, pr } s fun h => h.brc s t (cond h)) (ht : target1 h.f.pc t = .ok p)
    (hl : Lands s h p l s1) {P : Prop} (hP : cond h = true ↔ P) :
    (P → exec i s = .next (h.goto s1 p)) ∧ (¬ P → exec i s = .next (h.done s1 id)) := by
  have hexec : exec i s = .next (if cond h then h.goto s1 p else h.done s1 id) := by
    rw [e, c.onWave_scalars, brc_lands ht hl]
    rfl
  exact ⟨fun hp => by rw [hexec, if_pos (hP.mpr hp)], fun hp => by rw [hexec, if_neg (mt hP.mp hp)]⟩

/-- R146: a computed transfer goes to its target. -/
theorem Clear.jump_lands {i : Instr} {sr : List Nat} {v : Here → W64} {l : CodeLine}
    (e : exec i s = onWave Guard.none { sr } s fun h => h.jumpTo s (v h)) (hv : pcForm (v h) = true)
    (hl : Lands s h ((v h).setWidth 56) l s1) : exec i s = .next (h.goto s1 ((v h).setWidth 56)) := by
  rw [e, c.onWave_scalars, jumpTo_lands hv hl]
  rfl

end Transfers

/-- Every active lane has its bit of the predicate set. -/
theorem lanes_and_not_eq_zero_iff (m q : Lanes) : m &&& ~~~q = 0 ↔ m &&& q = m := by
  simp [BitVec.eq_of_getElem_eq_iff]

/-- Settles O13: a branch is its condition over a target that lands, and br is the branch whose condition always holds. -/
theorem branchesLand : Obligations.BranchesLand := by
  unfold Obligations.BranchesLand
  simp only [List.forall_mem_cons, List.not_mem_nil, false_imp_iff, implies_true, and_true]
  refine ⟨fun s h t p l s1 c ht hl => ⟨?br, fun a => ?ne, fun a => ?eq⟩,
    fun s h t p l s1 c ht hl => ⟨fun b => ?any, fun b => ?all, fun b => ?none⟩,
    fun s h a e l s1 c => ⟨c.jump_lands (v := fun h => h.s a) rfl, c.jump_lands (v := fun h => h.s a + sext64 e) rfl⟩⟩
  case br => exact (c.branch_lands (cond := fun _ => true) (c.exec_br t) ht hl (P := True) (by simp)).1 trivial
  case ne => exact c.branch_lands (cond := fun h => h.s a != 0) rfl ht hl (by simp)
  case eq => exact c.branch_lands (cond := fun h => h.s a == 0) rfl ht hl (by simp)
  case any => exact c.branch_lands (cond := fun h => h.f.mask &&& h.w.readP b.toNat != 0) rfl ht hl (by simp)
  case all =>
    exact c.branch_lands (cond := fun h => h.f.mask &&& ~~~(h.w.readP b.toNat) == 0) rfl ht hl
      (by rw [beq_iff_eq, lanes_and_not_eq_zero_iff])
  case none => exact c.branch_lands (cond := fun h => h.f.mask &&& h.w.readP b.toNat == 0) rfl ht hl (by simp)

/-! Calls: the link and the entry budget (R86, R144, R145). -/

theorem linkOf_successor {pc n : Pc} (hn : successor pc = some n) : linkOf pc = n.setWidth 64 := by
  rw [linkOf, hn, Option.getD_some]

theorem linkCause_successor {pc n : Pc} (hn : successor pc = some n) : linkCause pc = 0 := by
  rw [linkCause, hn]
  rfl

/-- R144: a call whose target passes and whose callee's budget fits writes the link and goes there. -/
theorem Clear.call_lands {s s1 : State} {h : Here} {rs : List Nat} (c : Clear s h rs) {d : BitVec 6} {t : W32} {p n : Pc}
    {l : CodeLine} (ht : target1 h.f.pc t = .ok p) (hl : Lands s h p l s1) (hb : entryBudget l ≤ h.w.n)
    (hn : successor h.f.pc = some n) :
    exec (.call d t) s = .next (h.goto s1 p fun w => w.writeS h.side d.toNat (n.setWidth 64)) := by
  have e : exec (.call d t) s = execCall d t s := rfl
  rw [e, execCall, c.onWave_scalars]
  simp only [hl.relLanding ht, linkCause_successor hn, linkOf_successor hn, if_neg (Nat.not_lt.mpr hb), bind, Except.bind]
  rfl

theorem lanesMask_lanesOf (m : Lanes) : lanesMask (lanesOf m) = m := by
  ext l hl
  rw [← BitVec.getLsbD_eq_getElem, ← BitVec.getLsbD_eq_getElem, lanesMask_bit _ _ hl]
  simp only [mem_lanesOf m l hl, Bool.decide_eq_true]

theorem lanesOf_eq_nil_iff (m : Lanes) : lanesOf m = [] ↔ m = 0 :=
  ⟨fun h => by rw [← lanesMask_lanesOf m, h]; rfl, fun h => by rw [h]; decide⟩

section Calli
variable {s s1 : State} {h : Here} {d : BitVec 6} {a : BitVec 8} {n : Pc} (c : Clear s h [a.toNat, a.toNat + 1])
  (hn : successor h.f.pc = some n)
  (hk : h.calliChecks (fun l => h.w.readV64 a.toNat l) s (lanesOf h.f.mask) = .ok (s1, []))
include c hn hk

/-- R145: with no active lane a calli writes the link and goes on. -/
theorem Clear.calli_empty (hm : h.f.mask = 0) :
    exec (.calli d a) s = .next (h.done s1 fun w => w.writeS h.side d.toNat (n.setWidth 64)) := by
  have hlanes : lanesOf h.f.mask = [] := (lanesOf_eq_nil_iff _).mpr hm
  rw [hlanes] at hk
  refine c.onWave_ok Guard.none { vr := [a.toNat, a.toNat + 1] } _ (by simp) (.inl rfl) ?_
  simp only [hk, linkCause_successor hn, linkOf_successor hn, hlanes, bind, Except.bind]
  rfl

/-- R145: a calli whose active lanes agree writes the link once and goes to their target. -/
theorem Clear.calli_agrees {v : W64} (hm : h.f.mask ≠ 0)
    (hv : ∀ l, l < 96 → h.f.mask.getLsbD l = true → h.w.readV64 a.toNat l = v) :
    exec (.calli d a) s = .next (h.goto s1 (v.setWidth 56) fun w => w.writeS h.side d.toNat (n.setWidth 64)) := by
  have hall : ∀ l ∈ lanesOf h.f.mask, h.w.readV64 a.toNat l = v := fun l hl => by
    obtain ⟨hlt, hbit⟩ := List.mem_filter.mp hl
    exact hv l (List.mem_range.mp hlt) hbit
  obtain ⟨l0, ls, hlanes⟩ := List.exists_cons_of_ne_nil (mt (lanesOf_eq_nil_iff _).mp hm)
  have hfirst : h.w.readV64 a.toNat l0 = v := hall l0 (by simp [hlanes])
  have hK : lanesMask ((l0 :: ls).filter fun l => h.w.readV64 a.toNat l == v) = h.f.mask := by
    rw [← hlanes, List.filter_eq_self.mpr fun l hl => by simp [hall l hl], lanesMask_lanesOf]
  rw [hlanes] at hk
  refine c.onWave_ok Guard.none { vr := [a.toNat, a.toNat + 1] } _ (by simp) (.inl rfl) ?_
  simp only [hlanes, hk, linkCause_successor hn, linkOf_successor hn, hfirst, hK, bind, Except.bind]
  rfl

end Calli

/-- Settles O15: the link is the successor, which exists; the lanes of a calli that agree are all of them. -/
theorem callsLink : Obligations.CallsLink := by
  unfold Obligations.CallsLink
  exact ⟨fun s h d t p l s1 n c ht hl hb hn => c.call_lands ht hl hb hn,
    fun s h d a s1 n c hn hk => ⟨c.calli_empty hn hk, fun v => c.calli_agrees hn hk⟩⟩

end Sys2Proof.Machine

/-! Divergence: a brv divides its fragment, a join goes to the target, and two fragments there become one (R135 to R143). -/
namespace Sys2Proof.Machine

theorem Wave.setFrag_comm (w : Wave) (b : Bool) (f g : Option Fragment) :
    (w.setFrag (!b) g).setFrag b f = (w.setFrag b f).setFrag (!b) g := by cases b <;> rfl

/-- The fragment that the lanes K leave: it keeps the rest and reconverges at J, from a PC with its line. -/
def Fragment.remainder (f : Fragment) (K : Lanes) (J : Pc) (pcF : Pc × Fetch) : Fragment :=
  { f with owned := f.owned &&& ~~~K, mask := f.mask &&& ~~~K, recon := some J, pc := pcF.1, fetch := pcF.2, wait := .none }

/-- R135: the executing fragment of the wave `w` is divided in the state `s`. -/
def Here.divided (h : Here) (s : State) (w : Wave) (K : Lanes) (T J : Pc) (pcF : Pc × Fetch) : State :=
  ((s.sharePosts h.f.id s.draw).drawn).putWave h.key ((w.setFrag h.side (some (h.f.remainder K J pcF))).setFrag (!h.side)
    (some { id := s.draw, pc := T, owned := K, mask := K, recon := some J, z := h.f.z }))

section Split
variable {h : Here} (s : State) (K : Lanes) (T J : Pc) (pcF : Pc × Fetch)

/-- R135: with no sibling the taking lanes take the free slot. -/
theorem split_alone (ho : h.w.frag (!h.side) = none) : h.split s K T J pcF = .ok (h.divided s h.w K T J pcF) := by
  rw [Here.divided, ← Wave.setFrag_comm]
  simp only [Here.split, ho, Option.isSome_none, Bool.false_and, Bool.false_eq_true, if_false]
  rfl

/-- R135, R138: a live sibling goes onto the divergence stack first. -/
theorem split_pushes {o : Fragment} (ho : h.w.frag (!h.side) = some o) (hd : h.w.stack.length < 32) :
    h.split s K T J pcF = .ok (h.divided (s.pushFrag h.w o).1 (s.pushFrag h.w o).2 K T J pcF) := by
  have hroom : ¬ h.w.stack.length = 32 := Nat.ne_of_lt hd
  rw [Here.divided, ← Wave.setFrag_comm]
  simp only [Here.split, ho, hroom, decide_false, Bool.and_false, Bool.false_eq_true, if_false]
  rfl

/-- R138: a full divergence stack is a cause. -/
theorem split_deep {o : Fragment} (ho : h.w.frag (!h.side) = some o) (hd : h.w.stack.length = 32) :
    h.split s K T J pcF = .error (.trap (h.report cDIVDEEP) s) := by
  simp only [Here.split, ho, hd, Option.isSome_some, Bool.true_and, decide_true, if_true]

end Split

section Brv
variable {s s1 s2 : State} {h : Here} {b : BitVec 4} {t : W32} {j : BitVec 24} {T J : Pc} {l1 l2 : CodeLine}
  (c : Clear s h []) (hT : target1 h.f.pc t = .ok T) (h1 : Lands s h T l1 s1) (hJ : target2 h.f.pc j = .ok J)
  (h2 : Lands s1 h J l2 s2)
include c hT h1 hJ h2

/-- R142: a brv whose targets pass does what the lanes that take it say. -/
theorem Clear.exec_brv : exec (.brv b t j) s = h.finish (h.settle s (
    if h.f.mask &&& h.w.readP b.toNat = 0 then .ok (h.done s2 id)
    else if h.f.mask &&& h.w.readP b.toNat = h.f.mask then .ok (h.goto s2 T)
    else h.split s2 (h.f.mask &&& h.w.readP b.toNat) T J (advancePc h.f.pc h.f.fetch))) := by
  have e : exec (.brv b t j) s = execBrv b t j s := rfl
  rw [e, execBrv, c.onWave_scalars]
  simp only [h1.relLanding hT, h2.relLanding hJ, bind, Except.bind]

theorem Clear.brv_none (hK : h.f.mask &&& h.w.readP b.toNat = 0) : exec (.brv b t j) s = .next (h.done s2 id) := by
  rw [c.exec_brv hT h1 hJ h2, if_pos hK]
  rfl

theorem Clear.brv_all (h0 : h.f.mask &&& h.w.readP b.toNat ≠ 0) (hK : h.f.mask &&& h.w.readP b.toNat = h.f.mask) :
    exec (.brv b t j) s = .next (h.goto s2 T) := by
  rw [c.exec_brv hT h1 hJ h2, if_neg h0, if_pos hK]
  rfl

theorem Clear.brv_some (h0 : h.f.mask &&& h.w.readP b.toNat ≠ 0) (hK : h.f.mask &&& h.w.readP b.toNat ≠ h.f.mask) :
    exec (.brv b t j) s = h.finish (h.settle s
      (h.split s2 (h.f.mask &&& h.w.readP b.toNat) T J (advancePc h.f.pc h.f.fetch))) := by
  rw [c.exec_brv hT h1 hJ h2, if_neg h0, if_neg hK]

end Brv

/-- Settles O16: what a brv does hangs on the lanes that take it, and a split on the sibling and the divergence stack. -/
theorem splitsDivide : Obligations.SplitsDivide := by
  unfold Obligations.SplitsDivide
  intro s h b t j T J l1 l2 s1 s2 c hT h1 hJ h2 K
  refine ⟨c.brv_none hT h1 hJ h2, c.brv_all hT h1 hJ h2, fun h0 hK => ?_⟩
  have hsplit : exec (.brv b t j) s = _ := c.brv_some hT h1 hJ h2 h0 hK
  refine ⟨fun ho => ?alone, fun o ho hd => ?pushes, fun o ho hd hw => ?deep⟩
  case alone =>
    rw [split_alone s2 _ T J _ ho] at hsplit
    exact ⟨_, _, _, hsplit, rfl, rfl, rfl, rfl, rfl, rfl, rfl, rfl⟩
  case pushes =>
    rw [split_pushes s2 _ T J _ ho hd] at hsplit
    exact ⟨_, _, _, hsplit, State.putWave_get _ _ _, by rw [Wave.setFrag_stack, Wave.setFrag_stack]; rfl,
      Wave.frag_setFrag_same _ _ _⟩
  case deep =>
    rw [hsplit, split_deep s2 _ T J _ ho hd]
    exact finish_trap hw _ _

/-! join (R143). -/

theorem goto_fragment {s : State} {h : Here} (e : s.here = some h) (s1 : State) (p : Pc) :
    (h.goto s1 p).fragment h.key h.side = some { h with w := h.w.setFrag h.side (some (h.f.jump p)), f := h.f.jump p } := by
  obtain ⟨-, hlive, hf, -⟩ := here_spec e
  simp only [Here.goto, id, hf, Option.getD_some, State.fragment, State.putWave_get, Wave.setFrag_status, hlive,
    Wave.frag_setFrag_same]

/-- A jump to the reconvergence target is an arrival: no PCWRAP is pending there. -/
theorem Fragment.jump_arrived {f : Fragment} {r : Pc} (hr : f.recon = some r) : (f.jump r).arrived = true := by
  simp [Fragment.arrived, Fragment.atRecon, Fragment.jump, hr]

/-- Settles O17: the fragment stands at its target with no line and no wait. -/
theorem joinsGoToReconvergence : Obligations.JoinsGoToReconvergence := by
  unfold Obligations.JoinsGoToReconvergence
  intro s h c
  have hjoin : exec .join s = h.finish (h.settle s (match h.f.recon with
      | some r => .ok (h.goto s r)
      | none => h.ok s id)) := c.onWave_scalars [] [] _
  refine ⟨fun r hr => ⟨?_, _, goto_fragment c.here s r, rfl, Fragment.jump_arrived hr⟩, fun hr => ?_⟩
  · rw [hjoin, hr]
    rfl
  · rw [hjoin, hr]
    rfl

/-! Arrival (R136). -/

theorem issueTurn_arrived {s : State} {k : Nat} {b : Bool} {h : Here} (e : s.fragment k b = some h) (hb : h.w.budget ≠ 0)
    (ha : h.f.arrived = true) : issueTurn k b s = h.finish (h.settle s (h.arrive s)) := by
  simp only [issueTurn, e, hb, ha, if_false, if_true]

/-- R136: with an empty divergence stack the fragment that goes on has no target left. -/
theorem continueAt_empty {w : Wave} (hs : w.stack = []) (h : Here) (s : State) (b : Bool) (f : Fragment) :
    h.continueAt s w b f = .ok (s.putWave h.key (w.setFrag b (some { f with recon := none }))) := by
  have hpop : s.popFrag w = none := by rw [State.popFrag, hs]
  rw [Here.continueAt, hpop]

/-- R136: two fragments at their common target as one; it meets the RUNOFF that is pending for either (log 50). -/
def Fragment.fused (f g : Fragment) : Fragment :=
  { f with owned := f.owned ||| g.owned, mask := f.mask ||| g.mask, fetch := f.fetch.fuse g.fetch, preds := f.preds ++ g.preds,
           landing := f.landing || g.landing, z := if lowest f.owned < lowest g.owned then f.z else g.z }

section Arrival
variable {h : Here} (s : State)

theorem arrive_alone (ho : h.w.frag (!h.side) = none) (hs : h.w.stack = []) :
    h.arrive s = .ok (s.putWave h.key (h.w.setFrag h.side (some { h.f with recon := none }))) := by
  rw [Here.arrive, ho]
  exact continueAt_empty hs h s h.side h.f

variable {g : Fragment} (ho : h.w.frag (!h.side) = some g)
include ho

theorem arrive_waits (hg : ¬ (g.atRecon = true ∧ g.recon = h.f.recon)) : h.arrive s = .ok s := by
  rw [Here.arrive, ho]
  exact if_neg hg

theorem arrive_fuses (hg : g.atRecon = true ∧ g.recon = h.f.recon) (hs : h.w.stack = []) :
    h.arrive s = .ok ((s.sharePosts g.id h.f.id).putWave h.key
      { h.w with fa := some { h.f.fused g with recon := none }, fb := none }) := by
  rw [Here.arrive, ho]
  exact (if_pos hg).trans (continueAt_empty (w := { h.w with fa := some (h.f.fused g), fb := none }) hs h _ false _)

end Arrival

/-- Settles O18: the turn of a fragment that has arrived is its arrival, which hangs on the sibling. -/
theorem fragmentsFuse : Obligations.FragmentsFuse := by
  unfold Obligations.FragmentsFuse
  intro s h hr e hb ha
  have hturn : turn (.issue h.key h.side) s = h.finish (h.settle s (h.arrive s)) :=
    (turn_issue hr h.key h.side).trans (issueTurn_arrived e hb ha)
  refine ⟨fun g ho hg hrec hs => ?fuses, fun g ho hg => ?waits, fun ho hs => ?alone⟩
  case fuses =>
    rw [arrive_fuses s ho ⟨hg, hrec⟩ hs] at hturn
    exact ⟨_, hturn, rfl, rfl, rfl, rfl, rfl, rfl⟩
  case waits =>
    rw [hturn, arrive_waits s ho hg]
    rfl
  case alone =>
    rw [hturn, arrive_alone s ho hs]
    rfl

end Sys2Proof.Machine

/-! Waits for time, the operand buffer and breakpoints (R147, R150 to R152). -/
namespace Sys2Proof.Machine

theorem onSeq_of_seqHere {s : State} {h : SeqHere} (e : s.seqHere = some h) (k : SeqHere → Except Abort State) :
    onSeq s k = h.finish s (k h) := by rw [onSeq, e]

/-- R102: what executes is a sequencer's stream. -/
theorem onSeqStream_of_seqHere {s : State} {h : SeqHere} (e : s.seqHere = some h) : s.onSeqStream = true := by
  unfold State.seqHere at e
  split at e
  · rename_i k hcur
    rw [State.onSeqStream, hcur]
  · cases e

theorem exec_nop_seq {s : State} {h : SeqHere} (e : s.seqHere = some h) :
    exec .nop s = .next (s.putInst h.key h.i.advance) := by
  have hexec : exec .nop s = execNop s := rfl
  rw [hexec, execNop, if_pos (onSeqStream_of_seqHere e), onSeq_of_seqHere e]
  rfl

/-- R151: the expiry of a time wait lets a fragment that holds its line go on. -/
theorem exec_timeWaitExpiry {s : State} {k : Nat} {b : Bool} {h : Here} {t : W64} (e : s.fragment k b = some h)
    (hw : h.f.wait = .time t) (ht : t ≤ s.clk) (hf : h.f.fetched = true) :
    exec (.timeWaitExpiry k b) s = .next (h.done s id) := by
  have hexec : exec (.timeWaitExpiry k b) s = execTimeWaitExpiry k b s := rfl
  simp only [hexec, execTimeWaitExpiry, e, hw, ht, hf, and_self, if_true]

/-- R152: the operand buffer may hold what rgn names just where v_A and every named register exist. -/
theorem rgnRegs_exist_iff (a : BitVec 8) (m : W32) (n : Nat) : (a.toNat < n && (rgnRegs a m).all fun r => r < n) = true ↔
    a.toNat < n ∧ ∀ i, i < 32 → m.getLsbD i = true → a.toNat + i < n := by
  simp [rgnRegs, or_iff_not_imp_left]

section Plain
variable {s : State} {h : Here} {rs : List Nat} (c : Clear s h rs)
include c

/-- What goes on and does nothing else completes with an empty frame. -/
theorem Clear.completes_id {i : Instr} (e : exec i s = .next (h.done s id)) : Completes i s h {} fun _ => True :=
  (Body.refl c {}).completes id e fun _ _ => trivial

/-- R102: in a wave, nop is a meaning of the wave. -/
theorem Clear.exec_nop : exec .nop s = .next (h.done s id) := by
  have e : exec .nop s = execNop s := rfl
  rw [e, execNop, c.onSeqStream]
  exact c.onWave_scalars [] [] _

/-- R151: a sleep that has not begun: of 0 it goes on, else it waits for its deadline. -/
theorem Clear.exec_sleep (e : W32) (hw : h.f.wait = .none) : exec (.sleep e) s =
    if e = 0 then .next (h.done s id) else .next (h.await s (.time (s.clk + e.setWidth 64))) := by
  have hexec : exec (.sleep e) s = execSleep e s := rfl
  rw [hexec, execSleep, c.onWave_scalars, hw]
  dsimp only
  split <;> rfl

theorem Clear.await_eq (x : Wait) : h.await s x = s.putWave h.key (h.w.setFrag h.side (some { h.f with wait := x })) := by
  obtain ⟨-, -, hf, -⟩ := here_spec c.here
  simp only [Here.await, id, hf, Option.getD_some]

theorem Clear.rgn_exists {a : BitVec 8} {m : W32} (ha : a.toNat < h.w.n)
    (hm : ∀ i, i < 32 → m.getLsbD i = true → a.toNat + i < h.w.n) :
    exec (.rgn a m) s = .next (h.done s fun w => { w with opbuf := rgnRegs a m }) := by
  have e : exec (.rgn a m) s = execRgn a m s := rfl
  rw [e, execRgn, c.onWave_scalars, if_pos ((rgnRegs_exist_iff a m h.w.n).mpr ⟨ha, hm⟩)]
  rfl

/-- R57, R152: a register that the wave lacks is illegal, v_A whatever m is (log 27). -/
theorem Clear.rgn_ill {a : BitVec 8} {m : W32} (hw : h.w.mustWait s h.key = false)
    (hn : h.w.n ≤ a.toNat ∨ ∃ i, i < 32 ∧ m.getLsbD i = true ∧ h.w.n ≤ a.toNat + i) :
    exec (.rgn a m) s = .next (s.adjourn h.key h.side (h.report 1)) := by
  have e : exec (.rgn a m) s = execRgn a m s := rfl
  have hmiss : ¬ (a.toNat < h.w.n ∧ ∀ i, i < 32 → m.getLsbD i = true → a.toNat + i < h.w.n) := by
    rintro ⟨ha, hm⟩
    rcases hn with hn | ⟨i, hi, hbit, hn⟩
    · omega
    · have := hm i hi hbit
      omega
  rw [e, execRgn, c.onWave_scalars, if_neg (mt (rgnRegs_exist_iff a m h.w.n).mp hmiss)]
  exact finish_trap hw _ _

end Plain

/-- Settles O20: but for a sleep and rgn these go on and do nothing else; rgn asks whether its registers exist. -/
theorem plainControl : Obligations.PlainControl := by
  unfold Obligations.PlainControl
  refine ⟨fun s h c => ⟨?nop, ?yield, fun hw => ?sleep0, fun e hw he => ?sleep, fun a m ha hm => c.rgn_exists ha hm,
    fun a m hw hn => c.rgn_ill hw hn⟩, fun s k b h t => exec_timeWaitExpiry, fun s h => exec_nop_seq⟩
  case nop => exact c.completes_id c.exec_nop
  case yield => exact c.completes_id (c.onWave_scalars [] [] _)
  case sleep0 => exact c.completes_id (c.exec_sleep 0 hw)
  case sleep => rw [c.exec_sleep e hw, if_neg he, c.await_eq]

/-- R150: a brk of a wave adjourns it at its successor. -/
theorem Clear.brk_adjourns {s : State} {h : Here} {rs : List Nat} (c : Clear s h rs) (e : BitVec 8)
    (hw : h.w.mustWait s h.key = false) : exec (.brk e) s = .next (s.adjourn h.key h.side
      { h.report cBREAK h.f.mask with pc := (advancePc h.f.pc h.f.fetch).1.setWidth 64, faddr := breakAddr h.f.pc e }) := by
  have hexec : exec (.brk e) s = execBrk e s := rfl
  rw [hexec, execBrk, c.onSeqStream]
  exact (c.onWave_scalars [] [] _).trans (finish_trap hw _ _)

/-- R150, R283: a brk of a sequencer adjourns its tile task once the operations before it are complete. -/
theorem brk_adjourns_seq {s : State} {h : SeqHere} (hs : s.seqHere = some h) (ho : h.i.ops = []) (e : BitVec 8) :
    exec (.brk e) s = .next ((s.putInst h.key { h.i with audit := false }).adjournInst h.key
      { causes := cBREAK, pc := (advancePc h.i.pc h.i.fetch).1.setWidth 64, faddr := breakAddr h.i.pc e }) := by
  have hexec : exec (.brk e) s = execBrk e s := rfl
  rw [hexec, execBrk, if_pos (onSeqStream_of_seqHere hs), onSeq_of_seqHere hs]
  simp only [SeqHere.finish, ho, if_true]

/-- Settles O21: the PC reported is the one after brk, in its last slot its own (log 24). -/
theorem breaksAdjourn : Obligations.BreaksAdjourn := by
  unfold Obligations.BreaksAdjourn
  exact ⟨fun s h e c hw => c.brk_adjourns e hw, fun s h e hs ho => brk_adjourns_seq hs ho e⟩

end Sys2Proof.Machine

/-! Vector integer instructions: three meanings, by their number of sources, and the elements they write (R165, R166). -/
namespace Sys2Proof.Machine

/-- R33: every element type fills its lanes. -/
theorem Ty.laneWidth_of_ne {t : Ty} (ht : t ≠ .none) : laneWidth t.width := by
  unfold laneWidth
  cases t with
  | none => exact absurd rfl ht
  | _ => simp [Ty.width]

/-- A class of types that leaves out `none` holds none but element types. -/
theorem Ty.laneWidth_of_class {types : Ty → Bool} {t : Ty} (ht : types t = true) (hn : types .none = false) :
    laneWidth t.width := by
  refine Ty.laneWidth_of_ne fun e => ?_
  rw [e, hn] at ht
  exact Bool.false_ne_true ht

theorem VOp.laneWidth_of_okInt {o : VOp} {types : Ty → Bool} {sat unary useC : Bool}
    (ho : o.okInt types sat unary useC = true) (hn : types .none = false) : laneWidth o.ty.width := by
  simp only [VOp.okInt, Bool.and_eq_true] at ho
  obtain ⟨⟨⟨⟨⟨⟨⟨ht, -⟩, -⟩, -⟩, -⟩, -⟩, -⟩, -⟩ := ho
  exact Ty.laneWidth_of_class ht hn

theorem VOp.type_of_okFlt {o : VOp} {types : Ty → Bool} {round unary useC immInt : Bool}
    (ho : o.okFlt types round unary useC immInt = true) : types o.ty = true := by
  simp only [VOp.okFlt, Bool.and_eq_true] at ho
  obtain ⟨⟨⟨⟨⟨⟨⟨ht, -⟩, -⟩, -⟩, -⟩, -⟩, -⟩, -⟩ := ho
  exact ht

theorem VOp.laneWidth_of_okFlt {o : VOp} {types : Ty → Bool} {round unary useC immInt : Bool}
    (ho : o.okFlt types round unary useC immInt = true) (hn : types .none = false) : laneWidth o.ty.width :=
  Ty.laneWidth_of_class (VOp.type_of_okFlt ho) hn

/-- The operands of a form are among the registers it names. -/
theorem VOp.mem_names {o : VOp} {r : Nat} : r ∈ o.names ↔
    r ∈ regsOf o.ty o.a.toNat ∨ r ∈ o.b.vregs o.ty ∨ r ∈ regsOf o.ty o.c.toNat ∨ r ∈ regsOf o.ty o.d.toNat := by
  simp only [VOp.names, List.mem_append, or_assoc]

section Named
variable (o : VOp)

/-- A form of one source names what it reads and writes. -/
theorem VOp.names_one : ∀ r ∈ regsOf o.ty o.a.toNat ++ [] ++ regsOf o.ty o.d.toNat, r ∈ o.names := by
  intro r hr
  simp only [List.append_nil, List.mem_append, VOp.mem_names] at hr ⊢
  tauto

theorem VOp.names_two : ∀ r ∈ regsOf o.ty o.a.toNat ++ o.b.vregs o.ty ++ [] ++ regsOf o.ty o.d.toNat, r ∈ o.names := by
  intro r hr
  simp only [List.append_nil, List.mem_append, VOp.mem_names] at hr ⊢
  tauto

theorem VOp.names_three : ∀ r ∈ regsOf o.ty o.a.toNat ++ o.b.vregs o.ty ++ regsOf o.ty o.c.toNat ++ [] ++
    regsOf o.ty o.d.toNat, r ∈ o.names := by
  intro r hr
  simp only [List.append_nil, List.mem_append, VOp.mem_names] at hr ⊢
  tauto

end Named

section Integer
variable {s : State} {h : Here} {o : VOp} (c : Clear s h o.names) (hw : laneWidth o.ty.width) {i : Instr}
include c hw

/-- R166: one source. -/
theorem Clear.vecInt1 {f : Nat → Int} (e : exec i s = vecInt1 o f s) :
    VectorResult i s h (h.part o.g) o.ty o.d.toNat fun l j => narrow o.ty o.sat (f (h.w.elem o.ty.width o.a.toNat l j)) :=
  c.vectorResult hw (e.trans (c.onWave_ok _ _ _ (VOp.names_one o) (.inl rfl) rfl))

/-- R166: two sources. -/
theorem Clear.vecInt2 {f : Nat → Nat → Int} (e : exec i s = vecInt2 o f s) :
    VectorResult i s h (h.part o.g) o.ty o.d.toNat fun l j =>
      narrow o.ty o.sat (f (h.w.elem o.ty.width o.a.toNat l j) (h.srcV o.ty l j o.b)) :=
  c.vectorResult hw (e.trans (c.onWave_ok _ _ _ (VOp.names_two o) (.inl rfl) rfl))

/-- R166: three sources. -/
theorem Clear.vecInt3 {f : Nat → Nat → Nat → Int} (e : exec i s = vecInt3 o f s) :
    VectorResult i s h (h.part o.g) o.ty o.d.toNat fun l j => narrow o.ty o.sat
      (f (h.w.elem o.ty.width o.a.toNat l j) (h.srcV o.ty l j o.b) (h.w.elem o.ty.width o.c.toNat l j)) :=
  c.vectorResult hw (e.trans (c.onWave_ok _ _ _ (VOp.names_three o) (.inl rfl) rfl))

end Integer

/-- Settles O5: the instructions of class 0x3 are three meanings, by their number of sources, over their exact results. -/
theorem vectorIntegerResults : Obligations.VectorIntegerResults := by
  unfold Obligations.VectorIntegerResults
  have one {mk : VOp → Instr} (f : Ty → Nat → Int) (hw : ∀ o, wellFormed (mk o) = true → laneWidth o.ty.width)
      (e : ∀ o s, exec (mk o) s = vecInt1 o (f o.ty) s) o s (h : Here) (ok : wellFormed (mk o) = true)
      (c : Clear s h o.names) := c.vecInt1 (hw o ok) (e o s)
  have two {mk : VOp → Instr} (f : Ty → Nat → Nat → Int) (hw : ∀ o, wellFormed (mk o) = true → laneWidth o.ty.width)
      (e : ∀ o s, exec (mk o) s = vecInt2 o (f o.ty) s) o s (h : Here) (ok : wellFormed (mk o) = true)
      (c : Clear s h o.names) := c.vecInt2 (hw o ok) (e o s)
  have three {mk : VOp → Instr} (f : Ty → Nat → Nat → Nat → Int)
      (hw : ∀ o, wellFormed (mk o) = true → laneWidth o.ty.width)
      (e : ∀ o s, exec (mk o) s = vecInt3 o (f o.ty) s) o s (h : Here) (ok : wellFormed (mk o) = true)
      (c : Clear s h o.names) := c.vecInt3 (hw o ok) (e o s)
  simp only [List.forall_mem_cons, List.not_mem_nil, false_imp_iff, implies_true, and_true]
  refine ⟨⟨one (fun t a => ((intOf t a).natAbs : Int)) ?_ fun _ _ => rfl,
      one (fun t a => (clzOf t.width a : Int)) ?_ fun _ _ => rfl,
      one (fun t a => (popcOf t.width a : Int)) ?_ fun _ _ => rfl⟩,
    ⟨two intAdd ?_ fun _ _ => rfl, two intSub ?_ fun _ _ => rfl, two intMul ?_ fun _ _ => rfl,
      two intMulh ?_ fun _ _ => rfl, two intDiv ?_ fun _ _ => rfl, two intAnd ?_ fun _ _ => rfl,
      two intOr ?_ fun _ _ => rfl, two intXor ?_ fun _ _ => rfl, two intShl ?_ fun _ _ => rfl,
      two intShr ?_ fun _ _ => rfl, two intSar ?_ fun _ _ => rfl, two intMin ?_ fun _ _ => rfl,
      two intMax ?_ fun _ _ => rfl⟩,
    three intMad ?_ fun _ _ => rfl,
    three (fun t a b c => fieldOf t.width t.isS a b c) ?_ fun _ _ => rfl,
    three (fun t a b c => (fieldSet t.width a b (c % 256) (c / 256 % 256) : Int)) ?_ fun _ _ => rfl⟩
  all_goals
    intro o ok
    simp only [wellFormed] at ok
    exact VOp.laneWidth_of_okInt ok rfl

end Sys2Proof.Machine

/-! Vector floating-point instructions and special functions: what their lanes raise and write (R167 to R173, R182). -/
namespace Sys2Proof.Machine

theorem Trapping.imp {i : Instr} {s : State} {h : Here} {m : Lanes} {fl : Nat → Flags} {p p' : Prop}
    (t : Trapping i s h m fl p) (hp : p → p') : Trapping i s h m fl p' :=
  ⟨fun h0 => hp (t.1 h0), t.2⟩

/-- A result says the flags of each lane and the elements that a lane holds, and no others. -/
theorem FloatResult.congr {i : Instr} {s : State} {h : Here} {m : Lanes} {ty : Ty} {d : Nat} {fl fl' : Nat → Flags} {z : W32}
    {v v' : Nat → Nat → Nat} (r : FloatResult i s h m ty d fl z v) (hfl : ∀ l, fl l = fl' l)
    (hv : ∀ l j, j < elemsPerLane ty.width → v l j = v' l j) : FloatResult i s h m ty d fl' z v' := by
  obtain rfl : fl = fl' := funext hfl
  refine Trapping.imp r fun done => done.imp fun w ⟨helem, hrest⟩ => ⟨fun l j hl hm hj => ?_, hrest⟩
  rw [helem l j hl hm hj, hv l j hj]

/-- The flags of a lane's only element are the lane's. -/
theorem orFlags_singleton (x : Flags) : orFlags [x] = x := BitVec.zero_or

theorem howOf_mode (mode : Rnd) (z : W32) (l e j : Nat) : (howOf mode z l e j).mode = mode := by
  unfold howOf
  split <;> rfl

theorem packLane_32 (f : Nat → Nat) : packLane 32 f = BitVec.ofNat 32 (f 0) := by
  refine BitVec.eq_of_toNat_eq ?_
  simp [packLane]

/-- R33: one element of 32 bits fills its lane. -/
theorem Wave.writeElems_32 (w : Wave) (r : Nat) (m : Lanes) (x : Nat → Nat) :
    (w.writeElems 32 r m fun l _ => x l) = w.writeV r m fun l => BitVec.ofNat 32 (x l) := by
  simp only [Wave.writeElems, packLane_32, if_neg (by decide : ¬ 32 = 64)]

section Lanes
variable {s : State} {h : Here} {rs : List Nat} (c : Clear s h rs) {i : Instr} {g : Guard} {u : Uses}
  {k : Here → Except Abort State} (e : exec i s = onWave g u s k) (hu : ∀ r ∈ u.vr ++ u.nm ++ u.vw, r ∈ rs)
  (hi : u.indexed = false)
include c e hu hi

/-- R168: each sub-element of the participating lanes is computed, its flags raised, its result saturated and written. -/
theorem Clear.fltLanes {gm : Guard} {ty : Ty} {sat : Sat} {d : Nat} {mode : Rnd} {res : How → Nat → Nat → FVal × Flags}
    (hw : laneWidth ty.width) (hk : k h = h.fltLanes s gm ty sat d mode res) :
    let z := nextZ mode h.f.z
    let out (l j : Nat) := res (howOf mode z l (elemsPerLane ty.width) j) l j
    FloatResult i s h (h.part gm) ty d (fun l => orFlags ((List.range (elemsPerLane ty.width)).map fun j => (out l j).2)) z
      fun l j => encodeF ty (saturateF ty sat (out l j).1) :=
  c.floatResult e hu hi hw hk

/-- A meaning that raises flags and writes one binary32 (or 32-bit) result in each participating lane. -/
theorem Clear.wordResult {m : Lanes} {fl : Nat → Flags} {z : W32} {d : Nat} {x : Nat → Nat}
    (hk : k h = h.arith s m fl z fun w => w.writeV d m fun l => BitVec.ofNat 32 (x l)) :
    FloatResult i s h m .f32 d fl z fun l _ => x l := by
  simp only [← Wave.writeElems_32] at hk
  exact c.floatResult e hu hi (Ty.laneWidth_of_ne (by decide)) hk

end Lanes

section Operations
variable {s : State} {h : Here} {o : VOp} (c : Clear s h o.names) {i : Instr}
include c

/-- R168, R173: one source. -/
theorem Clear.vecFlt1 {f : How → FVal → FRes} (hw : laneWidth o.ty.width) (e : exec i s = vecFlt1 o f s) :
    let z := nextZ (h.rnd o.rnd) h.f.z
    let how (l j : Nat) := howOf (h.rnd o.rnd) z l (elemsPerLane o.ty.width) j
    let out (l j : Nat) :=
      deliver o.ty (how l j) (modeFtz h.w.mode) [h.fltV o.ty o.a l j] (f (how l j) (h.fltV o.ty o.a l j))
    FloatResult i s h (h.part o.g) o.ty o.d.toNat
      (fun l => orFlags ((List.range (elemsPerLane o.ty.width)).map fun j => (out l j).2)) z
      fun l j => encodeF o.ty (saturateF o.ty o.sat (out l j).1) := by
  have lanes := c.fltLanes e (VOp.names_one o) rfl hw rfl
  exact lanes

/-- R168: two sources. -/
theorem Clear.vecFlt2 {f : How → FVal → FVal → FRes} (hw : laneWidth o.ty.width) (e : exec i s = vecFlt2 o f s) :
    let z := nextZ (h.rnd o.rnd) h.f.z
    let how (l j : Nat) := howOf (h.rnd o.rnd) z l (elemsPerLane o.ty.width) j
    let out (l j : Nat) := deliver o.ty (how l j) (modeFtz h.w.mode) [h.fltV o.ty o.a l j, h.fltB o.ty o.b l j]
      (f (how l j) (h.fltV o.ty o.a l j) (h.fltB o.ty o.b l j))
    FloatResult i s h (h.part o.g) o.ty o.d.toNat
      (fun l => orFlags ((List.range (elemsPerLane o.ty.width)).map fun j => (out l j).2)) z
      fun l j => encodeF o.ty (saturateF o.ty o.sat (out l j).1) := by
  have lanes := c.fltLanes e (VOp.names_two o) rfl hw rfl
  exact lanes

/-- R168: ffma rounds a product and a sum once. -/
theorem Clear.ffma (hw : laneWidth o.ty.width) :
    let z := nextZ (h.rnd o.rnd) h.f.z
    let out (l j : Nat) :=
      let how := howOf (h.rnd o.rnd) z l (elemsPerLane o.ty.width) j
      deliver o.ty how (modeFtz h.w.mode) [h.fltV o.ty o.a l j, h.fltB o.ty o.b l j, h.fltV o.ty o.c l j]
        (resFma how.mode (h.fltV o.ty o.a l j) (h.fltB o.ty o.b l j) (h.fltV o.ty o.c l j))
    FloatResult (.ffma o) s h (h.part o.g) o.ty o.d.toNat
      (fun l => orFlags ((List.range (elemsPerLane o.ty.width)).map fun j => (out l j).2)) z
      fun l j => encodeF o.ty (saturateF o.ty o.sat (out l j).1) := by
  have e : exec (.ffma o) s = execFfma o s := rfl
  have lanes := c.fltLanes e (VOp.names_three o) rfl hw rfl
  exact lanes

/-- R168: the exponent of fldexp is an integer operand. -/
theorem Clear.fldexp (hw : laneWidth o.ty.width) :
    let z := nextZ (h.rnd o.rnd) h.f.z
    let out (l j : Nat) := deliver o.ty (howOf (h.rnd o.rnd) z l (elemsPerLane o.ty.width) j) (modeFtz h.w.mode)
      [h.fltV o.ty o.a l j] (resLdexp (h.fltV o.ty o.a l j) (h.ldexpN o.ty l j o.b))
    FloatResult (.fldexp o) s h (h.part o.g) o.ty o.d.toNat
      (fun l => orFlags ((List.range (elemsPerLane o.ty.width)).map fun j => (out l j).2)) z
      fun l j => encodeF o.ty (saturateF o.ty o.sat (out l j).1) := by
  have e : exec (.fldexp o) s = execFldexp o s := rfl
  have lanes := c.fltLanes e (VOp.names_two o) rfl hw rfl
  exact lanes

/-- R169: fmin and fmax neither round nor saturate, and leave Z. -/
theorem Clear.vecMinMax {isMax : Bool} (hw : laneWidth o.ty.width) (e : exec i s = vecMinMax isMax o s) :
    let out (l j : Nat) := minMaxF isMax (h.fltV o.ty o.a l j) (h.fltB o.ty o.b l j)
    FloatResult i s h (h.part o.g) o.ty o.d.toNat
      (fun l => orFlags ((List.range (elemsPerLane o.ty.width)).map fun j => (out l j).2)) h.f.z
      fun l j => encodeF o.ty (out l j).1 := by
  have lanes := c.fltLanes e (VOp.names_two o) rfl hw rfl
  exact lanes

/-- R171: fdot2 has one binary32 result for each lane. -/
theorem Clear.fdot2 (ht : o.ty.width ≠ 64) :
    let z := nextZ (h.rnd o.rnd) h.f.z
    let a (l j : Nat) := h.fltV o.ty o.a l j
    let b (l j : Nat) := h.fltB o.ty o.b l j
    let out (l : Nat) := deliver .f32 (howOf (h.rnd o.rnd) z l 1 0) (modeFtz h.w.mode) [a l 0, a l 1, b l 0, b l 1]
      (resDot2 (h.rnd o.rnd) (a l 0) (a l 1) (b l 0) (b l 1))
    FloatResult (.fdot2 o) s h (h.part o.g) .f32 o.d.toNat (fun l => (out l).2) z
      fun l _ => encodeF .f32 (saturateF .f32 o.sat (out l).1) := by
  have e : exec (.fdot2 o) s = execFdot2 o s := rfl
  refine (c.fltLanes e (fun r hr => ?_) rfl (Ty.laneWidth_of_ne (by decide)) rfl).congr (fun l => ?_) fun l j hj => ?_
  · simp only [VOp.mem_names, regsOf_of_ne ht, List.append_nil, List.mem_append, List.mem_cons,
      List.not_mem_nil, or_false] at hr ⊢
    tauto
  · refine (orFlags_singleton _).trans ?_
    dsimp only
    rw [howOf_mode]
    rfl
  · obtain rfl : j = 0 := Nat.lt_one_iff.mp hj
    dsimp only
    rw [howOf_mode]
    rfl

/-- R182: fdp4 has one binary32 result for each lane. -/
theorem Clear.fdp4 (ht : o.ty.width ≠ 64) :
    let z := nextZ (h.rnd o.rnd) h.f.z
    let out (l : Nat) := fdp4Steps (h.rnd o.rnd) z l (modeFtz h.w.mode) (fun j => h.fltV o.ty o.a l j)
      (fun j => h.fltB o.ty o.b l j) [0, 1, 2, 3] (h.fltV .f32 o.c l 0) 0
    FloatResult (.fdp4 o) s h (h.part o.g) .f32 o.d.toNat (fun l => (out l).2) z
      fun l _ => encodeF .f32 (saturateF .f32 o.sat (out l).1) := by
  have e : exec (.fdp4 o) s = execFdp4 o s := rfl
  refine c.wordResult e (fun r hr => ?_) rfl rfl
  simp only [VOp.mem_names, regsOf_of_ne ht, List.append_nil, List.mem_append, List.mem_cons,
    List.not_mem_nil, or_false] at hr ⊢
  tauto

end Operations

/-- Settles O6: all but fdp4 are `fltLanes`, which computes, raises, saturates and writes lane by lane (transcendental values
as log 6 evaluates them); fdot2 and fdp4 have one result for each lane (zero sums by log 18). -/
theorem vectorFloatResults : Obligations.VectorFloatResults := by
  unfold Obligations.VectorFloatResults
  simp only [List.forall_mem_cons, List.not_mem_nil, false_imp_iff, implies_true, and_true]
  have one {mk : VOp → Instr} (f : How → FVal → FRes) (hw : ∀ o, wellFormed (mk o) = true → laneWidth o.ty.width)
      (e : ∀ o s, exec (mk o) s = vecFlt1 o f s) o s (h : Here) (ok : wellFormed (mk o) = true) (c : Clear s h o.names) :=
    c.vecFlt1 (hw o ok) (e o s)
  have two {mk : VOp → Instr} (f : How → FVal → FVal → FRes) (hw : ∀ o, wellFormed (mk o) = true → laneWidth o.ty.width)
      (e : ∀ o s, exec (mk o) s = vecFlt2 o f s) o s (h : Here) (ok : wellFormed (mk o) = true) (c : Clear s h o.names) :=
    c.vecFlt2 (hw o ok) (e o s)
  have minMax {mk : VOp → Instr} (isMax : Bool) (hw : ∀ o, wellFormed (mk o) = true → laneWidth o.ty.width)
      (e : ∀ o s, exec (mk o) s = vecMinMax isMax o s) o s (h : Here) (ok : wellFormed (mk o) = true)
      (c : Clear s h o.names) := c.vecMinMax (hw o ok) (e o s)
  refine ⟨⟨one (fun _ a => resSqrt a) ?_ fun _ _ => rfl, one (fun _ a => resRcp a) ?_ fun _ _ => rfl,
      one (fun _ a => resRsq a) ?_ fun _ _ => rfl, one resRint ?_ fun _ _ => rfl,
      one (fun _ a => resExp2 a) ?_ fun _ _ => rfl, one (fun _ a => resLog2 a) ?_ fun _ _ => rfl,
      one (fun _ a => resTrig true a) ?_ fun _ _ => rfl, one (fun _ a => resTrig false a) ?_ fun _ _ => rfl⟩,
    ⟨two (fun h a b => resSum h.mode a b) ?_ fun _ _ => rfl, two (fun h a b => resSum h.mode a b.negate) ?_ fun _ _ => rfl,
      two (fun _ a b => resMul a b) ?_ fun _ _ => rfl, two (fun _ a b => resDiv a b) ?_ fun _ _ => rfl⟩,
    ⟨fun o s h ok c => c.ffma (VOp.laneWidth_of_okFlt ok rfl),
      fun o s h ok c => c.fldexp (VOp.laneWidth_of_okFlt ok rfl)⟩,
    ⟨minMax false ?_ fun _ _ => rfl, minMax true ?_ fun _ _ => rfl⟩,
    fun o s h ok c => c.fdot2 ?dot, fun o s h ok c => c.fdp4 ?dp⟩
  case dot =>
    simp only [wellFormed] at ok
    have ht := VOp.type_of_okFlt ok
    simp only [Bool.or_eq_true, beq_iff_eq] at ht
    rcases ht with ht | ht <;> simp [ht, Ty.width]
  case dp =>
    simp only [wellFormed, Bool.and_eq_true, Bool.or_eq_true, beq_iff_eq] at ok
    obtain ⟨ht | ht, -⟩ := ok <;> simp [ht, Ty.width]
  all_goals
    intro o ok
    simp only [wellFormed] at ok
    exact VOp.laneWidth_of_okFlt ok rfl

end Sys2Proof.Machine

/-! Moves between lanes (R184, R185, R188): from a meaning to the lanes it writes. -/
namespace Sys2Proof.Machine

theorem Ty.laneWidth_of_isB3264 {t : Ty} (ht : t.isB3264 = true) : laneWidth t.width := Ty.laneWidth_of_class ht rfl

/-- R184: a byte of the result of vperm is a byte. -/
theorem permByte_lt (sel lo hi : W32) (k : Nat) : permByte sel lo hi k < 2 ^ 8 := by
  unfold permByte
  dsimp only
  split
  · decide
  · split <;> exact BitVec.isLt _

/-- R188: the registers that the participating lanes name exist. -/
theorem relCheck_ok {h : Here} (s : State) {m : Lanes} {base b : BitVec 8}
    (hr : ∀ l, l < 96 → m.getLsbD l = true → 0 ≤ h.relReg base b l ∧ h.relReg base b l < h.w.n) :
    h.relCheck s m base b = .ok () := by
  have hbad : ((lanesOf m).filter fun l => h.relReg base b l < 0 || (h.w.n : Int) ≤ h.relReg base b l) = [] := by
    refine List.filter_eq_nil_iff.mpr fun l hl => ?_
    simp only [lanesOf, List.mem_filter, List.mem_range] at hl
    have := hr l hl.1 hl.2
    simp only [Bool.or_eq_true, decide_eq_true_eq]
    omega
  simp only [Here.relCheck, hbad, if_true]

/-- Each of some registers takes its own lanes of one value for each lane. -/
def Wave.scatterV (w : Wave) (regs : List Nat) (mask : Nat → Lanes) (x : Nat → W32) : Wave :=
  regs.foldl (fun w r => w.writeV r (mask r) x) w

theorem Wave.readV_scatterV (mask : Nat → Lanes) (x : Nat → W32) (r : Nat) {l : Nat} (hl : l < 96) :
    ∀ (regs : List Nat) (w : Wave), (w.scatterV regs mask x).readV r l =
      if r ∈ regs ∧ (mask r).getLsbD l = true then x l else w.readV r l
  | [], w => by simp [Wave.scatterV]
  | r' :: regs, w => by
    have ih := Wave.readV_scatterV mask x r hl regs (w.writeV r' (mask r') x)
    rw [Wave.readV_writeV _ _ _ _ _ _ hl] at ih
    rw [show w.scatterV (r' :: regs) mask x = (w.writeV r' (mask r') x).scatterV regs mask x from rfl, ih]
    by_cases hr : r = r'
    · subst hr
      by_cases hm : (mask r).getLsbD l = true <;> simp [hm]
    · simp [hr]

theorem Body.scatterV {h : Here} {y : Writes} {mask : Nat → Lanes} (x : Nat → W32)
    (hm : ∀ r l, l < 96 → (mask r).getLsbD l = true → y.m.getLsbD l = true) :
    ∀ {regs : List Nat} {w : Wave}, (∀ r ∈ regs, r ∈ y.v) → Body h y w → Body h y (w.scatterV regs mask x)
  | [], _, _, b => b
  | r :: regs, _, hr, b => Body.scatterV (regs := regs) x hm (fun _ hmem => hr _ (List.mem_cons_of_mem r hmem))
      (b.writeV r (mask r) x (hr r List.mem_cons_self) (hm r))

/-- R188: the registers that the participating lanes name to vstrel, each once, and the lanes that name one. -/
def Here.relRegs (h : Here) (o : LaneOp) : List Nat :=
  ((lanesOf (h.part o.g)).map fun l => (h.relReg o.d o.b l).toNat).dedup

def Here.relMask (h : Here) (o : LaneOp) (r : Nat) : Lanes :=
  lanesMask ((lanesOf (h.part o.g)).filter fun l => (h.relReg o.d o.b l).toNat == r)

section Lane
variable {s : State} {h : Here} {rs : List Nat} (c : Clear s h rs) {i : Instr} {g : Guard} {u : Uses}
  {k : Here → Except Abort State} (e : exec i s = onWave g u s k) (hu : ∀ r ∈ u.vr ++ u.nm ++ u.vw, r ∈ rs)
  (hi : u.indexed = false ∨ ∀ x ∈ s.stores.preds, x.2.wave ≠ h.key)
include c e hu hi

/-- A meaning that writes the elements of a register in the participating lanes and nothing else. -/
theorem Clear.setElems {ty : Ty} {d : Nat} {m : Lanes} {v : Nat → Nat → Nat} (hw : laneWidth ty.width)
    (hk : k h = h.ok s fun w => w.writeElems ty.width d m v) : VectorResult i s h m ty d v :=
  c.vectorResult hw (e.trans (c.onWave_ok g u k hu hi hk))

/-- A meaning that writes the words of a register in the participating lanes and nothing else. -/
theorem Clear.setWords {d : Nat} {m : Lanes} {v : Nat → W32} (hk : k h = h.ok s fun w => w.writeV d m v) :
    Completes i s h { v := [d], m } fun w => ∀ l, l < 96 → m.getLsbD l = true → w.readV d l = v l := by
  have b : Body h { v := [d], m } (h.w.writeV d m v) :=
    (Body.refl c _).writeV d m v (List.mem_singleton_self d) fun _ _ a => a
  refine b.completes (fun w => w.writeV d m v) (e.trans (c.onWave_ok g u k hu hi hk)) fun _ _ l hl hm => ?_
  rw [Wave.readV_setFrag, Wave.readV_writeV _ _ _ _ _ _ hl, if_pos ⟨rfl, hm⟩]

end Lane

/-- R185: a shuffle takes each lane's source, 0 where it has none. -/
theorem Clear.shuffle {s : State} {h : Here} {o : LaneOp} {vr : List Nat}
    (c : Clear s h (vr ++ regsOf o.ty o.a.toNat ++ regsOf o.ty o.d.toNat)) (hw : laneWidth o.ty.width) {i : Instr}
    {src : Here → Nat → Option Nat} (e : exec i s = shuffle o vr src s) :
    VectorResult i s h (h.part o.g) o.ty o.d.toNat fun l _ =>
      (src h l).elim 0 fun k => h.w.elem o.ty.width o.a.toNat k 0 := by
  refine c.setElems e (fun r hr => hr) (.inl rfl) hw ?_
  rw [c.ecc]
  refine congrArg (h.ok s) (funext fun w => congrArg (w.writeElems _ _ _) (funext fun l => funext fun _ => ?_))
  cases src h l <;> rfl

/-- R188: vmovrel gathers: each lane reads the register that it names. -/
theorem Clear.vmovrel {s : State} {h : Here} {o : LaneOp} (c : Clear s h [o.a.toNat, o.b.toNat, o.d.toNat])
    (hp : ∀ x ∈ s.stores.preds, x.2.wave ≠ h.key)
    (hr : ∀ l, l < 96 → (h.part o.g).getLsbD l = true → 0 ≤ h.relReg o.a o.b l ∧ h.relReg o.a o.b l < h.w.n) :
    Completes (.vmovrel o) s h { v := [o.d.toNat], m := h.part o.g } fun w =>
      ∀ l, l < 96 → (h.part o.g).getLsbD l = true → w.readV o.d.toNat l = h.w.readV (h.relReg o.a o.b l).toNat l := by
  have e : exec (.vmovrel o) s = execVmovrel o s := rfl
  refine c.setWords e (by simp) (.inr hp) ?_
  dsimp only
  rw [relCheck_ok s hr, c.ecc]
  rfl

/-- R188: vstrel scatters its source: a register takes the lanes that name it. -/
theorem Clear.vstrel {s : State} {h : Here} {o : LaneOp} (c : Clear s h [o.a.toNat, o.b.toNat, o.d.toNat])
    (hp : ∀ x ∈ s.stores.preds, x.2.wave ≠ h.key)
    (hr : ∀ l, l < 96 → (h.part o.g).getLsbD l = true → 0 ≤ h.relReg o.d o.b l ∧ h.relReg o.d o.b l < h.w.n) :
    Completes (.vstrel o) s h { v := List.range h.w.n, m := h.part o.g } fun w => ∀ r l, l < 96 →
      w.readV r l = if (h.part o.g).getLsbD l = true ∧ (h.relReg o.d o.b l).toNat = r then h.w.readV o.a.toNat l
        else h.w.readV r l := by
  have e : exec (.vstrel o) s = execVstrel o s := rfl
  have hmask (r l : Nat) (hl : l < 96) : (h.relMask o r).getLsbD l = true ↔
      (h.part o.g).getLsbD l = true ∧ (h.relReg o.d o.b l).toNat = r := by
    simp [Here.relMask, lanesMask_bit _ _ hl, mem_lanesOf _ _ hl]
  have hregs (l : Nat) (hl : l < 96) (hm : (h.part o.g).getLsbD l = true) : (h.relReg o.d o.b l).toNat ∈ h.relRegs o :=
    List.mem_dedup.mpr (List.mem_map_of_mem ((mem_lanesOf _ l hl).mpr hm))
  have hrange : ∀ r ∈ h.relRegs o, r ∈ List.range h.w.n := by
    intro r hmem
    obtain ⟨l, hl, rfl⟩ := List.mem_map.mp (List.mem_dedup.mp hmem)
    simp only [lanesOf, List.mem_filter, List.mem_range] at hl
    have := hr l hl.1 hl.2
    rw [List.mem_range]
    omega
  have b : Body h { v := List.range h.w.n, m := h.part o.g }
      (h.w.scatterV (h.relRegs o) (h.relMask o) fun l => h.w.readV o.a.toNat l) :=
    Body.scatterV _ (fun r l hl hm => ((hmask r l hl).mp hm).1) hrange (Body.refl c _)
  refine b.completes (fun w => w.scatterV (h.relRegs o) (h.relMask o) fun l => h.w.readV o.a.toNat l)
    (e.trans (c.onWave_ok _ _ _ (by simp) (.inr hp) ?_)) fun _ _ r l hl => ?_
  · dsimp only
    rw [relCheck_ok s hr, c.ecc]
    rfl
  · rw [Wave.readV_setFrag, Wave.readV_scatterV _ _ _ hl]
    refine if_congr ?_ rfl rfl
    rw [hmask r l hl, and_iff_right_iff_imp]
    rintro ⟨hm, rfl⟩
    exact hregs l hl hm

/-- Settles O7: moves write elements (shuffles take them from a source lane), vmovrel and vstrel words; fclass is an integer
operation of one source on the class code of R170. -/
theorem laneResults : Obligations.LaneResults := by
  unfold Obligations.LaneResults
  refine ⟨fun o s h ok c => ?vmov, fun g ty d a s h ok c => ?vbcast, fun o s h _ c => ?vperm, ?shuffles,
    fun o s h ok c => ?idx, fun o s h _ c => c.vmovrel, fun o s h _ c => c.vstrel, fun g ty d a b p s h ok c => ?vsel,
    fun g d s h c => ?vlid, fun o s h ok c => ?fclass⟩
  case vmov =>
    have e : exec (.vmov o) s = execVmov o s := rfl
    simp only [wellFormed, Bool.and_eq_true] at ok
    obtain ⟨⟨⟨⟨ht, -⟩, -⟩, -⟩, -⟩ := ok
    exact c.setElems e (by simp) (.inl rfl) (Ty.laneWidth_of_isB3264 ht) rfl
  case vbcast =>
    have e : exec (.vbcast g ty d a) s = execVbcast g ty d a s := rfl
    simp only [wellFormed, Bool.and_eq_true] at ok
    obtain ⟨ht, -⟩ := ok
    refine (c.setElems e (by simp) (.inl rfl) (Ty.laneWidth_of_isB3264 ht) rfl).imp fun w hv l j hl hm hj => ?_
    rw [hv l j hl hm hj, Nat.mod_mod]
  case vperm =>
    have e : exec (.vperm o) s = execVperm o s := rfl
    refine (c.setWords e (by simp) (.inl rfl) rfl).imp fun w hv l k hl hm hk => ?_
    rw [Wave.elem, if_neg (by decide), hv l hl hm, bits_packLane 8 _ k rfl hk, Nat.mod_eq_of_lt (permByte_lt _ _ _ _)]
  case shuffles =>
    have shuffle {mk : LaneOp → BitVec 7 → Instr} (f : Nat → Nat → Nat)
        (hw : ∀ o n, wellFormed (mk o n) = true → o.ty.isB3264 = true)
        (e : ∀ o n s, exec (mk o n) s = shuffle o [] (fun _ l => some (f n.toNat l)) s) : ∀ o n s h,
        wellFormed (mk o n) = true → Clear s h (regsOf o.ty o.a.toNat ++ regsOf o.ty o.d.toNat) →
          VectorResult (mk o n) s h (h.part o.g) o.ty o.d.toNat fun l _ => h.w.elem o.ty.width o.a.toNat (f n.toNat l) 0 :=
      fun o n s _ ok c => Clear.shuffle (vr := []) c (Ty.laneWidth_of_isB3264 (hw o n ok)) (e o n s)
    simp only [List.forall_mem_cons, List.not_mem_nil, false_imp_iff, implies_true, and_true]
    refine ⟨shuffle (fun n l => if n ≤ l then l - n else l) ?_ fun _ _ _ => rfl,
      shuffle (fun n l => if l + n < 96 then l + n else l) ?_ fun _ _ _ => rfl,
      shuffle (fun n l => if l ^^^ n < 96 then l ^^^ n else l) ?_ fun _ _ _ => rfl⟩
    all_goals
      intro o n ok
      simp only [wellFormed, Bool.and_eq_true] at ok
      obtain ⟨⟨⟨⟨⟨ht, -⟩, -⟩, -⟩, -⟩, -⟩ := ok
      exact ht
  case idx =>
    simp only [wellFormed, Bool.and_eq_true] at ok
    obtain ⟨⟨⟨ht, -⟩, -⟩, -⟩ := ok
    refine (Clear.shuffle (i := .vshflIdx o) (vr := [o.b.toNat]) c (Ty.laneWidth_of_isB3264 ht) rfl).imp
      fun w hv l j hl hm hj => ?_
    rw [hv l j hl hm hj]
    dsimp only
    split <;> rfl
  case vsel =>
    have e : exec (.vsel g ty d a b p) s = execVsel g ty d a b p s := rfl
    simp only [wellFormed, Bool.and_eq_true] at ok
    obtain ⟨⟨⟨ht, -⟩, -⟩, -⟩ := ok
    refine c.setElems e (by simp) (.inl rfl) (Ty.laneWidth_of_isB3264 ht) ?_
    dsimp only
    rw [c.ecc]
    rfl
  case vlid =>
    have e : exec (.vlid g d) s = execVlid g d s := rfl
    exact c.setWords e (by simp) (.inl rfl) rfl
  case fclass =>
    simp only [wellFormed] at ok
    exact c.vecInt1 (f := fun a => (classF o.ty a : Nat)) (VOp.laneWidth_of_okFlt ok rfl) rfl

end Sys2Proof.Machine

/-! Reductions and scans (R186, R187): they raise flags and leave Z. -/
namespace Sys2Proof.Machine

/-- R51: a meaning that raises flags and changes the wave by `f` within `x`: what the wave after it satisfies. -/
theorem Clear.arithCompletes {s : State} {h : Here} {rs : List Nat} (c : Clear s h rs) {i : Instr} {g : Guard} {u : Uses}
    {k : Here → Except Abort State} (e : exec i s = onWave g u s k) (hu : ∀ r ∈ u.vr ++ u.nm ++ u.vw, r ∈ rs)
    (hi : u.indexed = false) {m : Lanes} {fl : Nat → Flags} {z : W32} {f : Wave → Wave} (hk : k h = h.arith s m fl z f)
    {x : Writes} (hxf : x.flags = true) (hxz : x.z = true ∨ z = h.f.z) (hb : ∀ w, Body h x w → Body h x (f w))
    {q : Wave → Prop}
    (hq : let w := f (h.w.raised h.side (orFlags ((lanesOf m).map fl)) z)
      ∀ fr, w.frag h.side = some fr → q (w.setFrag h.side (some fr.advance))) :
    Trapping i s h m fl (Completes i s h x q) :=
  c.trapping e hu (.inl hi) hk fun e' =>
    (hb _ ((Body.refl c x).raised _ z hxf hxz)).completes
      (fun w => f (w.raised h.side (orFlags ((lanesOf m).map fl)) z)) e' hq

theorem Wave.flags_writeElems (w : Wave) (wd r : Nat) (m : Lanes) (f : Nat → Nat → Nat) :
    (w.writeElems wd r m f).flags = w.flags := by
  unfold Wave.writeElems
  split <;> rfl

/-- R186: with no participating lane the tree holds no value and raises nothing. -/
theorem redTree_empty (op : RedOp) (t : Ty) (how : How) (ftz : Bool) (f : Nat → RedVal) :
    ∀ n i, redTree op t how ftz 0 f n i = (none, [])
  | 0, i => by simp [redTree]
  | n + 1, i => by simp only [redTree, redTree_empty op t how ftz f n]

/-- R186: vred writes the value of its tree to a scalar. -/
theorem Clear.vred {s : State} {h : Here} {o : RedScan} (ok : wellFormed (.vred o) = true)
    (c : Clear s h (regsOf o.ty o.a.toNat)) :
    let r := redTree o.op o.ty (h.redHow o) (modeFtz h.w.mode) (h.part o.g) (h.redElem o.ty o.a) 7 0
    let fl (l : Nat) := orFlags ((r.2.filter fun x => x.1.getLsbD l).map (·.2))
    Trapping (.vred o) s h (h.part o.g) fl (Completes (.vred o) s h { s := [o.d.toNat], flags := true } fun w =>
      w.readS h.side o.d.toNat = h.stored o.d.toNat (fillS o.ty ((r.1.getD (redIdentity o.op o.ty)).bits o.ty)) ∧
        w.flags = h.w.flags ||| orFlags ((lanesOf (h.part o.g)).map fl)) := by
  intro r fl
  have e : exec (.vred o) s = execVred o s := rfl
  have hd : o.d.toNat % 64 = o.d.toNat := by
    simp only [wellFormed, RedScan.ok, Bool.false_eq_true, if_false, Bool.and_eq_true, decide_eq_true_eq] at ok
    obtain ⟨⟨-, -, hlt⟩, -⟩ := ok
    exact Nat.mod_eq_of_lt hlt
  refine c.arithCompletes (x := { s := [o.d.toNat], flags := true }) e (by simp) rfl rfl rfl (.inr rfl)
    (fun w b => b.writeS _ _ (.inl ?_)) fun fr hfr => ⟨?_, ?_⟩
  · rw [hd]
    exact List.mem_singleton_self _
  · rw [Wave.readS_advance _ _ _ hfr, hd, Wave.readS_writeS _ _ _ _ _ (raised_frag c.here _ _)]
    rfl
  · rw [Wave.setFrag_flags, Wave.flags_writeS, raised_flags c.here]

theorem elemsPerLane_pos {wd : Nat} (hw : laneWidth wd) : 0 < elemsPerLane wd := by
  rcases hw with rfl | rfl | rfl | rfl | rfl <;> decide

/-- R187: vscan writes each lane's running result. -/
theorem Clear.vscan {s : State} {h : Here} {o : RedScan} (ok : wellFormed (.vscan o) = true)
    (c : Clear s h (regsOf o.ty o.a.toNat ++ regsOf o.ty o.d.toNat)) :
    let r := scanLanes o (h.redHow o) (modeFtz h.w.mode) (fun l => (h.w.readP o.pc.toNat).getLsbD l)
      (h.redElem o.ty o.a) (lanesOf (h.part o.g)) (redIdentity o.op o.ty)
    let at_ (l : Nat) := (r.find? fun x => x.1 == l).getD (l, .int 0, 0)
    Trapping (.vscan o) s h (h.part o.g) (fun l => (at_ l).2.2)
      (Completes (.vscan o) s h { v := regsOf o.ty o.d.toNat, m := h.part o.g, flags := true } fun w =>
        (∀ l, l < 96 → (h.part o.g).getLsbD l = true →
          w.elem o.ty.width o.d.toNat l 0 = (at_ l).2.1.bits o.ty % 2 ^ o.ty.width) ∧
        w.flags = h.w.flags ||| orFlags ((lanesOf (h.part o.g)).map fun l => (at_ l).2.2)) := by
  intro r at_
  have e : exec (.vscan o) s = execVscan o s := rfl
  have hw : laneWidth o.ty.width := by
    simp only [wellFormed, RedScan.ok, Bool.and_eq_true] at ok
    obtain ⟨⟨⟨hop, -⟩, -⟩, -⟩ := ok
    refine Ty.laneWidth_of_class (types := o.op.ok) hop ?_
    cases o.op <;> rfl
  refine c.arithCompletes (x := { v := regsOf o.ty o.d.toNat, m := h.part o.g, flags := true }) e (by simp) rfl rfl rfl
    (.inr rfl) (fun w b => b.writeElems o.ty _ _ _ (fun _ a => a) fun _ _ a => a) fun fr hfr => ⟨fun l hl hm => ?_, ?_⟩
  · rw [Wave.elem_setFrag, Wave.elem_writeElems _ _ _ _ _ _ _ hl hm hw (elemsPerLane_pos hw)]
  · rw [Wave.setFrag_flags, Wave.flags_writeElems, raised_flags c.here]

/-- Settles O8: a tree over the lanes, or a scan through them, whose flags are raised and which leaves Z. -/
theorem reductionResults : Obligations.ReductionResults := by
  unfold Obligations.ReductionResults
  refine ⟨fun o s h ok c => ⟨c.vred ok, fun hm => ?_⟩, fun o s h ok c => c.vscan ok⟩
  rw [hm]
  exact redTree_empty _ _ _ _ _ 7 0

end Sys2Proof.Machine

/-! The activation table (R174 to R176, R257): fact, actflip and the flip of the banks. -/
namespace Sys2Proof.Machine

/-- R257: the stores of a core are the context's already. -/
theorem own_of_owner {s : State} {core ctx : Nat} (ho : (s.stores.owner.read core).toNat = ctx + 1) :
    s.own core ctx = some s := by
  simp only [State.own, ho, if_true]

/-- R258: where every word can be read no lane's segment fails. -/
theorem bind_badSegment {s : State} (hb : s.stores.bad = []) (core bank : Nat) (segment : Option Nat) :
    segment.bind (s.badSegment core bank) = none := by
  cases segment with
  | none => rfl
  | some i => simp [State.badSegment, hb]

/-- R175: fact evaluates the current bank's segment of each lane. -/
theorem Clear.fact {s : State} {h : Here} {d a : BitVec 8} (c : Clear s h [a.toNat, d.toNat])
    (ho : (s.stores.owner.read h.w.core).toNat = s.ctxOf h.w + 1) (hf : s.flipping h.w.core = false)
    (hb : s.stores.bad = []) (g : Guard) (rnd : Rnd) (sat : Sat) (b : BitVec 6) :
    let mode := h.rnd rnd
    let z := nextZ mode h.f.z
    let out (l : Nat) := actF (howOf mode z l 1 0) (modeDaz h.w.mode) (modeFtz h.w.mode) sat
      (s.coeff h.w.core (s.bankOf h.w.core)) (h.w.readV a.toNat l).toNat (bits (h.s b) 0 32) (bits (h.s b) 32 32)
    Trapping (.fact g rnd sat d a b) s h (h.part g) (fun l => (out l).2)
      (Completes (.fact g rnd sat d a b) s h { v := [d.toNat], m := h.part g, flags := true, z := true } fun w =>
        (∀ l, l < 96 → (h.part g).getLsbD l = true → w.readV d.toNat l = BitVec.ofNat 32 (out l).1) ∧
        w.flags = h.w.flags ||| orFlags ((lanesOf (h.part g)).map fun l => (out l).2)) := by
  intro mode z out
  have e : exec (.fact g rnd sat d a b) s = execFact g rnd sat d a b s := rfl
  refine c.arithCompletes (z := z) (fl := fun l => (out l).2)
    (f := fun w => w.writeV d.toNat (h.part g) fun l => BitVec.ofNat 32 (out l).1)
    e (by simp) rfl ?_ rfl (.inl rfl) (fun w b => b.writeV _ _ _ (List.mem_singleton_self _) fun _ _ a => a)
    fun fr _ => ⟨fun l hl hm => ?_, ?_⟩
  · simp only [own_of_owner ho, hf, Bool.false_eq_true, if_false, bind_badSegment hb, Option.isSome_none, List.filter_false,
      bne_self_eq_false]
    rfl
  · rw [Wave.readV_setFrag, Wave.readV_writeV _ _ _ _ _ _ hl, if_pos ⟨rfl, hm⟩]
  · rw [Wave.setFrag_flags, Wave.writeV_flags, raised_flags c.here]

/-- R176: an actflip that is not issued yet joins those pending, with the copies into the table that are older. -/
theorem Clear.actflip {s : State} {h : Here} {rs : List Nat} (c : Clear s h rs)
    (ho : (s.stores.owner.read h.w.core).toNat = s.ctxOf h.w + 1) (hw : ∀ n, h.f.wait ≠ .flip n) :
    let before := (s.copies.filter fun x => x.2.core == h.w.core && x.2.kind == .cpact).map (·.1)
    exec .actflip s = .next ({ s with
      stores := { s.stores with flips := s.stores.flips ++ [(h.w.core, h.key, s.draw, before)] },
      draw := s.draw + 1 }.putWave h.key (h.w.setFrag h.side (some { h.f with wait := .flip s.draw }))) := by
  intro before
  obtain ⟨-, -, hfrag, -⟩ := here_spec c.here
  have e : exec .actflip s = execActflip s := rfl
  rw [e, execActflip, c.onWave_scalars]
  split
  · exact absurd ‹_› (hw _)
  · simp only [own_of_owner ho, Here.await, id, hfrag, Option.getD_some]
    rfl

/-- The names of a fragment found in its wave. -/
theorem fragment_spec {s : State} {k : Nat} {b : Bool} {h : Here} (e : s.fragment k b = some h) :
    h.key = k ∧ h.side = b ∧ h.w.frag b = some h.f := by
  unfold State.fragment at e
  split at e
  · split at e
    · rename_i f _ hf
      cases e
      exact ⟨rfl, rfl, hf⟩
    · cases e
  · cases e

/-- A fragment that goes on and does nothing else keeps its wave, words that cannot be read among it. -/
theorem Kept.advance (h : Here) (x : Writes) : Kept h x (h.w.setFrag h.side (some h.f.advance)) where
  vector r l _ _ := by rw [Wave.readV_setFrag]
  scalar r _ _ := by rw [Wave.setFrag_s]
  predicate r l _ _ := by rw [Wave.readP_setFrag]
  flags _ := Wave.setFrag_flags ..
  mode _ := Wave.setFrag_mode ..
  other := by cases h.side <;> rfl
  fragment := ⟨h.f.advance, Wave.frag_setFrag_same .., rfl, rfl, rfl, rfl, fun _ => rfl, fun _ _ _ => rfl⟩
  rest := by cases h.side <;> rfl

/-- Going on in a state `s` leaves it but for the wave. -/
theorem framed_done_id {s : State} {h : Here} (hf : h.w.frag h.side = some h.f) (x : Writes) :
    Framed s (h.done s id) h x := by
  refine ⟨⟨_, rfl, ?_⟩, fun _ => rfl⟩
  rw [id, hf]
  exact Kept.advance h x

/-- The fragment of slot 0 is the first asked, so a wait that only one fragment stands at ends for that one. -/
theorem returnFrom_of_waiting {s : State} {k : Nat} {h : Here} {x : Wait} (e : s.fragment k h.side = some h)
    (hx : h.f.wait = x) (hfirst : h.side = true → ∀ g, s.fragment k false = some g → g.f.wait ≠ x) (d : Nat) (v : W64) :
    s.returnFrom k x d v = h.done s fun w => w.writeS h.side d v := by
  have hfound : ([false, true].findSome? fun b => (s.fragment k b).filter fun h => h.f.wait == x) = some h := by
    cases hside : h.side with
    | false => simp [← hside, e, hx]
    | true =>
      rw [hside] at e hfirst
      cases hg : s.fragment k false with
      | none => simp [hg, e, hx]
      | some g => simp [hg, e, hx, hfirst rfl g hg]
  rw [State.returnFrom, hfound]

/-- R176: what the flip of a core's banks leaves of the stores: the other bank, and no longer this actflip. -/
def Stores.flipped (t : Stores) (core k n : Nat) : Stores :=
  { t with bank := t.bank.write core (t.bank.read core ^^^ 1),
           flips := t.flips.filter fun x => !(x.2.1 == k && x.2.2.1 == n) }

/-- R176: the oldest actflip of a core takes effect once no copy before it and no drain with .act is left. -/
theorem exec_activationBankFlip {s : State} {core k n : Nat} {before : List Nat}
    (hflip : s.stores.flips.find? (fun x => x.1 == core) = some (core, k, n, before))
    (hcopies : ∀ x ∈ before, s.copies.get? x = none)
    (hdrains : ∀ x ∈ s.seqs, x.2.core = core → ∀ m ∈ x.2.ops, m.isActDrain = false) :
    exec (.activationBankFlip core) s =
      .next ({ s with stores := s.stores.flipped core k n }.returnFrom k (.flip n) 63 0) := by
  have e : exec (.activationBankFlip core) s = execActivationBankFlip core s := rfl
  have hc : (before.any fun x => (s.copies.get? x).isSome) = false := by simpa using hcopies
  have hd : (s.seqs.any fun x => x.2.core == core && x.2.ops.any MatOp.isActDrain) = false := by
    simpa using fun a b hmem => hdrains (a, b) hmem
  simp only [e, execActivationBankFlip, hflip, hc, hd, Bool.or_false, Bool.false_eq_true, if_false]
  rfl

/-- Settles O11: fact is one `arith` on the current bank; actflip joins the pending ones and its fragment waits until the flip
lets it go on with s63, which nothing writes. -/
theorem activationResults : Obligations.ActivationResults := by
  unfold Obligations.ActivationResults
  refine ⟨fun g rnd sat d a b s h c ho hf hb => c.fact ho hf hb g rnd sat b,
    fun s h c ho hw => ⟨_, c.actflip ho hw, rfl⟩, ?_⟩
  intro core k n before s h hflip hcopies hdrains s1 e hx hfirst
  obtain ⟨rfl, -, hf⟩ := fragment_spec e
  have hreturn : s1.returnFrom h.key (.flip n) 63 0 = h.done s1 id :=
    returnFrom_of_waiting (s := s1) e hx hfirst 63 0
  exact ⟨_, (exec_activationBankFlip hflip hcopies hdrains).trans (congrArg _ hreturn), rfl, framed_done_id hf {}⟩

end Sys2Proof.Machine

/-! Translations and the checks of accesses: where they let an access go on, they change cached translations alone. -/
namespace Sys2Proof.Machine

/-- `t` is `s` but for what caches of translations hold. -/
def TlbOnly (s t : State) : Prop := ∃ tlb, t = s.setMem { s.mem with tlb }

theorem TlbOnly.refl (s : State) : TlbOnly s s := ⟨_, rfl⟩

theorem TlbOnly.trans {s t u : State} (a : TlbOnly s t) (b : TlbOnly t u) : TlbOnly s u := by
  obtain ⟨_, rfl⟩ := a
  obtain ⟨_, rfl⟩ := b
  exact ⟨_, rfl⟩

theorem TlbOnly.byteAt {s t : State} (a : TlbOnly s t) (x : Nat) : t.mem.byteAt x = s.mem.byteAt x := by
  obtain ⟨_, rfl⟩ := a
  rfl

theorem TlbOnly.posts {s t : State} (a : TlbOnly s t) : t.mem.posts = s.mem.posts := by
  obtain ⟨_, rfl⟩ := a
  rfl

theorem TlbOnly.probeOk {s t : State} (a : TlbOnly s t) (l d : Nat) : t.probeOk l d = s.probeOk l d := by
  obtain ⟨_, rfl⟩ := a
  rfl

theorem TlbOnly.quiet {s t : State} (a : TlbOnly s t) : Quiet s t := by
  obtain ⟨_, rfl⟩ := a
  exact ⟨rfl, fun _ _ => rfl⟩

theorem TlbOnly.coherent {s t : State} (a : TlbOnly s t) (h : Coherent s) : Coherent t := by
  obtain ⟨_, rfl⟩ := a
  exact coherent_of_same (s := s) (fun _ _ => rfl) (fun _ => rfl) (fun _ _ => ⟨rfl, fun _ => rfl, fun _ _ => rfl, Iff.rfl⟩) h

theorem TlbOnly.reach {s t : State} (a : TlbOnly s t) {die : Nat} {ps : List Piece} (h : Reach s die ps) : Reach t die ps :=
  h.mono a.quiet

/-- R324: a walk that finds a leaf marks none. -/
theorem walk_ok {s s1 : State} {ctx va : Nat} {l : Leaf} (e : s.walk ctx va = (s1, .ok l)) : s1 = s := by
  unfold State.walk at e
  split at e
  · cases e
  · dsimp only at e
    split at e
    · cases e
    · split at e <;> cases e
      rfl

/-- R328: a leaf comes from a cache, or from a walk whose leaf the caches may keep. -/
theorem leafFor_ok {s s1 : State} {u ctx va : Nat} {l : Leaf} (e : s.leafFor u ctx va = (s1, .ok l)) : TlbOnly s s1 := by
  unfold State.leafFor at e
  split at e
  · cases e
  · split at e
    · cases e
      exact .refl s
    · split at e
      · cases e
      · rename_i hw
        cases walk_ok hw
        split at e <;> cases e
        · exact ⟨_, rfl⟩
        · exact .refl s

theorem translate_ok {s s1 : State} {u ctx va pa : Nat} {k : Access} (e : s.translate u ctx va k = (s1, .ok pa)) :
    TlbOnly s s1 := by
  unfold State.translate at e
  split at e
  · cases e
  · rename_i hl
    split at e
    · cases e
    · dsimp only at e
      split at e <;> cases e
      exact leafFor_ok hl

/-- R194: the pieces of an access, where each has its translation. -/
theorem xlate_ok {u ctx : Nat} {k : Access} : ∀ (cs : List (Nat × Nat)) (s : State),
    (∀ r ∈ (State.xlate u ctx k s cs).2, ∃ pa, r.2.2 = .ok pa) → TlbOnly s (State.xlate u ctx k s cs).1
  | [], s, _ => .refl s
  | (a, n) :: rest, s, h => by
    obtain ⟨pa, hpa⟩ := h _ List.mem_cons_self
    have hhead : TlbOnly s (s.translate u ctx a k).1 := translate_ok (pa := pa) (Prod.ext rfl hpa)
    exact hhead.trans (xlate_ok rest _ fun r hr => h r (List.mem_cons_of_mem _ hr))

/-- The five ways in which a translation can fail. -/
theorem ok_of_not_failed {r : Except TErr Nat} (h : ∀ e, failed e r = false) : ∃ pa, r = .ok pa := by
  cases r with
  | ok pa => exact ⟨pa, rfl⟩
  | error e => exact absurd (h e) (by simp [failed])

/-- R195: a global access that may go on has changed cached translations alone. -/
theorem checkGlobal_ok {s s1 : State} {core a n : Nat} {l : Launch} {k : Access} {ps : List Piece}
    (e : s.checkGlobal core l k a n = (s1, .ok ps)) : TlbOnly s s1 := by
  unfold State.checkGlobal at e
  dsimp only at e
  have h1 := congrArg Prod.fst e
  have h2 := congrArg Prod.snd e
  dsimp only at h1 h2
  rw [← h1]
  split at h2
  · cases h2
  rename_i habsent
  split at h2
  · cases h2
  rename_i hpage
  split at h2
  · cases h2
  rename_i hmemecc
  split at h2
  · cases h2
  rename_i hprot
  split at h2
  · cases h2
  split at h2
  · cases h2
  split at h2
  · cases h2
  rename_i hsnapshot
  refine xlate_ok _ _ fun r hr => ok_of_not_failed fun e => ?_
  have hall {e : TErr} (hn : ¬ ((State.xlate core l.ctx k s (cuts a n)).2.any fun r => failed e r.2.2) = true) :
      failed e r.2.2 = false := by
    simp only [List.any_eq_true, not_exists, not_and] at hn
    exact Bool.eq_false_iff.mpr (hn r hr)
  cases e with
  | page => exact hall hpage
  | prot => exact hall hprot
  | memecc => exact hall hmemecc
  | snapshot => exact hall hsnapshot
  | absent => exact hall habsent

/-- R195: a check that fails names a cause. -/
theorem checkGlobal_bad {s s1 : State} {core a n : Nat} {l : Launch} {k : Access} {c : W64}
    (e : s.checkGlobal core l k a n = (s1, .bad c)) : c ≠ 0 := by
  unfold State.checkGlobal at e
  have h2 := congrArg Prod.snd e
  dsimp only at h2
  split at h2
  · cases h2
  split at h2
  · cases h2; decide
  split at h2
  · cases h2; decide
  split at h2
  · cases h2; decide
  split at h2
  · cases h2; decide
  split at h2
  · cases h2; decide
  split at h2 <;> cases h2

/-- R195: every lane passes. -/
theorem allPass_ok {h : Here} {s : State} {addr : Nat → W64} {rs : List (Nat × LaneCheck)} {ps : List (Nat × List Piece)}
    (e : h.allPass s addr rs = .ok ps) (hbad : ∀ r ∈ rs, r.2 ≠ .bad 0) :
    (∀ r ∈ rs, ∃ q, r.2 = .ok q) ∧ ps = rs.map fun r => (r.1, match r.2 with | .ok q => q | _ => []) := by
  unfold Here.allPass at e
  split at e
  · cases e
  rename_i habsent
  dsimp only at e
  split at e
  · cases e
  rename_i hcause
  split at e
  · cases e
  rename_i hwait
  cases e
  refine ⟨fun r hr => ?_, rfl⟩
  simp only [bne_iff_ne, ne_eq, not_not, List.filter_eq_nil_iff] at hcause
  simp only [List.any_eq_true, beq_iff_eq, not_exists, not_and] at habsent hwait
  cases hq : r.2 with
  | ok q => exact ⟨q, rfl⟩
  | bad c =>
    have hc := hcause r hr
    have hne := hbad r hr
    rw [hq] at hc hne
    exact absurd (congrArg LaneCheck.bad (show c = 0 by simpa [LaneCheck.cause] using hc)) hne
  | wait => exact absurd hq (hwait r hr)
  | absent => exact absurd hq (habsent r hr)

/-- Lanes that all pass are let go on, to their pieces. -/
theorem allPass_of_ok (h : Here) (s : State) (addr : Nat → W64) {rs : List (Nat × LaneCheck)}
    (hok : ∀ r ∈ rs, ∃ q, r.2 = .ok q) :
    h.allPass s addr rs = .ok (rs.map fun r => (r.1, match r.2 with | .ok q => q | _ => [])) := by
  have habsent : (rs.any fun r => r.2 == .absent) = false := List.any_eq_false.mpr fun r hr => by
    obtain ⟨q, hq⟩ := hok r hr
    simp [hq]
  have hwait : (rs.any fun r => r.2 == .wait) = false := List.any_eq_false.mpr fun r hr => by
    obtain ⟨q, hq⟩ := hok r hr
    simp [hq]
  have hcause : rs.filter (fun r => r.2.cause != 0) = [] := List.filter_eq_nil_iff.mpr fun r hr => by
    obtain ⟨q, hq⟩ := hok r hr
    simp [hq, LaneCheck.cause]
  simp only [Here.allPass, habsent, hwait, hcause, Bool.false_eq_true, if_false, bne_self_eq_false] <;> rfl

section Checks
variable {chk : State → Nat → State × LaneCheck}

/-- Checks that change cached translations alone where they pass do so for all lanes together. -/
theorem checkLanes_ok (hchk : ∀ {t t1 l ps}, chk t l = (t1, .ok ps) → TlbOnly t t1) : ∀ (ls : List Nat) (s : State),
    (∀ r ∈ (checkLanes chk s ls).2, ∃ q, r.2 = .ok q) → TlbOnly s (checkLanes chk s ls).1
  | [], s, _ => .refl s
  | l :: ls, s, h => by
    obtain ⟨q, hq⟩ := h _ List.mem_cons_self
    have hhead : TlbOnly s (chk s l).1 := hchk (ps := q) (Prod.ext rfl hq)
    exact hhead.trans (checkLanes_ok hchk ls _ fun r hr => h r (List.mem_cons_of_mem _ hr))

theorem checkLanes_bad (hchk : ∀ {t t1 l c}, chk t l = (t1, .bad c) → c ≠ 0) : ∀ (ls : List Nat) (s : State),
    ∀ r ∈ (checkLanes chk s ls).2, r.2 ≠ .bad 0
  | [], _, r, hr => absurd hr List.not_mem_nil
  | l :: ls, s, r, hr => by
    rcases List.mem_cons.mp hr with rfl | hr
    · exact fun e => hchk (t1 := (chk s l).1) (Prod.ext rfl e) rfl
    · exact checkLanes_bad hchk ls _ r hr

theorem checkLanes_lanes : ∀ (ls : List Nat) (s : State), (checkLanes chk s ls).2.map (·.1) = ls
  | [], _ => rfl
  | _ :: ls, _ => congrArg _ (checkLanes_lanes ls _)

/-- Checks that change cached translations alone where they pass, and name a cause where they fail. -/
theorem Passes.tlbOnly {h : Here} {s s1 : State} {ls : List Nat} {addr : Nat → W64} {ps : List (Nat × List Piece)}
    (p : Passes h s chk ls addr s1 ps) (hok : ∀ {t t1 l ps}, chk t l = (t1, .ok ps) → TlbOnly t t1)
    (hbad : ∀ {t t1 l c}, chk t l = (t1, .bad c) → c ≠ 0) : TlbOnly s s1 := by
  obtain ⟨rfl, hp⟩ := p
  exact checkLanes_ok hok ls s (allPass_ok hp (checkLanes_bad hbad ls s)).1

end Checks

/-- R195: the checks of the lanes of a global access that all pass. -/
theorem Passes.global {h : Here} {s s1 : State} {k : Access} {addr : Nat → W64} {n : Nat} {ls : List Nat}
    {ps : List (Nat × List Piece)} (p : Passes h s (h.globalChecks s k addr n) ls addr s1 ps) : TlbOnly s s1 :=
  p.tlbOnly checkGlobal_ok checkGlobal_bad

end Sys2Proof.Machine

/-! Reads change no byte: landings, fetches, checks and loads. -/
namespace Sys2Proof.Machine

/-- R91, R491: a fetch that answers a line has noted at most that a bad copy is gone, and counted the retry. -/
theorem fetchLine_line {s s1 : State} {core ctx addr : Nat} {l : CodeLine} (e : s.fetchLine core ctx addr = (s1, .ok (some l))) :
    parityOk l = true ∧ ∃ tlb bf c, s1 = { s with mem := { s.mem with tlb := tlb }, stores := { s.stores with badFetch := bf },
                                                  health := { s.health with counters := c } } := by
  unfold State.fetchLine at e
  split at e
  · split at e <;> cases e
  · rename_i t pa ht
    obtain ⟨tlb, rfl⟩ := translate_ok ht
    split at e
    · cases e
    · dsimp only at e
      have h1 := congrArg Prod.fst e
      have h2 := congrArg Prod.snd e
      dsimp only at h1 h2
      split at h2
      · rename_i hpar
        refine ⟨Option.some.inj (Except.ok.inj h2) ▸ hpar, ?_⟩
        rw [← h1]
        split <;> exact ⟨tlb, _, _, rfl⟩
      · cases h2

theorem landing_dest {s s1 : State} {core ctx : Nat} {p t : Pc} {l : CodeLine}
    (e : s.landing core ctx p = .ok (s1, { dest := some (t, l) })) :
    t = p ∧ lineKind l ≠ 3 ∧ lineTgt l (slotOf p) = true ∧ s.fetchLine core ctx (lineAddr p) = (s1, .ok (some l)) := by
  unfold State.landing at e
  dsimp only at e
  split at e
  case h_6 hf =>
    split at e
    · cases e
    · rename_i hl
      cases e
      simp only [Bool.or_eq_true, beq_iff_eq, Bool.not_eq_true', not_or, Bool.not_eq_false] at hl
      exact ⟨rfl, hl.1, hl.2, hf⟩
  all_goals cases e

/-- R268: one piece inside its line, read by a core whose L1 does not serve it. -/
theorem loadPieces_one {s : State} {core : Nat} (alloc : Bool) {p : Piece} (hr : Reach s (core / 512) [p]) (hd : core / 512 < 8)
    (hc : Coherent s) (hp : p.pa % 128 + p.len ≤ 128) (hn : s.mem.l1.get? (l1Key core (p.pa / 128)) = none) :
    (s.loadPieces core alloc [p]).2 = (List.range p.len).map fun i => s.mem.byteAt (p.pa + i) := by
  obtain ⟨hb, hpos, hpr⟩ := hr p List.mem_cons_self
  have hv := coreLine_value alloc (show p.pa / 128 < 2 ^ 45 by omega) hd (hpr _ (mem_linesOf.mpr (by omega))) hc hn
  rw [State.loadPieces, State.loadPieces, List.append_nil, hv]
  refine List.map_congr_left fun i hi => ?_
  have hi := List.mem_range.mp hi
  rw [byteAt_eq, show (p.pa + i) / 128 = p.pa / 128 by omega, show (p.pa + i) % 128 = p.pa % 128 + i by omega]

/-- Settles O22: what may go on has changed cached translations alone; a load reads lines, which the directory serves quietly. -/
theorem readsAreQuiet : Obligations.ReadsAreQuiet := by
  refine ⟨fun s s1 die ctx va k pa e => translate_ok e, fun s s1 core ctx p l t e => ?_, fun h s s1 k addr n ls ps p => p.global,
    fun s core alloc ps hc hcore hr hps => ?_⟩
  · obtain ⟨ht, hkind, htgt, hf⟩ := landing_dest e
    obtain ⟨hpar, hs⟩ := fetchLine_line hf
    exact ⟨ht, hpar, hkind, htgt, hs⟩
  · have hd : core / 512 < 8 := by omega
    obtain ⟨hco, hq⟩ := loadPieces_quiet alloc hd ps s hr hc
    refine ⟨hco, hq, fun p e hn => ?_⟩
    subst e
    exact loadPieces_one alloc hr hd hc (hps p List.mem_cons_self) hn

end Sys2Proof.Machine

/-! What requests of the directory leave of memory: home copies, the copies of dies and entries apart, everything. -/
namespace Sys2Proof.Machine

/-- Memory is as before but for what dies hold of its lines. -/
def DirOnly (m m' : MemSys) : Prop := ∃ ram l2 dir dirBad, m' = { m with ram, l2, dir, dirBad }

theorem DirOnly.refl (m : MemSys) : DirOnly m m := ⟨_, _, _, _, rfl⟩

theorem DirOnly.trans {m m' m'' : MemSys} (a : DirOnly m m') (b : DirOnly m' m'') : DirOnly m m'' := by
  obtain ⟨_, _, _, _, rfl⟩ := a
  obtain ⟨_, _, _, _, rfl⟩ := b
  exact ⟨_, _, _, _, rfl⟩

theorem DirOnly.posts {m m' : MemSys} (a : DirOnly m m') : m'.posts = m.posts := by
  obtain ⟨_, _, _, _, rfl⟩ := a
  rfl

theorem DirOnly.poison {m m' : MemSys} (a : DirOnly m m') : m'.poison = m.poison := by
  obtain ⟨_, _, _, _, rfl⟩ := a
  rfl

theorem setEntry_dirOnly (s : State) (m : MemSys) (l : Nat) (o : Option Nat) (sh : BitVec 8) : DirOnly m (s.setEntry m l o sh) :=
  ⟨_, _, _, _, rfl⟩

theorem recallFrom_dirOnly (l : Nat) : ∀ (dies : List Nat) (m : MemSys), DirOnly m (m.recallFrom l dies)
  | [], m => .refl m
  | d :: ds, m => by
    have hone : DirOnly m (m.recallFrom l [d]) := by
      rw [MemSys.recallFrom, List.foldl_cons, List.foldl_nil]
      split
      · dsimp only
        split <;> exact ⟨_, _, _, _, rfl⟩
      · exact .refl m
    exact hone.trans (recallFrom_dirOnly l ds _)

theorem probe_mem (s : State) (l : Nat) (ts : List Nat) : (s.probe l ts).1.mem = s.mem := by
  have hfold : ∀ (ds : List Nat) (s : State), (ds.foldl (fun s d => s.probeDrop l d) s).mem = s.mem := by
    intro ds
    induction ds with
    | nil => exact fun _ => rfl
    | cons d ds ih => exact fun s => ih (s.probeDrop l d)
  exact hfold _ s

theorem recoverLine_dirOnly (s : State) (l : Nat) : DirOnly s.mem (s.recoverLine l).mem := by
  unfold State.recoverLine
  split
  · exact (recallFrom_dirOnly l _ s.mem).trans ⟨_, _, _, _, rfl⟩
  · exact .refl _

theorem recall_dirOnly (s : State) (l : Nat) : DirOnly s.mem (s.recall l).mem := by
  unfold State.recall
  dsimp only
  split
  · exact recoverLine_dirOnly s l
  · refine (recoverLine_dirOnly s l).trans (DirOnly.trans ?_ (setEntry_dirOnly ..))
    rw [← probe_mem (s.recoverLine l)]
    exact recallFrom_dirOnly ..

theorem doGetS_dirOnly (s : State) (d l : Nat) : DirOnly s.mem (s.doGetS d l).mem := by
  refine (recoverLine_dirOnly s l).trans ?_
  unfold State.doGetS
  dsimp only
  split
  · split
    · exact .refl _
    · exact ⟨_, _, _, _, rfl⟩
  · split
    · exact .refl _
    · rename_i e _ _
      have hp := probe_mem (s.recoverLine l) l (match e.owner with | some o => [o] | none => [])
      generalize (s.recoverLine l).probe l (match e.owner with | some o => [o] | none => []) = r at hp
      rw [← hp]
      cases e.owner with
      | none => split_ifs <;> exact ⟨_, _, _, _, rfl⟩
      | some o =>
        dsimp only
        cases r.1.mem.l2.get? (l2Key o l) with
        | none => split_ifs <;> exact ⟨_, _, _, _, rfl⟩
        | some c =>
          dsimp only
          split_ifs <;> exact ⟨_, _, _, _, rfl⟩

theorem homeWrite_posts (s : State) (pa n : Nat) (f : Nat → Byte) (skip : Option (Nat × Nat)) :
    (s.homeWrite pa n f skip).mem.posts = s.mem.posts := by
  have hfold : ∀ (ls : List Nat) (s : State), (ls.foldl (fun s l => s.recall l) s).mem.posts = s.mem.posts := by
    intro ls
    induction ls with
    | nil => exact fun _ => rfl
    | cons l ls ih => exact fun s => (ih (s.recall l)).trans (recall_dirOnly s l).posts
  exact hfold (linesOf pa n) s

/-- R268: a line read leaves the pending stores. -/
theorem coreLine_posts (s : State) (core l : Nat) (alloc : Bool) : (s.coreLine core l alloc).1.mem.posts = s.mem.posts := by
  unfold State.coreLine
  split
  · rfl
  · dsimp only
    have hline : (match s.mem.l2.get? (l2Key (core / 512) l) with | some _ => s | none => s.doGetS (core / 512) l).mem.posts =
        s.mem.posts := by
      split
      · rfl
      · exact (doGetS_dirOnly s _ l).posts
    split_ifs <;> exact hline

theorem loadPieces_posts (core : Nat) (alloc : Bool) : ∀ (ps : List Piece) (s : State),
    (s.loadPieces core alloc ps).1.mem.posts = s.mem.posts
  | [], _ => rfl
  | _ :: ps, s => (loadPieces_posts core alloc ps _).trans (coreLine_posts s core _ alloc)

theorem loadLanes_posts (core : Nat) (alloc : Bool) (gs : List Glimpse) : ∀ (ls : List (Nat × List Piece)) (s : State),
    (State.loadLanes core alloc gs s ls).1.mem.posts = s.mem.posts
  | [], _ => rfl
  | x :: rest, s => (loadLanes_posts core alloc gs rest _).trans (loadPieces_posts core alloc x.2 s)

end Sys2Proof.Machine

/-! What a load leaves beside its lines, and its register. -/
namespace Sys2Proof.Machine

section NoneMet
variable {s : State} {ps : List Piece} (hp : ∀ p ∈ s.mem.posts, (p.parts.any fun x => ps.any x.meets) = false)
include hp

/-- Where no pending event touches the pieces, a load sees none. -/
theorem glimpses_none (core id : Nat) (whole : List Nat) : s.glimpses core id ps whole = [] := by
  have hfilter : s.mem.posts.filter (fun p => p.parts.any fun x => ps.any x.meets) = [] :=
    List.filter_eq_nil_iff.mpr fun p h => by simp [hp p h]
  rw [State.glimpses, hfilter]
  rfl

/-- A load that has seen no pending event changes none, and draws nothing. -/
theorem sawPosts_none (id : Nat) : s.sawPosts id ps [] = s := by
  have hdraws : (s.mem.posts.all fun p => p.seenBy id || !(p.parts.any fun x => ps.any x.meets)) = true :=
    List.all_eq_true.mpr fun p h => by simp [hp p h]
  have hposts : (s.mem.posts.map fun p => if ([] : List Nat).contains p.tok then { p with obs := id :: p.obs } else p) =
      s.mem.posts := by simp
  rw [State.sawPosts]
  simp only [List.filter_nil, List.map_nil, hdraws, if_true, hposts]
  rw [State.settle, duePosts_none _ fun _ _ => by simp]
  rfl

end NoneMet

theorem tagL1_quiet (s : State) (core ctx : Nat) (ps : List Piece) : Quiet s (s.tagL1 core ctx ps) := ⟨rfl, fun _ _ => rfl⟩

/-- R204, R228: a load that meets no pending event leaves the state as its lines left it, but for the addresses that reached them. -/
theorem loadDone_quiet {h : Here} {s s1 q : State} {ps : List (Nat × List Piece)} (h1 : TlbOnly s s1) (hq : Quiet s q)
    (hpost : q.mem.posts = s.mem.posts)
    (hp : ∀ p ∈ s.mem.posts, (p.parts.any fun x => (ps.flatMap (·.2)).any x.meets) = false) : Quiet s (h.loadDone s1 q ps) := by
  rw [Here.loadDone, Here.glimpses, glimpses_none (h1.posts ▸ hp), sawPosts_none (hpost ▸ hp)]
  exact hq.trans (tagL1_quiet ..)

/-- The wave of an instruction that goes on, whose effect on it keeps all but `x`. -/
theorem Body.kept {h : Here} {x : Writes} (g : Wave → Wave) (b : Body h x (g h.w)) :
    ∃ f, (g h.w).frag h.side = some f ∧ Kept h x ((g h.w).setFrag h.side (some f.advance)) := by
  obtain ⟨f, ef, -⟩ := b.fragment
  obtain ⟨⟨w, hw, hk⟩, -⟩ := b.framed (s := State.reset) g
  have hget := congrArg (fun s : State => s.waves.get? h.key) hw
  simp only [done_wave, ef, Option.getD_some, State.putWave, Table.get?_put_same, Option.some.injEq] at hget
  exact ⟨f, ef, hget ▸ hk⟩

/-- A meaning that changes its wave by `g`, what is beside it to `s1`, and goes on. -/
theorem Body.ends {i : Instr} {s s1 : State} {h : Here} {x : Writes} {q : Wave → Prop} (g : Wave → Wave)
    (b : Body h x (g h.w)) (e : exec i s = .next (h.done s1 g))
    (hq : ∀ f, (g h.w).frag h.side = some f → q ((g h.w).setFrag h.side (some f.advance))) : Ends i s s1 h x q := by
  obtain ⟨f, ef, hk⟩ := b.kept g
  refine ⟨_, e.trans ?_, hk, hq f ef⟩
  rw [Here.done, ef, Option.getD_some]

theorem Body.writeData {h : Here} {x : Writes} {w : Wave} (b : Body h x w) (t : Ty) (rf : RForm) (d : BitVec 8) (m : Lanes)
    (f : Nat → Nat) (hr : ∀ r ∈ dataRegs t rf d.toNat, r ∈ x.v) (hm : ∀ l, l < 96 → m.getLsbD l = true → x.m.getLsbD l = true) :
    Body h x (w.writeData t rf d m f) := by
  unfold dataRegs at hr
  unfold Wave.writeData
  split
  · rename_i hp
    rw [if_pos hp] at hr
    exact b.writeV64 _ _ _ (hr _ (by simp)) (hr _ (by simp)) hm
  · rename_i hp
    rw [if_neg hp] at hr
    exact b.writeV _ _ _ (hr _ (by simp)) hm

/-- R193: the register side of a lane after its data is written. -/
theorem Wave.dataIs_writeData (w : Wave) (t : Ty) (rf : RForm) (d : BitVec 8) (m : Lanes) (f : Nat → Nat) {l : Nat} (hl : l < 96)
    (hm : m.getLsbD l = true) : (w.writeData t rf d m f).dataIs t rf d.toNat l (f l) := by
  unfold Wave.dataIs Wave.writeData
  split
  · have he := Wave.elem_writeElems w 64 d.toNat m (fun l _ => f l) l 0 hl hm (by simp [laneWidth]) (by simp [elemsPerLane])
    simp only [Wave.elem, Wave.writeElems, if_true] at he
    exact BitVec.eq_of_toNat_eq (by rw [he, BitVec.toNat_ofNat])
  · rw [Wave.readV_writeV _ _ _ _ _ _ hl, if_pos ⟨rfl, hm⟩]

theorem Wave.dataIs_setFrag (w : Wave) (b : Bool) (g : Option Fragment) (t : Ty) (rf : RForm) (r l x : Nat) :
    (w.setFrag b g).dataIs t rf r l x ↔ w.dataIs t rf r l x := by
  simp only [Wave.dataIs, Wave.readV64, Wave.readV_setFrag]

end Sys2Proof.Machine

/-! Vector loads: the lanes that pass, their lines and the register. -/
namespace Sys2Proof.Machine

/-- R196: what a load does once its lanes have passed: they are read, or those that meet poison adjourn the wave. -/
def Here.readLanes (h : Here) (s1 : State) (addr : Nat → W64) (hnt : Hint) (ps : List (Nat × List Piece)) :
    Except Abort (State × List (Nat × Nat)) :=
  let bad := ps.filter fun x => x.2.any (s1.spoiled h.w.core)
  if bad != [] then
    .error (h.consumes s1 ((bad.flatMap (·.2)).filter (s1.spoiled h.w.core)) (h.lanesReport cMEMECC (lanesMask (bad.map (·.1))) addr))
  else
    let q := State.loadLanes h.w.core (hnt != .stream) (h.glimpses s1 ps) s1 ps
    .ok (h.loadDone s1 q.1 ps, q.2)

section Loads
variable {s s1 : State} {h : Here} {ls : List Nat} {addr : Nat → W64} {n : Nat} {ps : List (Nat × List Piece)}

/-- R195, R196: a load of lanes that all pass, and of which none meets poison. -/
theorem loadGlobal_ok (hnt : Hint) (hp : Passes h s (h.globalChecks s .read addr n) ls addr s1 ps)
    (hs : ∀ x ∈ ps, ∀ p ∈ x.2, s1.spoiled h.w.core p = false) :
    let q := State.loadLanes h.w.core (hnt != .stream) (h.glimpses s1 ps) s1 ps
    h.loadGlobal s ls addr n hnt = .ok (h.loadDone s1 q.1 ps, q.2) := by
  obtain ⟨rfl, hpass⟩ := hp
  have hbad : ps.filter (fun x => x.2.any ((checkLanes (h.globalChecks s .read addr n) s ls).1.spoiled h.w.core)) = [] := by
    refine List.filter_eq_nil_iff.mpr fun x hx => ?_
    simp only [List.any_eq_true, not_exists, not_and]
    exact fun p hp => by simp [hs x hx p hp]
  have hdef : h.loadGlobal s ls addr n hnt =
      (h.allPass (checkLanes (h.globalChecks s .read addr n) s ls).1 addr (checkLanes (h.globalChecks s .read addr n) s ls).2 >>=
        h.readLanes (checkLanes (h.globalChecks s .read addr n) s ls).1 addr hnt) := rfl
  intro q
  rw [hdef, hpass]
  change h.readLanes _ addr hnt ps = _
  rw [Here.readLanes, hbad]
  rfl

/-- R268: what the lines of such a load leave of memory, and what the load leaves where it meets no pending event. -/
theorem load_quiet (alloc : Bool) (gs : List Glimpse) (h1 : TlbOnly s s1) (hc : Coherent s) (hcore : h.w.core < 4096)
    (hr : ∀ x ∈ ps, Reach s (h.w.core / 512) x.2) :
    let q := State.loadLanes h.w.core alloc gs s1 ps
    Quiet s q.1 ∧ ((∀ p ∈ s.mem.posts, (p.parts.any fun x => (ps.flatMap (·.2)).any x.meets) = false) →
      Quiet s (h.loadDone s1 q.1 ps)) := by
  have hq := h1.quiet.trans (loadLanes_quiet alloc gs (show h.w.core / 512 < 8 by omega) ps s1
    (fun x hx => h1.reach (hr x hx)) (h1.coherent hc)).2
  exact ⟨hq, loadDone_quiet h1 hq ((loadLanes_posts ..).trans h1.posts)⟩

/-- R199: a meaning that loads its lanes and writes their values to its register. -/
theorem Clear.globalLoad {rs : List Nat} (c : Clear s h rs) {i : Instr} {g : Guard} {u : Uses} {k : Here → Except Abort State}
    (e : exec i s = onWave g u s k) (hu : ∀ r ∈ u.vr ++ u.nm ++ u.vw, r ∈ rs) (hi : u.indexed = false) {m : Lanes} {ty : Ty}
    {rf : RForm} {d : BitVec 8} {hnt : Hint}
    (hk : k h = (h.loadGlobal s (lanesOf m) addr (laneBytes ty rf) hnt >>= fun x => h.loaded x.1 ty rf d m x.2))
    (hp : Passes h s (h.globalChecks s .read addr (laneBytes ty rf)) (lanesOf m) addr s1 ps)
    (hs : ∀ x ∈ ps, ∀ p ∈ x.2, s1.spoiled h.w.core p = false) :
    let q := State.loadLanes h.w.core (hnt != .stream) (h.glimpses s1 ps) s1 ps
    Ends i s (h.loadDone s1 q.1 ps) h { v := dataRegs ty rf d.toNat, m } (fun w =>
      ∀ l, l < 96 → m.getLsbD l = true → w.dataIs ty rf d.toNat l (loadValue ty rf (laneOf q.2 l))) := by
  intro q
  rw [loadGlobal_ok hnt hp hs] at hk
  exact ((Body.refl c _).writeData ty rf d m _ (fun _ a => a) (fun _ _ a => a)).ends
    (fun w => w.writeData ty rf d m fun l => loadValue ty rf (laneOf q.2 l)) (e.trans (c.onWave_ok g u k hu (.inl hi) hk))
    fun f _ l hl hm => (Wave.dataIs_setFrag ..).mpr (Wave.dataIs_writeData _ _ _ _ _ _ hl hm)

end Loads

/-- Settles O23: both instructions are one load of their lanes, at the addresses that they form. -/
theorem loadResults : Obligations.LoadResults := by
  constructor
  · intro o s h s1 ps c hp hs
    exact ⟨c.globalLoad (u := { vr := amRegs o.am o.b, vw := dataRegs o.ty o.rf o.v.toNat, sr := [o.a.toNat], pr := o.g.pregs })
      rfl (by simp) rfl rfl hp hs, load_quiet _ _ hp.global⟩
  · intro g ty hnt rf d a b e s h s1 ps c addr hp hs
    exact ⟨c.globalLoad (u := { vw := dataRegs ty rf d.toNat, sr := [a.toNat, b.toNat], pr := g.pregs })
      rfl (by simp) rfl rfl hp hs, load_quiet _ _ hp.global⟩

end Sys2Proof.Machine

/-! Store events: what they leave together, and that their issue changes no byte. -/
namespace Sys2Proof.Machine

/-- What store events leave of memory, one after another. -/
def postsPatched (l : List Post) (f : Nat → Byte) : Nat → Byte := l.foldl (fun f p => patched p.parts p.data f) f

theorem postsPatched_append (l l' : List Post) (f : Nat → Byte) : postsPatched (l ++ l') f = postsPatched l' (postsPatched l f) :=
  List.foldl_append

/-- One event for every byte of a piece, with the bytes from number `k` on. -/
theorem postsPatched_bytes (va pa k : Nat) (bs : List Byte) (f : Nat → Byte) : ∀ n,
    postsPatched ((List.range n).map fun i => { parts := [⟨va + i, pa + i, 1⟩], data := [bs.getD (k + i) 0] }) f =
      fun a => if pa ≤ a ∧ a < pa + n then bs.getD (k + (a - pa)) 0 else f a
  | 0 => by
    funext a
    rw [if_neg (by omega)]
    rfl
  | n + 1 => by
    rw [List.range_succ, List.map_append, postsPatched_append, postsPatched_bytes va pa k bs f n]
    funext a
    simp only [postsPatched, List.map_cons, List.map_nil, List.foldl_cons, List.foldl_nil, patched]
    by_cases ha : a = pa + n
    · subst ha
      simp
    · rw [if_neg (by omega)]
      exact if_congr (by omega) rfl rfl

theorem zipIdx_range_map {α : Type} (g : Nat → α) (n k : Nat) :
    ((List.range n).map g).zipIdx k = (List.range n).map fun i => (g i, k + i) :=
  List.ext_getElem (by simp) fun i _ _ => by simp

/-- The same for the bytes of several pieces. -/
theorem postsPatched_pieces (bs : List Byte) : ∀ (ps : List Piece) (k : Nat) (f : Nat → Byte),
    postsPatched (((ps.flatMap fun p => (List.range p.len).map fun i => (⟨p.va + i, p.pa + i, 1⟩ : Piece)).zipIdx k).map fun x =>
      { parts := [x.1], data := [bs.getD x.2 0] }) f = patched ps (bs.drop k) f
  | [], _, _ => rfl
  | p :: ps, k, f => by
    rw [List.flatMap_cons, List.zipIdx_append, List.map_append, postsPatched_append, zipIdx_range_map, List.map_map]
    simp only [Function.comp_def]
    rw [postsPatched_bytes, postsPatched_pieces bs ps, patched]
    simp [List.drop_drop, List.getD_eq_getElem?_getD, List.getElem?_drop]

/-- R229, R230: the events of one lane leave its bytes. -/
theorem lanePosts_patched (ps : List Piece) (bs : List Byte) (f : Nat → Byte) : postsPatched (lanePosts ps bs) f = patched ps bs f := by
  have hbytes := postsPatched_pieces bs ps 0 f
  unfold lanePosts
  split
  · rename_i p
    split
    · rfl
    · have h := postsPatched_bytes p.va p.pa 0 bs f p.len
      simp only [Nat.zero_add] at h
      exact h
  · exact hbytes

theorem post_byteAt (h : Here) (s : State) (l : List Post) (a : Nat) : (h.post s l).mem.byteAt a = s.mem.byteAt a := rfl

end Sys2Proof.Machine

/-! Scalar accesses: one access for the whole mask. -/
namespace Sys2Proof.Machine

section Scalar
variable {s s1 : State} {h : Here} (c : Clear s h []) {ty : Ty} {d a : BitVec 6} {e : W32} (hnt : Hint) {ps : List Piece}
include c

/-- R60: without an active lane a scalar access does nothing. -/
theorem Clear.scalarAccess_idle (hm : h.f.mask = 0) :
    exec (.lds ty hnt d a e) s = .next (h.done s id) ∧ exec (.sts ty hnt d a e) s = .next (h.done s id) :=
  ⟨c.onWave_ok Guard.none { sr := [a.toNat] } _ (by simp) (.inl rfl) (if_pos hm),
    c.onWave_ok Guard.none { sr := [a.toNat, d.toNat] } _ (by simp) (.inl rfl) (if_pos hm)⟩

theorem Clear.lds_loads (hm : h.f.mask ≠ 0)
    (hr : s.checkGlobal h.w.core (s.launchOf h.w) .read (h.s a + e.signExtend 64).toNat (ty.width / 8) = (s1, .ok ps))
    (hs : ∀ p ∈ ps, s1.spoiled h.w.core p = false) :
    let q := State.loadLanes h.w.core (hnt != .stream) (h.glimpses s1 [(0, ps)]) s1 [(0, ps)]
    Ends (.lds ty hnt d a e) s (h.loadDone s1 q.1 [(0, ps)]) h { s := [d.toNat] } fun w =>
      w.readS h.side d.toNat = h.stored d.toNat (fillS ty (laneOf q.2 0)) := by
  intro q
  have hbad : ps.filter (s1.spoiled h.w.core) = [] := List.filter_eq_nil_iff.mpr fun p hp => by simp [hs p hp]
  have hexec : exec (.lds ty hnt d a e) s = .next (h.done (h.loadDone s1 q.1 [(0, ps)]) fun w =>
      w.writeS h.side d.toNat (fillS ty (laneOf q.2 0))) := by
    refine c.onWave_ok Guard.none { sr := [a.toNat] } _ (by simp) (.inl rfl) ((if_neg hm).trans ?_)
    simp only [sext64, hr, Here.scalarPass, bind, Except.bind, hbad]
    rfl
  refine ((Body.refl c _).writeS d.toNat _ (.inl (List.mem_singleton_self _))).ends
    (fun w => w.writeS h.side d.toNat (fillS ty (laneOf q.2 0))) hexec fun f hf => ?_
  rw [Wave.readS_advance _ _ _ hf, Wave.readS_writeS _ _ _ _ _ (here_spec c.here).2.2.1]
  rfl

theorem Clear.sts_posts (hm : h.f.mask ≠ 0)
    (hr : s.checkGlobal h.w.core (s.launchOf h.w) .write (h.s a + e.signExtend 64).toNat (ty.width / 8) = (s1, .ok ps)) :
    Ends (.sts ty hnt d a e) s (h.post s1 (lanePosts ps (leBytes (ty.width / 8) (h.s d).toNat))) h {} fun _ => True := by
  refine (Body.refl c {}).ends id (c.onWave_ok Guard.none { sr := [a.toNat, d.toNat] } _ (by simp) (.inl rfl)
    ((if_neg hm).trans ?_)) fun _ _ => trivial
  simp only [sext64, hr, Here.scalarPass, bind, Except.bind]
  rfl

end Scalar

/-- Settles O24: a scalar access is one access for the whole mask; its load is that of one lane, its events those of one lane. -/
theorem scalarMemoryResults : Obligations.ScalarMemoryResults := by
  intro ty hnt d a e s h c va r v
  refine ⟨fun hm => c.scalarAccess_idle hnt hm, fun s1 ps hm hr hs => ⟨c.lds_loads hnt hm hr hs, fun hc hcore hreach => ?_⟩,
    fun s1 ps hm hv => ⟨c.sts_posts hnt hm hv, fun x => (checkGlobal_ok hv).byteAt x, fun f x => ?_⟩⟩
  · have hq := load_quiet (h := h) (ps := [(0, ps)]) (hnt != .stream) (h.glimpses s1 [(0, ps)]) (checkGlobal_ok hr) hc hcore
      (by simpa using hreach)
    simpa using hq
  · exact congrFun (lanePosts_patched ps _ f) x

end Sys2Proof.Machine

/-! Store events of several lanes: a fully coalesced beat is one event for the words that its lanes write. -/
namespace Sys2Proof.Machine

/-- What lanes leave of memory, one after another. -/
def lanesPatched (data : Nat → List Byte) (ps : List (Nat × List Piece)) (f : Nat → Byte) : Nat → Byte :=
  ps.foldl (fun f x => patched x.2 (data x.1) f) f

/-- R197, R230: the word of a beat's line that its lanes write, the last of them. -/
def beatWord (data : Nat → List Byte) (lanes : List (Nat × List Piece)) (i : Nat) : Option (Piece × List Byte) :=
  lanes.foldl (fun r x => match x.2 with
    | [q] => if q.pa % 128 / 4 = i then some (q, data x.1) else r
    | _ => r) none

/-- R230: a lane of a fully coalesced beat: one aligned word of the beat's line. -/
def OneWord (line : Nat) (x : Nat × List Piece) : Prop := ∃ q, x.2 = [q] ∧ q.len = 4 ∧ q.pa % 4 = 0 ∧ q.pa / 128 = line

section Beat
variable {data : Nat → List Byte} {line : Nat}

theorem beatWord_append {lanes : List (Nat × List Piece)} {x : Nat × List Piece} {q : Piece} (hx : x.2 = [q]) (i : Nat) :
    beatWord data (lanes ++ [x]) i = if q.pa % 128 / 4 = i then some (q, data x.1) else beatWord data lanes i := by
  obtain ⟨l, ps⟩ := x
  cases hx
  simp [beatWord, List.foldl_append]

/-- The word that a beat writes lies at its place in the line. -/
theorem beatWord_place : ∀ (lanes : List (Nat × List Piece)), (∀ x ∈ lanes, (data x.1).length = 4) →
    (∀ x ∈ lanes, OneWord line x) → ∀ {i q bs}, beatWord data lanes i = some (q, bs) →
    q.pa = 128 * line + 4 * i ∧ q.len = 4 ∧ bs.length = 4 := by
  intro lanes
  induction lanes using List.reverseRecOn with
  | nil => intro _ _ i q bs e; cases e
  | append_singleton lanes x ih =>
    intro hd h i q bs e
    obtain ⟨p, hx, hlen, halign, hline⟩ := h x (by simp)
    rw [beatWord_append hx] at e
    split at e
    · cases e
      exact ⟨by omega, hlen, hd x (by simp)⟩
    · exact ih (fun y hy => hd y (by simp [hy])) (fun y hy => h y (by simp [hy])) e

/-- The byte that a beat's lanes leave at an address is that of the last word written there. -/
theorem lanesPatched_beat (f : Nat → Byte) (a : Nat) : ∀ (lanes : List (Nat × List Piece)), (∀ x ∈ lanes, OneWord line x) →
    lanesPatched data lanes f a = match beatWord data lanes (a % 128 / 4) with
      | some (q, bs) => if a / 128 = line then bs.getD (a - q.pa) 0 else f a
      | none => f a := by
  intro lanes
  induction lanes using List.reverseRecOn with
  | nil => exact fun _ => rfl
  | append_singleton lanes x ih =>
    intro h
    obtain ⟨p, hx, hlen, halign, hline⟩ := h x (by simp)
    have ih := ih fun y hy => h y (by simp [hy])
    have hstep : lanesPatched data (lanes ++ [x]) f a =
        if p.pa ≤ a ∧ a < p.pa + p.len then (data x.1).getD (a - p.pa) 0 else lanesPatched data lanes f a := by
      rw [lanesPatched, List.foldl_append, List.foldl_cons, List.foldl_nil, hx, patched, patched]
      rfl
    rw [hstep, beatWord_append hx]
    by_cases hword : p.pa % 128 / 4 = a % 128 / 4
    · rw [if_pos hword]
      dsimp only
      by_cases ha : a / 128 = line
      · rw [if_pos (by omega), if_pos ha]
      · rw [if_neg (by omega), if_neg ha, ih]
        split
        · rw [if_neg ha]
        · rfl
    · rw [if_neg hword, if_neg (by omega), ih]

/-- The same for the words of a beat, in the order of their places. -/
theorem patched_beatWords (lanes : List (Nat × List Piece)) (hd : ∀ x ∈ lanes, (data x.1).length = 4) (h : ∀ x ∈ lanes, OneWord line x)
    (f : Nat → Byte) (a : Nat) : ∀ (is : List Nat) (g : Nat → Byte), is.Nodup → (∀ i ∈ is, i < 32) →
    patched ((is.filterMap (beatWord data lanes)).map (·.1)) ((is.filterMap (beatWord data lanes)).flatMap (·.2)) g a =
      if a / 128 = line ∧ a % 128 / 4 ∈ is then
        match beatWord data lanes (a % 128 / 4) with
        | some (q, bs) => bs.getD (a - q.pa) 0
        | none => g a
      else g a
  | [], g, _, _ => by simp [patched]
  | i :: is, g, hn, h32 => by
    obtain ⟨hi, hn⟩ := List.nodup_cons.mp hn
    have hlt := h32 i List.mem_cons_self
    have h32 : ∀ j ∈ is, j < 32 := fun j hj => h32 j (List.mem_cons_of_mem _ hj)
    cases hw : beatWord data lanes i with
    | none =>
      rw [List.filterMap_cons_none hw, patched_beatWords lanes hd h f a is g hn h32]
      by_cases ha : a % 128 / 4 = i
      · simp [ha, hi, hw]
      · simp [ha]
    | some w =>
      obtain ⟨q, bs⟩ := w
      obtain ⟨hpa, hlen, hbs⟩ := beatWord_place lanes hd h hw
      rw [List.filterMap_cons_some hw, List.map_cons, List.flatMap_cons, patched, hlen, List.drop_left' hbs,
        patched_beatWords lanes hd h f a is _ hn h32]
      by_cases hline : a / 128 = line
      · by_cases ha : a % 128 / 4 = i
        · have hin : q.pa ≤ a ∧ a < q.pa + 4 := by omega
          have hget : (bs ++ (is.filterMap (beatWord data lanes)).flatMap (·.2)).getD (a - q.pa) 0 = bs.getD (a - q.pa) 0 := by
            rw [List.getD_append _ _ _ _ (by omega)]
          simp only [ha, hi, hw, hline, hin, and_false, if_false, and_self, if_true, List.mem_cons, or_false, hget]
        · have hout : ¬ (q.pa ≤ a ∧ a < q.pa + 4) := by omega
          simp only [hout, if_false, hline, true_and, List.mem_cons, ha, false_or]
      · have hout : ¬ (q.pa ≤ a ∧ a < q.pa + 4) := by omega
        simp only [hout, if_false, hline, false_and]

end Beat

/-- Pieces that follow one another from an address on. -/
def consecutive : Nat → List Piece → Prop
  | _, [] => True
  | pa, p :: ps => p.pa = pa ∧ consecutive (pa + p.len) ps

/-- Consecutive pieces take bytes as one piece does. -/
theorem patched_consecutive (a : Nat) : ∀ (ps : List Piece) (pa : Nat) (bs : List Byte) (f : Nat → Byte), consecutive pa ps →
    patched ps bs f a = if pa ≤ a ∧ a < pa + (ps.map (·.len)).sum then bs.getD (a - pa) 0 else f a
  | [], _, _, _, _ => by simp [patched]
  | p :: ps, _, bs, f, h => by
    obtain ⟨rfl, hps⟩ := h
    rw [patched, patched_consecutive a ps _ _ _ hps, List.map_cons, List.sum_cons]
    by_cases h1 : p.pa ≤ a ∧ a < p.pa + p.len
    · rw [if_neg (by omega), if_pos h1, if_pos (by omega)]
    · by_cases h2 : p.pa + p.len ≤ a ∧ a < p.pa + p.len + (ps.map (·.len)).sum
      · rw [if_pos h2, if_pos (by omega), List.getD_eq_getElem?_getD, List.getD_eq_getElem?_getD, List.getElem?_drop,
          show p.len + (a - (p.pa + p.len)) = a - p.pa by omega]
      · rw [if_neg h2, if_neg h1, if_neg (by omega)]

section Beat
variable {data : Nat → List Byte} {line : Nat}

/-- Where every word of a beat's line is written, its words are consecutive. -/
theorem beatWords_consecutive (lanes : List (Nat × List Piece)) (hd : ∀ x ∈ lanes, (data x.1).length = 4) (h : ∀ x ∈ lanes, OneWord line x) :
    ∀ n i, ((List.range' i n).filterMap (beatWord data lanes)).length = n →
      consecutive (128 * line + 4 * i) (((List.range' i n).filterMap (beatWord data lanes)).map (·.1)) ∧
        ((((List.range' i n).filterMap (beatWord data lanes)).map (·.1)).map (·.len)).sum = 4 * n
  | 0, _, _ => ⟨trivial, rfl⟩
  | n + 1, i, hl => by
    rw [List.range'_succ] at hl ⊢
    cases hw : beatWord data lanes i with
    | none =>
      rw [List.filterMap_cons_none hw] at hl
      have hle := List.length_filterMap_le (beatWord data lanes) (List.range' (i + 1) n)
      rw [List.length_range'] at hle
      omega
    | some w =>
      obtain ⟨q, bs⟩ := w
      obtain ⟨hpa, hlen, -⟩ := beatWord_place lanes hd h hw
      rw [List.filterMap_cons_some hw] at hl ⊢
      obtain ⟨hcon, hsum⟩ := beatWords_consecutive lanes hd h n (i + 1) (by simpa using hl)
      simp only [List.map_cons, List.sum_cons, hsum, hlen]
      exact ⟨⟨hpa, by rw [hlen, show 128 * line + 4 * i + 4 = 128 * line + 4 * (i + 1) by omega]; exact hcon⟩, by omega⟩

/-- R230: the event of a beat whose line's words stand in a list. -/
def beatEvent (line : Nat) (ws : List (Piece × List Byte)) : Post :=
  match ws with
  | (q, _) :: _ =>
    if ws.length = 32 then { parts := [⟨q.va, 128 * line, 128⟩], data := ws.flatMap (·.2), beat := true }
    else { parts := ws.map (·.1), data := ws.flatMap (·.2), beat := true }
  | [] => {}

theorem beatPost_eq (ps : List (Nat × List Piece)) (b : Nat) :
    beatPost line ps b data = beatEvent line ((List.range 32).filterMap (beatWord data (ps.filter fun x => x.1 / 32 == b))) := rfl

/-- R230: the one event of a fully coalesced beat leaves what its lanes do. -/
theorem beatPost_patched {ps : List (Nat × List Piece)} (b : Nat)
    (hd : ∀ x ∈ ps.filter (fun x => x.1 / 32 == b), (data x.1).length = 4)
    (h : ∀ x ∈ ps.filter (fun x => x.1 / 32 == b), OneWord line x) (f : Nat → Byte) :
    postsPatched [beatPost line ps b data] f = lanesPatched data (ps.filter fun x => x.1 / 32 == b) f := by
  rw [beatPost_eq]
  generalize ps.filter (fun x => x.1 / 32 == b) = lanes at hd h ⊢
  have hwords : patched (((List.range 32).filterMap (beatWord data lanes)).map (·.1))
      (((List.range 32).filterMap (beatWord data lanes)).flatMap (·.2)) f = lanesPatched data lanes f := by
    funext a
    rw [patched_beatWords lanes hd h f a _ f List.nodup_range (fun _ => List.mem_range.mp), lanesPatched_beat f a lanes h]
    have hmem : a % 128 / 4 ∈ List.range 32 := List.mem_range.mpr (by omega)
    by_cases ha : a / 128 = line
    · simp only [ha, hmem, and_self, if_true]
    · simp only [ha, false_and, if_false]
      split <;> rfl
  rw [← hwords]
  cases hws : (List.range 32).filterMap (beatWord data lanes) with
  | nil => rfl
  | cons w ws =>
    obtain ⟨q, bs⟩ := w
    unfold beatEvent
    dsimp only
    split
    · rename_i hlen
      rw [← hws, List.range_eq_range'] at hlen ⊢
      obtain ⟨hcon, hsum⟩ := beatWords_consecutive lanes hd h 32 0 hlen
      funext a
      rw [patched_consecutive a _ _ _ _ hcon, hsum]
      rfl
    · rfl

end Beat

/-- A list in the order of a number, cut at it. -/
theorem filter_lt_succ {α : Type} (g : α → Nat) (n : Nat) : ∀ l : List α, l.Pairwise (fun x y => g x ≤ g y) →
    l.filter (fun x => g x < n + 1) = l.filter (fun x => g x < n) ++ l.filter fun x => g x == n
  | [], _ => rfl
  | x :: l, h => by
    obtain ⟨hx, hl⟩ := List.pairwise_cons.mp h
    have ih := filter_lt_succ g n l hl
    rcases Nat.lt_trichotomy (g x) n with hlt | heq | hgt
    · rw [List.filter_cons_of_pos (by simpa using hlt.trans (Nat.lt_succ_self n)), List.filter_cons_of_pos (by simpa using hlt),
        List.filter_cons_of_neg (by simpa using hlt.ne), ih, List.cons_append]
    · have hnone : l.filter (fun y => g y < n) = [] := List.filter_eq_nil_iff.mpr fun y hy => by
        have := hx y hy
        simp only [decide_eq_true_eq]; omega
      rw [List.filter_cons_of_pos (by simp [heq]), List.filter_cons_of_neg (by simp [heq]),
        List.filter_cons_of_pos (by simp [heq]), ih, hnone, List.nil_append, List.nil_append]
    · rw [List.filter_cons_of_neg (by simp; omega), List.filter_cons_of_neg (by simp; omega),
        List.filter_cons_of_neg (by simp; omega), ih]

theorem lanesOf_pairwise (m : Lanes) : (lanesOf m).Pairwise (· < ·) := List.pairwise_lt_range.filter _

section Lanes
variable {data : Nat → List Byte} {ps : List (Nat × List Piece)}

theorem postsPatched_lanes (ls : List (Nat × List Piece)) : ∀ f,
    postsPatched (ls.flatMap fun x => lanePosts x.2 (data x.1)) f = lanesPatched data ls f := by
  induction ls with
  | nil => exact fun _ => rfl
  | cons x ls ih =>
    intro f
    rw [List.flatMap_cons, postsPatched_append, lanePosts_patched, ih]
    rfl

/-- The pieces of a lane in a list that holds each lane once. -/
theorem find_lane (hn : (ps.map (·.1)).Nodup) {x : Nat × List Piece} (hx : x ∈ ps) : ps.find? (fun y => y.1 == x.1) = some x := by
  induction ps with
  | nil => cases hx
  | cons y ps ih =>
    obtain ⟨hy, hn⟩ := List.nodup_cons.mp hn
    rcases List.mem_cons.mp hx with rfl | hx
    · simp
    · have hne : y.1 ≠ x.1 := fun e => hy (List.mem_map.mpr ⟨x, hx, e.symm⟩)
      rw [List.find?_cons_of_neg (by simpa using hne), ih hn hx]

/-- R230: the lanes of a fully coalesced beat. -/
theorem fullBeat_oneWord (hn : (ps.map (·.1)).Nodup) {b line : Nat} (e : fullBeat ps b = some line) :
    ∀ x ∈ ps.filter (fun x => x.1 / 32 == b), OneWord line x := by
  intro x hx
  obtain ⟨hx, hb⟩ := List.mem_filter.mp hx
  simp only [beq_iff_eq] at hb
  unfold fullBeat at e
  dsimp only at e
  split at e
  · split at e
    · rename_i p _ hall
      have hline := Option.some.inj e
      have hmem : (ps.find? (fun y => y.1 == 32 * b + x.1 % 32)).map (·.2) ∈
          (List.range 32).map fun i => (ps.find? fun y => y.1 == 32 * b + i).map (·.2) :=
        List.mem_map.mpr ⟨x.1 % 32, List.mem_range.mpr (Nat.mod_lt _ (by omega)), rfl⟩
      have hone := List.all_eq_true.mp hall _ hmem
      rw [show 32 * b + x.1 % 32 = x.1 by omega, find_lane hn hx, Option.map_some] at hone
      split at hone
      · rename_i q hq
        simp only [Option.some.injEq] at hq
        simp only [Bool.and_eq_true, beq_iff_eq] at hone
        exact ⟨q, hq, hone.1.1, hone.1.2, hone.2.trans hline⟩
      · exact absurd hone (by simp)
    · cases e
  · cases e

/-- R230: the events of one beat of a store. -/
def beatPosts (ps : List (Nat × List Piece)) (data : Nat → List Byte) (b : Nat) : List Post :=
  match fullBeat ps b with
  | some line => [beatPost line ps b data]
  | none => (ps.filter fun x => x.1 / 32 == b).flatMap fun x => lanePosts x.2 (data x.1)

/-- R197, R229, R230: the events of a store leave what its lanes do, one after another. -/
theorem storePosts_patched {m : Lanes} {n : Nat} (hps : ps.map (·.1) = lanesOf m) (hsum : ∀ x ∈ ps, (x.2.map (·.len)).sum = n)
    (hdata : ∀ l, (data l).length = n) (f : Nat → Byte) : postsPatched (storePosts ps data) f = lanesPatched data ps f := by
  have hpair : ps.Pairwise fun x y => x.1 < y.1 := by
    have h := lanesOf_pairwise m
    rw [← hps] at h
    exact List.pairwise_map.mp h
  have hbeats : ps.Pairwise fun x y => x.1 / 32 ≤ y.1 / 32 := hpair.imp fun h => by omega
  have hnodup : (ps.map (·.1)).Nodup := by
    rw [hps]
    exact (lanesOf_pairwise m).imp fun h => by omega
  have hbeat (b : Nat) (f : Nat → Byte) : postsPatched (beatPosts ps data b) f =
      lanesPatched data (ps.filter fun x => x.1 / 32 == b) f := by
    unfold beatPosts
    split
    · rename_i line e
      have hone := fullBeat_oneWord hnodup e
      refine beatPost_patched b (fun x hx => ?_) hone f
      obtain ⟨q, hq, hlen, -⟩ := hone x hx
      have hfour := hsum x (List.mem_filter.mp hx).1
      rw [hq] at hfour
      rw [hdata, ← hfour]
      simpa using hlen
    · exact postsPatched_lanes _ f
  have hall : ps.filter (fun x => x.1 / 32 < 3) = ps := List.filter_eq_self.mpr fun x hx => by
    have hmem : x.1 ∈ lanesOf m := hps ▸ List.mem_map_of_mem hx
    have hlt := List.mem_range.mp (List.mem_filter.mp hmem).1
    exact decide_eq_true (by omega)
  have hsplit := filter_lt_succ (fun x : Nat × List Piece => x.1 / 32)
  have hnone : ps.filter (fun x => x.1 / 32 < 0) = [] := List.filter_eq_nil_iff.mpr fun x _ => by simp
  have hcut : ps = ps.filter (fun x => x.1 / 32 == 0) ++ ps.filter (fun x => x.1 / 32 == 1) ++
      ps.filter fun x => x.1 / 32 == 2 := by
    rw [← List.nil_append (ps.filter fun x => x.1 / 32 == 0), ← hnone, ← hsplit 0 ps hbeats, ← hsplit 1 ps hbeats,
      ← hsplit 2 ps hbeats, hall]
  have hstore : storePosts ps data = beatPosts ps data 0 ++ (beatPosts ps data 1 ++ (beatPosts ps data 2 ++ [])) := rfl
  rw [hstore, List.append_nil, postsPatched_append, postsPatched_append, hbeat, hbeat, hbeat, lanesPatched, lanesPatched,
    lanesPatched, ← List.foldl_append, ← List.foldl_append, ← List.append_assoc, ← hcut]
  rfl

end Lanes

end Sys2Proof.Machine

/-! A vector store of the global space: the wave that goes on, and an event that is performed. -/
namespace Sys2Proof.Machine

/-- R43, R49: flags raised by lanes of which none is enabled, and the state Z, are all that the instruction changes of its wave. -/
theorem Body.endsRaised {i : Instr} {s s1 : State} {h : Here} {rs : List Nat} (c : Clear s h rs) (fl : Flags) (z : W32)
    (e : exec i s = .next (h.done s1 fun w => w.raised h.side fl z)) :
    Ends i s s1 h { flags := true, z := true } fun w => w.flags = h.w.flags ||| fl ∧ (w.frag h.side).map (·.z) = some z := by
  refine ((Body.refl c _).raised fl z rfl (.inl rfl)).ends (fun w => w.raised h.side fl z) e fun f hf => ⟨?_, ?_⟩
  · rw [Wave.setFrag_flags, raised_flags c.here]
  · rw [raised_frag c.here] at hf
    cases hf
    rw [Wave.frag_setFrag_same]
    rfl

section Store
variable {s s1 : State} {h : Here} {o : MemOp} (c : Clear s h (amRegs o.am o.b ++ dataRegs o.ty o.rf o.v.toNat))
  {ps : List (Nat × List Piece)}
  (hp : Passes h s (h.globalChecks s .write (h.target o) (laneBytes o.ty o.rf)) (lanesOf (h.part o.g)) (h.target o) s1 ps)
include c hp

/-- R200: a store whose narrowing raises no enabled exception issues its events. -/
theorem Clear.stg_posts (hen : orFlags ((lanesOf (h.part o.g)).map fun l => (h.storeData o (h.storeZ o) l).2) &&&
      modeTraps h.w.mode = 0) :
    exec (.stg o) s = .next (h.done (h.post s1 (storePosts ps fun l => leBytes (laneBytes o.ty o.rf) (h.storeData o (h.storeZ o) l).1))
      fun w => w.raised h.side (orFlags ((lanesOf (h.part o.g)).map fun l => (h.storeData o (h.storeZ o) l).2)) (h.storeZ o)) := by
  obtain ⟨rfl, hpass⟩ := hp
  refine c.onWave_ok o.g { vr := amRegs o.am o.b ++ dataRegs o.ty o.rf o.v.toNat, sr := [o.a.toNat], pr := o.g.pregs } _ (by simp)
    (.inl rfl) ((congrArg (· >>= _) hpass).trans (if_pos hen))

/-- R49, R200: a store whose narrowing raises an enabled exception adjourns, and stores nothing. -/
theorem Clear.stg_arith (hw : h.w.mustWait s h.key = false)
    (hen : orFlags ((lanesOf (h.part o.g)).map fun l => (h.storeData o (h.storeZ o) l).2) &&& modeTraps h.w.mode ≠ 0) :
    ∃ r : Report, r.causes = 1#64 <<< 10 ∧ exec (.stg o) s = .next (s1.adjourn h.key h.side r) := by
  obtain ⟨rfl, hpass⟩ := hp
  exact ⟨_, rfl, c.onWave_trap o.g
    { vr := amRegs o.am o.b ++ dataRegs o.ty o.rf o.v.toNat, sr := [o.a.toNat], pr := o.g.pregs } _ (by simp)
    (.inl rfl) hw ((congrArg (· >>= _) hpass).trans (if_neg hen))⟩

end Store

/-- Lines that leave L1s change nothing but the L1s. -/
theorem evictL1_fold (cores : List Nat) : ∀ (ls : List Nat) (m : MemSys),
    ∃ x, ls.foldl (fun m l => m.evictL1 l cores) m = { m with l1 := x }
  | [], m => ⟨m.l1, rfl⟩
  | l :: ls, m => by
    obtain ⟨x, hx⟩ := evictL1_fold cores ls (m.evictL1 l cores)
    exact ⟨x, hx⟩

theorem coherent_l1 {s : State} (h : Coherent s) (x : Table MemLine) : Coherent (s.setMem { s.mem with l1 := x }) :=
  coherent_of_same (s := s) (fun _ _ => rfl) (fun _ => rfl) (fun _ _ => ⟨rfl, fun _ => rfl, fun _ _ => rfl, Iff.rfl⟩) h

theorem Wrote.l1 {s t : State} {f : Nat → Byte} (h : Wrote s t f) (x : Table MemLine) :
    Wrote s (t.setMem { t.mem with l1 := x }) f :=
  ⟨by rw [State.setMem, h.1], fun a ha => h.2 a ha⟩

/-- R230: a store event that is performed puts its bytes at its pieces. -/
theorem performed_wrote {s : State} {p : Post} (hc : Coherent s) (hcore : p.core < 4096) (hr : Reach s (p.core / 512) p.parts) :
    Coherent (s.performed p) ∧ Wrote s (s.performed p) (patched p.parts p.data s.mem.byteAt) := by
  obtain ⟨h1, h2⟩ := storePieces_wrote p.who (show p.core / 512 < 8 by omega) p.parts p.data s hr hc
  obtain ⟨x, hx⟩ := evictL1_fold (s.watchers p) (p.parts.map fun q => q.pa / 128).dedup (s.storePieces p.core p.who p.parts p.data).mem
  rw [State.performed, hx]
  exact ⟨coherent_l1 h1 x, h2.l1 x⟩

/-- Settles O25: the lanes' events issue where none traps; they amount to the lanes in order; one that is performed stores its bytes. -/
theorem storeResults : Obligations.StoreResults := by
  refine ⟨?_, fun m ps data n hps hsum hdata f a => congrFun (storePosts_patched hps hsum hdata f) a, fun s p hc hcore hr => ?_⟩
  · intro o s h s1 ps c n hp z data all t
    exact ⟨fun hen => Body.endsRaised c all z (c.stg_posts hp hen), fun hen hw => c.stg_arith hp hw hen,
      fun a => (post_byteAt h s1 _ a).trans (hp.global.byteAt a)⟩
  · obtain ⟨h1, h2⟩ := performed_wrote hc hcore hr
    exact ⟨h1, h2, fun a ha hout => (h2.2 a ha).trans (patched_outside _ _ _ a hout)⟩

end Sys2Proof.Machine

/-! Loads and stores of the cluster space: checks that pass, and what the lanes leave of the A-store. -/
namespace Sys2Proof.Machine

theorem bind_of_ok {ε α β : Type} {x : Except ε α} {a : α} (e : x = .ok a) (k : α → Except ε β) : (x >>= k) = k a := by
  rw [e]
  rfl

/-- Checks that do not change the state, of all lanes. -/
theorem checkLanes_pure (f : State → Nat → LaneCheck) (s : State) :
    ∀ ls : List Nat, checkLanes (fun s l => (s, f s l)) s ls = (s, ls.map fun l => (l, f s l))
  | [] => rfl
  | l :: ls => by rw [checkLanes, checkLanes_pure f s ls]; rfl

section Lanes
variable {s : State} {h : Here} {ls : List Nat} {addr : Nat → W64} {n : Nat}

/-- R192, R207: lanes inside the crew's run, free of locks and of windows to fill, pass. -/
theorem localLanes_ok {write full : Bool}
    (hheld : ∀ l ∈ ls, (s.crew h.w.crew).holds (addr l).toNat n = true)
    (hfree : ∀ l ∈ ls, s.locked (s.crew h.w.crew).clus 0 true write (addr l).toNat n = false)
    (hfill : ∀ l ∈ ls, (s.crew h.w.crew).fillsFor (s.launch (s.crew h.w.crew).launch) (write && full) (addr l).toNat n = []) :
    h.localLanes s ls addr n write full = .ok s := by
  have hpass : ∀ r ∈ (checkLanes (fun t l => (t, t.checkLocal (s.crew h.w.crew) write (addr l).toNat n)) s ls).2,
      ∃ q, r.2 = .ok q := by
    rw [checkLanes_pure fun t l => t.checkLocal (s.crew h.w.crew) write (addr l).toNat n]
    intro r hr
    obtain ⟨l, hl, rfl⟩ := List.mem_map.mp hr
    exact ⟨_, by simp only [State.checkLocal, hheld l hl, hfree l hl]; rfl⟩
  refine (bind_of_ok (allPass_of_ok h s addr hpass) _).trans ?_
  rw [List.flatMap_eq_nil_iff.mpr hfill]
  rfl

/-- R258: lanes all of whose words can be read. -/
theorem localEcc_ok (hread : ∀ l ∈ ls, ∀ w ∈ wordsOf (addr l).toNat n, s.badWord (s.crew h.w.crew).clus w = false) :
    h.localEcc s ls addr n = .ok () :=
  if_pos (List.filter_eq_nil_iff.mpr fun l hl => by
    simp only [List.any_eq_true, not_exists, not_and]
    exact fun w hw => by simp [hread l hl w hw])

end Lanes

theorem storeLocal_clus (s : State) (ck a n : Nat) (f : Nat → Byte) : ((s.storeLocal ck a n f).crew ck).clus = (s.crew ck).clus := by
  unfold State.storeLocal State.crew
  rw [State.setCrew, Table.get?_modify_same]
  have hcrews (x : Cells 8) (b : List (Nat × Nat)) :
      (({ s with stores := { s.stores with astore := x, bad := b } } : State).crews.get? ck) = s.crews.get? ck := rfl
  cases e : s.crews.get? ck <;> simp [State.putA, e]

/-- A store to the cluster space writes the A-store and its crew's windows. -/
theorem storeLocal_only (s : State) (ck a n : Nat) (f : Nat → Byte) :
    s.storeLocal ck a n f = { s with
      stores := { s.stores with astore := (s.storeLocal ck a n f).stores.astore, bad := (s.storeLocal ck a n f).stores.bad }
      crews := (s.storeLocal ck a n f).crews } := rfl

theorem storeLocal_astore (s : State) (ck a n k : Nat) (f : Nat → Byte) :
    (s.storeLocal ck a n f).stores.astore.read k =
      if 2 ^ 22 * (s.crew ck).clus + a ≤ k ∧ k < 2 ^ 22 * (s.crew ck).clus + a + n then f (k - 2 ^ 22 * (s.crew ck).clus)
      else s.stores.astore.read k :=
  Cells.read_update ..

section Fold
variable (ck n : Nat) (a : Nat → Nat) (data : Nat → List Byte)

/-- The stores of several lanes, in their order. -/
def State.storeLanesLocal (s : State) (ls : List Nat) : State :=
  ls.foldl (fun s l => s.storeLocal ck (a l) n (bytesFn (a l) (data l))) s

theorem storeLanesLocal_only : ∀ (ls : List Nat) (s : State),
    s.storeLanesLocal ck n a data ls = { s with
      stores := { s.stores with
        astore := (s.storeLanesLocal ck n a data ls).stores.astore, bad := (s.storeLanesLocal ck n a data ls).stores.bad }
      crews := (s.storeLanesLocal ck n a data ls).crews }
  | [], _ => rfl
  | l :: ls, s => by
    have ih := storeLanesLocal_only ls (s.storeLocal ck (a l) n (bytesFn (a l) (data l)))
    rw [storeLocal_only] at ih
    exact ih

theorem storeLanesLocal_mem (ls : List Nat) (s : State) : (s.storeLanesLocal ck n a data ls).mem = s.mem := by
  rw [storeLanesLocal_only]

/-- R197: each byte of the A-store is that of the last lane that stores there. -/
theorem storeLanesLocal_astore (k : Nat) : ∀ (ls : List Nat) (s : State) (f : Nat → Byte), f k = s.stores.astore.read k →
    (s.storeLanesLocal ck n a data ls).stores.astore.read k =
      ls.foldl (fun (f : Nat → Byte) l k =>
        let b := 2 ^ 22 * (s.crew ck).clus + a l
        if b ≤ k ∧ k < b + n then (data l).getD (k - b) 0 else f k) f k
  | [], _, _, e => e.symm
  | l :: ls, s, f, e => by
    have ih := storeLanesLocal_astore k ls (s.storeLocal ck (a l) n (bytesFn (a l) (data l)))
    rw [storeLocal_clus] at ih
    refine ih _ ?_
    simp only [storeLocal_astore, e, bytesFn, Nat.sub_sub]

end Fold

section Local
variable {s : State} {h : Here} {o : MemOp} (c : Clear s h (amRegs o.am o.b ++ dataRegs o.ty o.rf o.v.toNat))
include c

/-- R198, R199: a load of the cluster space that nothing keeps back. -/
theorem Clear.ldl_loads
    (hok : ∀ l ∈ lanesOf (h.part o.g), LocalOk s (s.crew h.w.crew) false false (h.target o l).toNat (laneBytes o.ty o.rf)) :
    exec (.ldl o) s = .next (h.done s fun w => w.writeData o.ty o.rf o.v (h.part o.g) fun l =>
      loadValue o.ty o.rf (leNat (s.getA (s.crew h.w.crew).clus (h.target o l).toNat (laneBytes o.ty o.rf)))) := by
  have hlanes := localLanes_ok (h := h) (write := false) (full := false) (fun l hl => (hok l hl).held)
    (fun l hl => (hok l hl).free) fun l hl => (hok l hl).filled
  have hecc := localEcc_ok (h := h) fun l hl => (hok l hl).readable
  refine c.onWave_ok o.g { vr := amRegs o.am o.b, vw := dataRegs o.ty o.rf o.v.toNat, sr := [o.a.toNat], pr := o.g.pregs } _
    (by simp) (.inl rfl) ((bind_of_ok hlanes _).trans (bind_of_ok hecc _))

/-- R198, R200: a store of the cluster space that nothing keeps back and that raises no enabled exception. -/
theorem Clear.stl_stores
    (hok : ∀ l ∈ lanesOf (h.part o.g), (s.crew h.w.crew).holds (h.target o l).toNat (laneBytes o.ty o.rf) = true ∧
      s.locked (s.crew h.w.crew).clus 0 true true (h.target o l).toNat (laneBytes o.ty o.rf) = false ∧
      (s.crew h.w.crew).fillsFor (s.launch (s.crew h.w.crew).launch) true (h.target o l).toNat (laneBytes o.ty o.rf) = [])
    (hen : orFlags ((lanesOf (h.part o.g)).map fun l => (h.storeData o (h.storeZ o) l).2) &&& modeTraps h.w.mode = 0) :
    exec (.stl o) s = .next (h.done (s.storeLanesLocal h.w.crew (laneBytes o.ty o.rf) (fun l => (h.target o l).toNat)
        (fun l => leBytes (laneBytes o.ty o.rf) (h.storeData o (h.storeZ o) l).1) (lanesOf (h.part o.g))) fun w =>
      w.raised h.side (orFlags ((lanesOf (h.part o.g)).map fun l => (h.storeData o (h.storeZ o) l).2)) (h.storeZ o)).wake := by
  have hlanes := localLanes_ok (h := h) (write := true) (full := true) (fun l hl => (hok l hl).1)
    (fun l hl => (hok l hl).2.1) fun l hl => (hok l hl).2.2
  refine c.onWave_ok o.g { vr := amRegs o.am o.b ++ dataRegs o.ty o.rf o.v.toNat, sr := [o.a.toNat], pr := o.g.pregs } _
    (by simp) (.inl rfl) ((bind_of_ok hlanes _).trans (bind_of_ok (if_pos hen) _))

end Local

/-- What an instruction leaves that goes on and then lets barrier waits whose condition holds end. -/
theorem done_endsRaised {s s1 : State} {h : Here} {rs : List Nat} (c : Clear s h rs) (fl : Flags) (z : W32) :
    ∃ w, h.done s1 (fun w => w.raised h.side fl z) = s1.putWave h.key w ∧ Kept h { flags := true, z := true } w ∧
      w.flags = h.w.flags ||| fl ∧ (w.frag h.side).map (·.z) = some z := by
  obtain ⟨f, ef, hk⟩ := ((Body.refl c { flags := true, z := true }).raised fl z rfl (.inl rfl)).kept
    fun w => w.raised h.side fl z
  refine ⟨_, by rw [Here.done, ef, Option.getD_some], hk, ?_, ?_⟩
  · rw [Wave.setFrag_flags, raised_flags c.here]
  · rw [raised_frag c.here] at ef
    cases ef
    rw [Wave.frag_setFrag_same]
    rfl

/-- Settles O26: the lanes pass; a load reads their bytes, a store writes them lane after lane and lets waits end. -/
theorem localResults : Obligations.LocalResults := by
  intro o s h c n cr
  constructor
  · intro hok
    exact ((Body.refl c _).writeData o.ty o.rf o.v (h.part o.g) _ (fun _ a => a) (fun _ _ a => a)).completes
      (fun w => w.writeData o.ty o.rf o.v (h.part o.g) fun l => loadValue o.ty o.rf (leNat (s.getA cr.clus (h.target o l).toNat n)))
      (c.ldl_loads hok) fun f _ l hl hm => (Wave.dataIs_setFrag ..).mpr (Wave.dataIs_writeData _ _ _ _ _ _ hl hm)
  · intro hok z data all t
    refine ⟨fun hen => ?_, storeLanesLocal_only h.w.crew n (fun l => (h.target o l).toNat) data _ s,
      fun k => storeLanesLocal_astore h.w.crew n (fun l => (h.target o l).toNat) data k _ s _ rfl⟩
    obtain ⟨w, hw, hkept, hflags, hz⟩ := done_endsRaised (s1 := t) c all z
    refine ⟨w, (c.stl_stores hok hen).trans (congrArg (fun u : State => Host.Outcome.next u.wake) hw), hkept, hflags, hz,
      fun hposts a => ?_⟩
    have hmem : t.mem = s.mem := storeLanesLocal_mem h.w.crew n (fun l => (h.target o l).toNat) data (lanesOf (h.part o.g)) s
    have hnone : NoCrewPosts (t.putWave h.key w) := MemKept.noCrewPosts (s := s) (.of_mem hmem) hposts
    exact ((wake_memKept hnone).byteAt a).trans (congrArg (·.byteAt a) hmem)

end Sys2Proof.Machine

/-! Prefetches ask for lines, and an invalidation drops lines of its own core. -/
namespace Sys2Proof.Machine

section Prefetch
variable {h : Here} {keep : Bool}

/-- R203: a prefetch whose check passes changes no byte. -/
theorem prefetch_quiet {s s1 : State} {a : W64} {p : Piece} {ps : List Piece} (hc : Coherent s) (hcore : h.w.core < 4096)
    (hr : s.checkGlobal h.w.core (s.launchOf h.w) .read a.toNat 1 = (s1, .ok (p :: ps))) (hp : Reach s (h.w.core / 512) [p]) :
    Coherent (h.prefetch keep s a) ∧ Quiet s (h.prefetch keep s a) := by
  have h1 := checkGlobal_ok hr
  have hc1 := h1.coherent hc
  obtain ⟨hbound, hlen, hprobe⟩ := hp p (List.mem_singleton_self p)
  have hline : p.pa / 128 ∈ linesOf p.pa p.len := mem_linesOf.mpr ⟨hlen, le_rfl, Nat.div_le_div_right (by omega)⟩
  unfold Here.prefetch
  simp only [hr]
  split
  · obtain ⟨hc2, hq2⟩ := coreLine_quiet (s := s1) (core := h.w.core) (l := p.pa / 128) true (by omega) (by omega)
      ((h1.probeOk ..).trans (hprobe _ hline)) hc1
    exact ⟨coherent_of_same (s := (s1.coreLine h.w.core (p.pa / 128) true).1) (fun _ _ => rfl) (fun _ => rfl)
      (fun _ _ => ⟨rfl, fun _ => rfl, fun _ _ => rfl, Iff.rfl⟩) hc2, (h1.quiet.trans hq2).trans (tagL1_quiet ..)⟩
  · exact ⟨hc1, h1.quiet⟩

/-- R203: the prefetches of several lanes, each of which passes its check when its turn comes. -/
theorem prefetches_quiet (addr : Nat → W64) (hcore : h.w.core < 4096) : ∀ (ls : List Nat) (s : State), Coherent s →
    (∀ i l, ls[i]? = some l →
      let si := (ls.take i).foldl (fun s l => h.prefetch keep s (addr l)) s
      ∃ s1 p ps, si.checkGlobal h.w.core (si.launchOf h.w) .read (addr l).toNat 1 = (s1, .ok (p :: ps)) ∧
        Reach s (h.w.core / 512) [p]) →
    Quiet s (ls.foldl (fun s l => h.prefetch keep s (addr l)) s)
  | [], s, _, _ => Quiet.refl s
  | l :: ls, s, hc, hall => by
    obtain ⟨s1, p, ps, hr, hp⟩ := hall 0 l rfl
    obtain ⟨hc1, hq1⟩ := prefetch_quiet (keep := keep) hc hcore hr hp
    refine hq1.trans (prefetches_quiet addr hcore ls _ hc1 fun i l' hl' => ?_)
    obtain ⟨s2, p2, ps2, hr2, hp2⟩ := hall (i + 1) l' hl'
    exact ⟨s2, p2, ps2, hr2, hp2.mono hq1⟩

end Prefetch

/-- An entry whose key's condition holds stays in a filtered table. -/
theorem Table.get?_filter_of_key {α : Type} (p : Nat → Bool) {k : Nat} (hk : p k = true) :
    ∀ t : Table α, Table.get? (t.filter fun x => p x.1) k = t.get? k
  | [] => rfl
  | (j, v) :: t => by
    by_cases hj : p j = true
    · rw [List.filter_cons_of_pos (p := fun x : Nat × α => p x.1) (a := (j, v)) hj, Table.get?, Table.get?, get?_filter_of_key p hk t]
    · have hne : j ≠ k := fun e => hj (e ▸ hk)
      rw [List.filter_cons_of_neg (p := fun x : Nat × α => p x.1) (a := (j, v)) hj, Table.get?, if_neg hne, get?_filter_of_key p hk t]

/-- The core of an L1 key. -/
theorem l1Key_core {c l : Nat} (hl : l < 2 ^ 45) : l1Key c l / 2 ^ 45 = c := by unfold l1Key; omega

/-- R204: the tags that an invalidation hits. -/
def cinvHits (s : State) (core ctx lo n : Nat) : List (Nat × Nat × Nat) :=
  s.mem.l1va.filter fun x => x.1 / 2 ^ 45 == core && x.2.1 == ctx && meets (128 * x.2.2) 128 lo n

/-- R204: what an invalidation leaves: the L1 and its tags, without the lines of its range, or without all its core's lines. -/
theorem cinv_keeps (s : State) {core : Nat} (ctx lo n c l : Nat) (hc : c ≠ core) (hl : l < 2 ^ 45) :
    (s.cinvRange core ctx lo n).mem.l1.get? (l1Key c l) = s.mem.l1.get? (l1Key c l) ∧
      (s.mem.dropL1 core).l1.get? (l1Key c l) = s.mem.l1.get? (l1Key c l) := by
  have hother : l1Key c l / 2 ^ 45 ≠ core := by rwa [l1Key_core hl]
  refine ⟨Table.get?_filter_of_key (fun k => !(cinvHits s core ctx lo n).any fun y => y.1 == k) ?_ _,
    Table.get?_filter_of_key (fun k => k / 2 ^ 45 != core) (bne_iff_ne.mpr hother) _⟩
  rw [Bool.not_eq_true', List.any_eq_false]
  intro y hy hk
  have hcore := (List.mem_filter.mp hy).2
  simp only [Bool.and_eq_true, beq_iff_eq] at hcore hk
  exact hother (hk ▸ hcore.1.1)

/-- Settles O27: a prefetch reads lines that pass, an invalidation filters the L1 of its core. -/
theorem prefetchAndInvalidate : Obligations.PrefetchAndInvalidate := by
  constructor
  · intro g am hnt a b e s h c t
    exact ⟨c.onWave_ok g { vr := amRegs am b, sr := [a.toNat], pr := g.pregs } _ (by simp) (.inl rfl) rfl,
      fun hc hcore hall => prefetches_quiet _ hcore _ s hc hall⟩
  · intro a b e s h c lo n t
    have ht : ∃ l1 va, t = s.setMem { s.mem with l1 := l1, l1va := va } ∧
        ∀ c l, c ≠ h.w.core → l < 2 ^ 45 → l1.get? (l1Key c l) = s.mem.l1.get? (l1Key c l) := by
      unfold t
      split
      · exact ⟨_, _, rfl, fun c l hc hl => (cinv_keeps s 0 0 0 c l hc hl).2⟩
      · exact ⟨_, _, rfl, fun c l hc hl => (cinv_keeps s (s.ctxOf h.w) lo n c l hc hl).1⟩
    refine ⟨?_, ht, fun x => ?_⟩
    · refine c.onWave_ok Guard.none { sr := [a.toNat, b.toNat] } _ (by simp) (.inl rfl) ?_
      have hn : bits (h.s b) 0 32 = n := by simp [n, bits, BitVec.extractLsb'_toNat]
      dsimp only
      rw [hn]
      unfold t
      split <;> rfl
    · obtain ⟨l1, va, e, -⟩ := ht
      rw [e]
      rfl

end Sys2Proof.Machine

/-! Global atomics: one lane's operation at the home of its line, and an instruction's lanes. -/
namespace Sys2Proof.Machine

theorem length_leBytes (n x : Nat) : (leBytes n x).length = n := by simp [leBytes]

/-- R211: the bytes that an atomic of the element at `pa` leaves, given the value that its operation has there. -/
def atomicBytes (pa n : Nat) (g : Nat → Byte) (v : Option Nat) (a : Nat) : Byte :=
  v.elim (g a) fun v => if pa ≤ a ∧ a < pa + n then (leBytes n v).getD (a - pa) 0 else g a

section Home
variable {s : State} {pa n : Nat} (f : Nat → Option Nat)

/-- R272: once a line's copies are recalled, the home copy holds the bytes that every agent sees. -/
theorem Recalled.ram {s1 : State} {l : Nat} (r : Recalled s s1 l) {a : Nat} (ha : a < 2 ^ 52) (hl : a / 128 = l) :
    s1.mem.ram.read a = s.mem.byteAt a := by
  rw [← r.byteAt a ha, MemSys.byteAt, hl, ownerData_none r.no_owner]

/-- R211, R272: an atomic at the home of its line. -/
theorem atomicAt_stored (hc : Coherent s) (hin : pa % 128 + n ≤ 128) (hb : pa + n ≤ 2 ^ 52) (hpa : pa < 2 ^ 52) :
    (s.atomicAt pa n f).2 = leNat ((List.range n).map fun i => s.mem.byteAt (pa + i)) ∧ Coherent (s.atomicAt pa n f).1 ∧
      Wrote s (s.atomicAt pa n f).1 (atomicBytes pa n s.mem.byteAt (f (s.atomicAt pa n f).2)) := by
  have hl : pa / 128 < 2 ^ 45 := by omega
  have hrec := recall_recalled hl (hc _ hl)
  have hold : (List.range n).map (fun i => (s.recall (pa / 128)).mem.ram.read (pa + i)) =
      (List.range n).map fun i => s.mem.byteAt (pa + i) := List.map_congr_left fun i hi => by
    have hi := List.mem_range.mp hi
    exact hrec.ram (by omega) (by omega)
  have hcoh := hrec.coherent hc
  unfold State.atomicAt
  simp only [hold]
  cases hf : f (leNat ((List.range n).map fun i => s.mem.byteAt (pa + i))) with
  | none => exact ⟨rfl, hcoh, by rw [hrec.only]; rfl, fun a ha => (hrec.byteAt a ha).trans (by rw [hf]; rfl)⟩
  | some v =>
    have hst := homeWrite_stored (bytesFn pa (leBytes n v)) none hb hcoh
    refine ⟨rfl, ?_, ?_, fun a ha => ?_⟩
    · simpa only [State.putBytes, length_leBytes] using hst.coherent
    · have honly := hst.only
      simp only [State.putBytes, length_leBytes]
      rw [honly, hrec.only]
      rfl
    · simp only [State.putBytes, length_leBytes]
      rw [hst.bytes a ha, hrec.byteAt a ha, hf]
      rfl

/-- R138, R367: the notes of a write change no byte. -/
theorem Wrote.noteWrite {t : State} {g : Nat → Byte} (w : Wrote s t g) (who : Option Nat) (pa n : Nat) :
    Wrote s (t.noteWrite who pa n) g := ⟨by rw [State.noteWrite, w.1], w.2⟩

/-- R211: one lane's atomic. -/
theorem atomicLane_wrote (core : Nat) (who : Option Nat) (hc : Coherent s) (hn : 0 < n) (hin : pa % 128 + n ≤ 128)
    (hb : pa + n ≤ 2 ^ 52) :
    (s.atomicLane core who pa n f).2 = leNat ((List.range n).map fun i => s.mem.byteAt (pa + i)) ∧
      Wrote s (s.atomicLane core who pa n f).1
        (atomicBytes pa n s.mem.byteAt (f (leNat ((List.range n).map fun i => s.mem.byteAt (pa + i))))) := by
  obtain ⟨hold, -, hw⟩ := atomicAt_stored f hc hin hb (by omega)
  rw [hold] at hw
  have hl1 := hw.l1 ((s.atomicAt pa n f).1.mem.l1.erase (l1Key core (pa / 128)))
  unfold State.atomicLane
  refine ⟨hold, ?_⟩
  dsimp only
  split
  · exact hl1.noteWrite who pa n
  · exact hl1

end Home

/-- What lanes that write one element type leave in the register. -/
theorem Wave.elem_writeElems_mod (w : Wave) (t : Ty) (r : Nat) (m : Lanes) (f : Nat → Nat) {l : Nat} (hl : l < 96)
    (hm : m.getLsbD l = true) : (w.writeElems t.width r m fun l _ => f l).elem t.width r l 0 = f l % 2 ^ t.width := by
  by_cases ht : t = .none
  · subst ht
    have hlt := Wave.elem_lt (wd := Ty.width .none) (by decide) (w := w.writeElems (Ty.width .none) r m fun l _ => f l) r l 0
    simp only [Ty.width, pow_zero, Nat.lt_one_iff] at hlt
    simp only [Ty.width, hlt, pow_zero, Nat.mod_one]
  · exact Wave.elem_writeElems w _ r m _ l 0 hl hm (Ty.laneWidth_of_ne ht) (elemsPerLane_pos (Ty.laneWidth_of_ne ht))

theorem ite_bind_of_ok {ε α β : Type} {p : Prop} [Decidable p] {x y : Except ε α} {a : α} (e : (if p then x else y) = .ok a)
    (k : α → Except ε β) : (if p then x >>= k else y >>= k) = k a := by
  by_cases h : p
  · rw [if_pos h] at e ⊢
    exact bind_of_ok e k
  · rw [if_neg h] at e ⊢
    exact bind_of_ok e k

section Lanes
variable {s s1 s2 : State} {h : Here} {o : AtomOp} {rd wr : Bool} (c : Clear s h ((atomUses o rd wr).vr ++ (atomUses o rd wr).vw))
  {i : Instr} {f : Here → Nat → Nat → Option Nat} (e : exec i s = onWave o.g (atomUses o rd wr) s fun h => h.atomic o wr (f h) s)
include c e

theorem Clear.atomic_idle (hm : h.f.mask = 0) : exec i s = .next (h.done s id) := by
  rw [e]
  refine c.onWave_ok o.g (atomUses o rd wr) _ (by simp [atomUses]) (.inl rfl) (if_pos hm)

theorem Clear.atomic_performs {ps : List (Nat × List Piece)} (hm : h.f.mask ≠ 0)
    (hp : Passes h s (fun t l => aligned (h.atomAddr o l).toNat (o.ty.width / 8)
      (h.globalChecks s .write (h.atomAddr o) (o.ty.width / 8) t l) t) (lanesOf (h.part o.g)) (h.atomAddr o) s1 ps)
    (hrel : (if hasRel o.ord then h.release s1 o.scope else .ok s1) = .ok s2)
    (hecc : (State.atomicLanes h.w.core (some (s.crew h.w.crew).launch) (o.ty.width / 8) (f h)
        (s2.settleOver h.f.id (ps.flatMap (·.2))) ps).2.2 = []) :
    let q := State.atomicLanes h.w.core (some (s.crew h.w.crew).launch) (o.ty.width / 8) (f h)
      (s2.settleOver h.f.id (ps.flatMap (·.2))) ps
    exec i s = .next (h.done (if hasAcq o.ord then h.acquire q.1 o.scope else q.1) fun w =>
      if wr then w.writeElems o.ty.width o.d.toNat (h.part o.g) fun l _ => laneOf q.2.1 l else w) := by
  intro q
  obtain ⟨rfl, hpass⟩ := hp
  rw [e]
  refine c.onWave_ok o.g (atomUses o rd wr) _ (by simp [atomUses]) (.inl rfl)
    ((if_neg hm).trans ((bind_of_ok hpass _).trans ((ite_bind_of_ok hrel _).trans (if_neg ?_))))
  simp [hecc]

/-- R210: what an atomic leaves of its wave. -/
theorem Clear.atomic_ends {ps : List (Nat × List Piece)} (hm : h.f.mask ≠ 0)
    (hp : Passes h s (fun t l => aligned (h.atomAddr o l).toNat (o.ty.width / 8)
      (h.globalChecks s .write (h.atomAddr o) (o.ty.width / 8) t l) t) (lanesOf (h.part o.g)) (h.atomAddr o) s1 ps)
    (hrel : (if hasRel o.ord then h.release s1 o.scope else .ok s1) = .ok s2)
    (hecc : (State.atomicLanes h.w.core (some (s.crew h.w.crew).launch) (o.ty.width / 8) (f h)
        (s2.settleOver h.f.id (ps.flatMap (·.2))) ps).2.2 = []) :
    let q := State.atomicLanes h.w.core (some (s.crew h.w.crew).launch) (o.ty.width / 8) (f h)
      (s2.settleOver h.f.id (ps.flatMap (·.2))) ps
    Ends i s (if hasAcq o.ord then h.acquire q.1 o.scope else q.1) h
      { v := if wr then regsOf o.ty o.d.toNat else [], m := h.part o.g } fun w =>
        wr = true → ∀ l, l < 96 → (h.part o.g).getLsbD l = true →
          w.elem o.ty.width o.d.toNat l 0 = laneOf q.2.1 l % 2 ^ o.ty.width := by
  intro q
  have hexec := c.atomic_performs e hm hp hrel hecc
  cases wr with
  | false => exact (Body.refl c _).ends id hexec fun _ _ hf => by cases hf
  | true =>
    refine ((Body.refl c _).writeElems o.ty o.d.toNat (h.part o.g) (fun l _ => laneOf q.2.1 l) (fun _ a => a) (fun _ _ a => a)).ends
      (fun w => w.writeElems o.ty.width o.d.toNat (h.part o.g) fun l _ => laneOf q.2.1 l) hexec fun _ _ _ l hl hm => ?_
    rw [Wave.elem_setFrag, Wave.elem_writeElems_mod _ _ _ _ _ hl hm]

end Lanes

/-- Settles O28: the three instructions are one atomic with its operation; a lane's atomic is one at the home of its line. -/
theorem atomicResults : Obligations.AtomicResults := by
  refine ⟨fun p hp o s h c => ?_, fun s core who pa n f hc hn hin hb => ?_⟩
  · have he : ∀ s, exec (p.1 o) s = onWave o.g (atomUses o p.2.1 p.2.2.1) s fun h => h.atomic o p.2.2.1 (p.2.2.2 h o) s := by
      simp only [List.mem_cons, List.not_mem_nil, or_false] at hp
      rcases hp with rfl | rfl | rfl <;> exact fun _ => rfl
    exact ⟨fun hm => c.atomic_idle (f := fun h => p.2.2.2 h o) (he s) hm,
      fun s1 s2 ps hm hpass hrel hecc => c.atomic_ends (f := fun h => p.2.2.2 h o) (he s) hm hpass hrel hecc⟩
  · intro r old
    obtain ⟨hold, honly, hbytes⟩ := atomicLane_wrote f core who hc hn hin hb
    refine ⟨hold, honly, fun a ha => (hbytes a ha).trans ?_⟩
    cases f old <;> rfl

end Sys2Proof.Machine

/-! R240: an acquire at .die performs a pending store of its fragment over a Clean word of its crew's windows. -/
namespace Sys2Proof.Machine

/-- A fragment whose store of one byte at address 0 is pending, while its crew's window holds that word Clean. -/
def pendingOverClean : State :=
  { witState witWave with
    crews := [(0, { nunits := 1, opened := 1, words := [(0, 2)], phys := [(0, 1)] })]
    mem := { (witState witWave).mem with posts := [{ parts := [⟨0, 0, 1⟩], data := [1], obs := [(witHere witWave).f.id] }] } }

theorem pendingOverClean_clear : Clear pendingOverClean (witHere witWave) [] :=
  wit_clear_of _ _ _ (wit_clear witWave [] rfl rfl rfl (by simp)).here rfl rfl (by simp)

theorem pendingOverClean_byteAt : pendingOverClean.mem.byteAt 0 = 0 := by decide +kernel

theorem pendingOverClean_acquired : ((witHere witWave).acquire pendingOverClean .die).mem.byteAt 0 = 1 := by decide +kernel

/-- Refutes O29: of a fence with an acquire at .die the statement says that every byte is as before; but the acquire performs the
fragment's pending store over a Clean window word (log 53), so that byte 0 goes from 0 to 1. -/
theorem not_localAtomicsAndFences : ¬ Obligations.LocalAtomicsAndFences := by
  intro ⟨_, _, hfence⟩
  obtain ⟨-, hbytes⟩ := hfence .acq .die _ _ _ pendingOverClean_clear rfl
  have hbyte : ((witHere witWave).acquire pendingOverClean .die).mem.byteAt 0 = pendingOverClean.mem.byteAt 0 := hbytes 0
  rw [pendingOverClean_acquired, pendingOverClean_byteAt] at hbyte
  exact absurd hbyte (by decide)

end Sys2Proof.Machine

/-! Copies of a wave: a legal copy joins the engine, an empty one does nothing. -/
namespace Sys2Proof.Machine

/-- R257: an access to a core's stores changes at most their owner. -/
theorem own_only {s s1 : State} {core ctx : Nat} (e : s.own core ctx = some s1) :
    s1 = { s with stores := { s.stores with owner := s1.stores.owner } } := by
  unfold State.own at e
  dsimp only at e
  split at e
  · cases e; rfl
  · split at e
    · cases e; rfl
    · cases e

section Copies
variable {s s1 : State} {h : Here}

/-- R215: a copy of no bytes in legal ranges is complete at its issue. -/
theorem Here.copy_empty {c : Copy} (hok : (h.copyOf s c).issueBad (s.crew h.w.crew) (s.launchOf h.w) = none)
    (hlen : c.len = 0) : h.copy s c = .ok (h.done s id) := by
  unfold Here.copyOf at hok
  simp only [Here.copy, hok]
  exact if_pos hlen

/-- R214, R215: a legal copy of some bytes to global or cluster memory joins its queue where there is room. -/
theorem Here.copy_joins {c : Copy} (hok : (h.copyOf s c).issueBad (s.crew h.w.crew) (s.launchOf h.w) = none)
    (hlen : c.len ≠ 0) (hroom : s.copyFull h.w.core (h.copyOf s c) = false) (hin : (h.copyOf s c).inCore = false) :
    h.copy s c = .ok (h.done (s.addCopy (h.copyOf s c) (some h.f.id)) id) := by
  unfold Here.copyOf at hok hroom hin ⊢
  simp only [Here.copy, hok, hlen, hroom, hin, if_false, Here.ok, Bool.false_eq_true]

/-- R215, R257: one to a store of its core does so once the core's stores are the context's. -/
theorem Here.copy_joins_core {c : Copy} (hok : (h.copyOf s c).issueBad (s.crew h.w.crew) (s.launchOf h.w) = none)
    (hlen : c.len ≠ 0) (hroom : s.copyFull h.w.core (h.copyOf s c) = false) (hin : (h.copyOf s c).inCore = true)
    (hown : s.own h.w.core (s.launchOf h.w).ctx = some s1) :
    h.copy s c = .ok (h.done (s1.addCopy (if c.kind = CKind.cpact then
      { h.copyOf s c with bank := 1 - s1.bankOf h.w.core, dst := 4096 * (1 - s1.bankOf h.w.core) } else h.copyOf s c)
        (some h.f.id)) id) := by
  unfold Here.copyOf at hok hroom hin ⊢
  simp only [Here.copy, hok, hlen, hroom, hin, hown, if_false, if_true, Here.ok, Bool.false_eq_true]

/-- R214: what the issue of a copy leaves of its state. -/
theorem copyIssued {i : Instr} {c : Copy} (e : exec i s = .next (h.done (s1.addCopy c (some h.f.id)) id))
    (honly : s1 = { s with stores := { s.stores with owner := s1.stores.owner } }) : CopyIssued i s s1 h c := by
  refine ⟨e, ?_, honly⟩
  rw [honly]
  rfl

section Form
variable {o : Cpy} {kind : CKind} {ty : Ty} {i : Instr} (c : Clear s h []) (e : exec i s = copyForm o kind ty s)
include c e

/-- R214: the copy that a form asks for, where some lane is active. -/
theorem Clear.copyForm_next {t : State} (hm : h.f.mask ≠ 0)
    (hk : h.copy s { kind, ty, src := (h.s o.a).toNat, dst := (h.s o.d).toNat, len := bits (h.s o.b) 0 32,
                     track := match o.bar with | some x => .bar (h.s x).toNat | none => .batch h.w.openB } = .ok t) :
    exec i s = .next t :=
  e.trans (c.onWave_ok Guard.none { sr := [o.d.toNat, o.a.toNat, o.b.toNat] ++ o.bar.toList.map (·.toNat) } _ (by simp) (.inl rfl)
    ((if_neg hm).trans hk))

theorem Clear.copyForm_idle (hm : h.f.mask = 0) : exec i s = .next (h.done s id) :=
  e.trans (c.onWave_ok Guard.none { sr := [o.d.toNat, o.a.toNat, o.b.toNat] ++ o.bar.toList.map (·.toNat) } _ (by simp) (.inl rfl)
    (if_pos hm))

end Form
end Copies

/-- Settles O31: the four forms are one copy of their kind; a copy of a table is one of 4096 bytes to the other bank. -/
theorem copiesAreIssued : Obligations.CopiesAreIssued := by
  constructor
  · intro t p hp o s h c cp bad
    have hform : ∀ s, exec (p.1 o) s = copyForm o p.2.1 p.2.2 s ∧ p.2.1 ≠ CKind.cpact := by
      simp only [List.mem_cons, List.not_mem_nil, or_false] at hp
      rcases hp with rfl | rfl | rfl | rfl | rfl <;> exact fun _ => ⟨rfl, by simp⟩
    have e := (hform s).1
    refine ⟨fun hidle => ?_, fun hm hok hlen hroom => ⟨fun hin => ?_, fun s1 hin hown => ?_⟩⟩
    · by_cases hm : h.f.mask = 0
      · exact c.copyForm_idle e hm
      · obtain ⟨hok, hlen⟩ := hidle.resolve_left hm
        exact c.copyForm_next e hm (Here.copy_empty hok hlen)
    · exact copyIssued (c.copyForm_next e hm (Here.copy_joins hok hlen hroom hin)) rfl
    · refine copyIssued (c.copyForm_next e hm ((Here.copy_joins_core hok hlen hroom hin hown).trans ?_)) (own_only hown)
      rw [if_neg (hform s).2]
  · intro a s h c cp
    refine ⟨fun hm => c.onWave_ok Guard.none { sr := [a.toNat] } _ (by simp) (.inl rfl) (if_pos hm), ?_⟩
    intro hm hok hroom s1 hown b
    refine copyIssued (c.onWave_ok Guard.none { sr := [a.toNat] } _ (by simp) (.inl rfl) ((if_neg hm).trans ?_)) (own_only hown)
    refine (Here.copy_joins_core hok ?_ hroom rfl hown).trans ?_
    · exact show (4096 : Nat) ≠ 0 by decide
    · rw [if_pos rfl]

/-- R222, R223: where the wait of a fragment is for a batch. -/
theorem Clear.cpwait_waiting {s : State} {h : Here} (c : Clear s h []) (a : BitVec 6) {k : W32} (hw : h.f.wait = .batch k) :
    exec (.cpwait a) s = .next (if s.batchDone h.key k then h.done (h.acquire s .crw) id else s) := by
  refine c.onWave_ok Guard.none { sr := [a.toNat] } _ (by simp) (.inl rfl) ?_
  simp only [hw]
  split <;> rfl

/-- R222, R223: where it does not wait yet. -/
theorem Clear.cpwait_issues {s : State} {h : Here} (c : Clear s h []) (a : BitVec 6) (hw : h.f.wait = .none) (hm : h.f.mask ≠ 0) :
    let n0 : W32 := (h.s a).setWidth 32
    let n := if batchBefore n0 h.w.lastB then n0 else h.w.lastB
    exec (.cpwait a) s = .next (if s.batchDone h.key n then h.done (h.acquire s .crw) id else h.await s (.batch n)) := by
  intro n0 n
  refine c.onWave_ok Guard.none { sr := [a.toNat] } _ (by simp) (.inl rfl) ?_
  simp only [hw, if_neg hm]
  change (if s.batchDone h.key n then h.ok (h.acquire s .crw) id else .ok (h.await s (.batch n))) = _
  split <;> rfl

/-- Settles O32: a commit writes the wave's counters; a wait goes on once its batches are over. -/
theorem batchesCommitAndWait : Obligations.BatchesCommitAndWait := by
  intro s h c
  refine ⟨fun d => ⟨fun hm => c.onWave_ok Guard.none {} _ (by simp) (.inl rfl) (if_pos hm),
    fun hm => c.onWave_ok Guard.none {} _ (by simp) (.inl rfl) (if_neg hm)⟩, ?_⟩
  intro a n0 n go
  refine ⟨fun k hw => c.cpwait_waiting a hw, fun hw hm => ?_, fun hw hm => c.cpwait_issues a hw hm, fun x => rfl⟩
  refine c.onWave_ok Guard.none { sr := [a.toNat] } _ (by simp) (.inl rfl) ?_
  simp only [hw]
  exact if_pos hm

end Sys2Proof.Machine

/-! A copy segment: where its checks lead, and what its bytes leave of memory. -/
namespace Sys2Proof.Machine

/-- Where no pending event is named, none is performed. -/
theorem settle_none {s : State} {q : Post → Bool} (h : ∀ p ∈ s.mem.posts, q p = false) : s.settle q = s := by
  rw [State.settle, duePosts_none _ h]
  rfl

section Start
variable {s s0 s1 s2 : State} {key seg p q : Nat} {c : Copy}

/-- R218: a segment whose stores are its context's and whose two sides pass reads its source. -/
theorem segStart_reads (hmoved : c.moved.get? seg = none) (hown : s.segOwn c = some s0)
    (hsrc : s0.segSide c c.srcSide false (c.segAt seg).1 (c.seg seg).2 (c.patched.get? seg).isSome = (s1, .ok p))
    (hdst : s1.segSide c c.dstSide true (c.segAt seg).2
      (if c.sparse then min ((c.rest.length + (c.seg seg).2) / c.groupLen * (4 + c.groupLen) + (4 + c.groupLen)) c.dstLen
        else (c.seg seg).2) (c.patched.get? seg).isSome = (s2, .ok q)) (hbar : s2.badBar c = none) :
    s.segStart key seg c = .ok ((s2.segRead c (c.segAt seg).1 p (c.seg seg).2).1,
      { dst := q, data := (s2.segRead c (c.segAt seg).1 p (c.seg seg).2).2 }) := by
  unfold State.segStart
  cases hs : c.sparse <;> simp only [hs, Bool.false_eq_true, if_false, if_true] at hdst <;>
    simp only [hmoved, hown, hsrc, hdst, hbar, Bool.false_eq_true, if_false, if_true]

/-- R218: a segment whose turn it is and that starts writes its bytes and is over. -/
theorem copySegment_moves {m : Moving} (hget : s.copies.get? key = some c) (hdue : s.segDue c seg = true)
    (hstart : s.segStart key seg c = .ok (s1, m)) :
    exec (.copySegment key seg) s = .next ((s1.segWrite key c seg m).finishSeg key seg) := by
  change execCopySegment key seg s = _
  simp only [execCopySegment, hget, hdue, if_true, State.runSeg, hstart]

end Start

/-- The engine's destination in global memory is that of no sparse copy. -/
theorem sparse_of_glob {c : Copy} (h : c.dstSide = .glob) : c.sparse = false := by
  unfold Copy.dstSide at h
  unfold Copy.sparse
  split at h <;> simp_all

/-- What is left of global memory by bytes of a segment: coherent memory with the bytes in place, in which the copy must see nothing. -/
structure SegPut (s t : State) (c : Copy) (f : Nat → Byte) : Prop where
  coherent : Coherent t
  unseen : ∀ p ∈ t.mem.posts, p.seenBy c.id = false
  bytes : ∀ a, a < 2 ^ 52 → t.mem.byteAt a = f a

section Global
variable {s : State} {c : Copy} (hg : c.dstSide = .glob)
include hg

/-- R219, R232: bytes of a segment reach global memory. -/
theorem segPut_glob {a : Nat} {l : List Byte} (hc : Coherent s) (hu : ∀ p ∈ s.mem.posts, p.seenBy c.id = false)
    (hb : a + l.length ≤ 2 ^ 52) :
    SegPut s (s.segPut c a l) c fun x => if a ≤ x ∧ x < a + l.length then l.getD (x - a) 0 else s.mem.byteAt x := by
  have hst := homeWrite_stored (bytesFn a l) none hb hc
  have ht : s.segPut c a l = (s.putBytes a l).noteWrite (some c.launch) a l.length := by
    have hnone : s.settleOver c.id [⟨a, a, l.length⟩] = s := settle_none fun p hp => by simp [hu p hp]
    unfold State.segPut
    simp only [hg, hnone]
  rw [ht]
  exact ⟨coherent_of_same (s := s.putBytes a l) (fun _ _ => rfl) (fun _ => rfl)
      (fun _ _ => ⟨rfl, fun _ => rfl, fun _ _ => rfl, Iff.rfl⟩) hst.coherent,
    fun p hp => hu p ((homeWrite_posts s a l.length (bytesFn a l) none) ▸ hp), hst.bytes⟩

/-- R229: the bytes of a segment that a mask leaves, one after another. -/
theorem segPut_bytes (dst mask : Nat) : ∀ (l : List Byte) (k : Nat) (s : State), Coherent s →
    (∀ p ∈ s.mem.posts, p.seenBy c.id = false) → dst + k + l.length ≤ 2 ^ 52 →
    ∀ a, a < 2 ^ 52 →
      ((l.zipIdx k).foldl (fun s x => if mask.testBit x.2 then s else s.segPut c (dst + x.2) [x.1]) s).mem.byteAt a =
        if dst + k ≤ a ∧ a < dst + k + l.length ∧ mask.testBit (a - dst) = false then l.getD (a - dst - k) 0 else s.mem.byteAt a
  | [], k, s, _, _, _, a, _ => by
    rw [if_neg (by simp; omega)]
    rfl
  | b :: l, k, s, hc, hu, hb, a, ha => by
    rw [List.length_cons] at hb ⊢
    rw [List.zipIdx_cons, List.foldl_cons]
    have hnext (t : State) (hc : Coherent t) (hu : ∀ p ∈ t.mem.posts, p.seenBy c.id = false) :=
      segPut_bytes dst mask l (k + 1) t hc hu (by omega) a ha
    have hrange : (dst + (k + 1) ≤ a ∧ a < dst + (k + 1) + l.length ∧ mask.testBit (a - dst) = false) ↔
        a ≠ dst + k ∧ (dst + k ≤ a ∧ a < dst + k + (l.length + 1) ∧ mask.testBit (a - dst) = false) := by
      constructor
      · exact fun ⟨h1, h2, h3⟩ => ⟨by omega, by omega, by omega, h3⟩
      · exact fun ⟨h0, h1, h2, h3⟩ => ⟨by omega, by omega, h3⟩
    have hget (h1 : dst + (k + 1) ≤ a) : (b :: l).getD (a - dst - k) 0 = l.getD (a - dst - (k + 1)) 0 := by
      rw [show a - dst - k = a - dst - (k + 1) + 1 by omega]
      rfl
    cases hbit : mask.testBit k with
    | true =>
      rw [if_pos rfl, hnext s hc hu]
      by_cases hin : dst + (k + 1) ≤ a ∧ a < dst + (k + 1) + l.length ∧ mask.testBit (a - dst) = false
      · rw [if_pos hin, if_pos (hrange.mp hin).2, hget hin.1]
      · have hk : ¬ (dst + k ≤ a ∧ a < dst + k + (l.length + 1) ∧ mask.testBit (a - dst) = false) := fun h =>
          hin (hrange.mpr ⟨fun e => by simp [e, hbit] at h, h⟩)
        rw [if_neg hin, if_neg hk]
    | false =>
      have hput := segPut_glob hg (a := dst + k) (l := [b]) hc hu (by simp; omega)
      rw [if_neg (by decide), hnext _ hput.coherent hput.unseen]
      by_cases hin : dst + (k + 1) ≤ a ∧ a < dst + (k + 1) + l.length ∧ mask.testBit (a - dst) = false
      · rw [if_pos hin, if_pos (hrange.mp hin).2, hget hin.1]
      · have hbyte := hput.bytes a ha
        simp only [List.length_singleton] at hbyte
        rw [if_neg hin, hbyte]
        by_cases hk : a = dst + k
        · subst hk
          rw [if_pos (by omega), if_pos ⟨by omega, by omega, by rwa [show dst + k - dst = k by omega]⟩,
            show dst + k - dst - k = dst + k - (dst + k) by omega]
          rw [Nat.sub_self]
          rfl
        · rw [if_neg (by omega), if_neg fun h => hin (hrange.mpr ⟨hk, h⟩)]

/-- R219, R229: what a segment leaves of global memory. -/
theorem segWrite_glob (key i : Nat) (m : Moving) (hc : Coherent s) (hu : ∀ p ∈ s.mem.posts, p.seenBy c.id = false)
    (hb : m.dst + m.data.length ≤ 2 ^ 52) {a : Nat} (ha : a < 2 ^ 52) :
    (s.segWrite key c i m).mem.byteAt a =
      if m.dst ≤ a ∧ a < m.dst + m.data.length ∧ m.mask.testBit (a - m.dst) = false then m.data.getD (a - m.dst) 0
      else s.mem.byteAt a := by
  unfold State.segWrite
  rw [if_neg (by simp [sparse_of_glob hg])]
  split
  · rename_i hmask
    simpa [hmask] using (segPut_glob hg hc hu hb).bytes a ha
  · exact segPut_bytes hg m.dst m.mask m.data 0 s hc hu hb a ha

end Global

/-- R219: bytes of a segment that go to a local store leave main memory alone. -/
theorem segPut_memKept {s : State} {c : Copy} (hg : c.dstSide ≠ .glob) (a : Nat) (l : List Byte) (hp : NoCrewPosts s) :
    MemKept s (s.segPut c a l) := by
  unfold State.segPut
  split
  · rename_i h
    exact absurd h hg
  · exact wake_memKept (s := s.putA (c.core / 8) a l.length (bytesFn a l)) hp
  · exact .of_mem rfl
  · exact .of_mem rfl

theorem segWrite_memKept {s : State} {c : Copy} (hg : c.dstSide ≠ .glob) (key i : Nat) (m : Moving) (hp : NoCrewPosts s) :
    MemKept s (s.segWrite key c i m) := by
  unfold State.segWrite
  split
  · exact segPut_memKept hg _ _ hp
  · split
    · exact segPut_memKept hg _ _ hp
    · refine MemKept.foldl (fun s x hp => ?_) _ s hp
      split
      · exact .of_mem rfl
      · exact segPut_memKept hg _ _ hp

/-- Settles O33: what has moved starts at once, another segment once both sides pass; its bytes reach global memory or a store. -/
theorem copySegmentsMove : Obligations.CopySegmentsMove := by
  intro s key seg c hget hdue
  refine ⟨fun m hm => by simp only [State.segStart, hm], ?_, ?_⟩
  · intro s0 s1 s2 p q hmoved hown x n out hsrc hdst hbar
    exact segStart_reads hmoved hown hsrc hdst hbar
  · intro s1 m hstart t
    exact ⟨copySegment_moves hget hdue hstart, fun hg hc hu hb a ha => segWrite_glob hg key seg m hc hu hb ha,
      fun hg hp a => (segWrite_memKept hg key seg m hp).byteAt a⟩

end Sys2Proof.Machine

/-! What the directory's events leave of the value of a line. -/
namespace Sys2Proof.Machine

/-- The data of a die's copy of a line, where it is dirty. -/
def MemSys.dirtyAt (m : MemSys) (l d : Nat) : Option MemLine :=
  (m.l2.get? (l2Key d l)).bind fun c => if c.st = Moesi.m ∨ c.st = Moesi.o then some c.data else none

/-- The owner that the directory names for a line. -/
def MemSys.ownerOf (m : MemSys) (l : Nat) : Option Nat := (m.dir.get? l).bind (·.owner)

theorem ownerData_eq (m : MemSys) (l : Nat) : m.ownerData l = (m.ownerOf l).bind (m.dirtyAt l) := by
  unfold MemSys.ownerData MemSys.ownerOf MemSys.dirtyAt
  cases m.dir.get? l with
  | none => rfl
  | some e =>
    cases ho : e.owner with
    | none => simp [ho]
    | some o => cases hc : m.l2.get? (l2Key o l) <;> simp [ho, hc]

theorem dirtyAt_none {m : MemSys} {l d : Nat} (h : ∀ c, m.l2.get? (l2Key d l) = some c → ¬ (c.st = .m ∨ c.st = .o)) :
    m.dirtyAt l d = none := by
  unfold MemSys.dirtyAt
  cases hc : m.l2.get? (l2Key d l) with
  | none => rfl
  | some c => exact if_neg (h c hc)

/-- A line's value stays where its home copy stays, and its owner's data: the owner may lose its place if it is clean. -/
theorem lineVal_congr {m m' : MemSys} {l : Nat} (hram : ∀ i, i < 128 → m'.ram.read (128 * l + i) = m.ram.read (128 * l + i))
    (hown : m'.ownerData l = m.ownerData l) : m'.lineVal l = m.lineVal l := by
  have hline : m'.ramLine l = m.ramLine l := memLine_ext fun i hi => by rw [byteOf_ramLine _ _ _ hi, byteOf_ramLine _ _ _ hi, hram i hi]
  rw [MemSys.lineVal, MemSys.lineVal, hown, hline]

/-- Every line keeps its value where the home copies and the owners' data stay. -/
theorem byteAt_of_lineVal {m m' : MemSys} (h : ∀ l, l < 2 ^ 45 → m'.lineVal l = m.lineVal l) {a : Nat} (ha : a < 2 ^ 52) :
    m'.byteAt a = m.byteAt a := by
  rw [byteAt_eq, byteAt_eq, h (a / 128) (by omega)]

section Events
variable {s : State} {d l : Nat}

/-- R272, R273: an entry that names a die no more. -/
theorem forget_only (s : State) (d l : Nat) : ∃ dir, s.forget d l = s.setMem { s.mem with dir } := by
  unfold State.forget
  split
  · exact ⟨_, rfl⟩
  · exact ⟨s.mem.dir, rfl⟩

theorem setEntry_ownerOf (s : State) (m : MemSys) (l : Nat) (o : Option Nat) (sh : BitVec 8) : (s.setEntry m l o sh).ownerOf l = o := by
  rw [MemSys.ownerOf, setEntry_same]
  split
  · rename_i h
    exact h.1.symm
  · rfl

theorem forget_ownerOf (s : State) (d l : Nat) :
    (s.forget d l).mem.ownerOf l = if s.mem.ownerOf l = some d then none else s.mem.ownerOf l := by
  unfold State.forget
  cases he : s.mem.dir.get? l with
  | none => simp [MemSys.ownerOf, he]
  | some e =>
    have hown : s.mem.ownerOf l = e.owner := by simp [MemSys.ownerOf, he]
    rw [hown]
    exact setEntry_ownerOf ..

/-- R272, R273: a die whose copy is not dirty is forgotten without a change of any value. -/
theorem forget_lineVal (hd : s.mem.dirtyAt l d = none) (l' : Nat) : (s.forget d l).mem.lineVal l' = s.mem.lineVal l' := by
  have howner := forget_ownerOf s d l
  have hother : l' ≠ l → (s.forget d l).mem.dir.get? l' = s.mem.dir.get? l' := fun hne => by
    unfold State.forget
    split
    · exact setEntry_other _ _ _ _ _ hne
    · rfl
  obtain ⟨dir, e⟩ := forget_only s d l
  rw [e] at howner hother ⊢
  refine lineVal_congr (fun _ _ => rfl) ?_
  have hdirty : MemSys.dirtyAt { s.mem with dir } = s.mem.dirtyAt := rfl
  rw [ownerData_eq, ownerData_eq]
  change (MemSys.ownerOf { s.mem with dir } l').bind (s.mem.dirtyAt l') = _
  by_cases hne : l' = l
  · subst hne
    rw [show MemSys.ownerOf { s.mem with dir } l' = _ from howner]
    split
    · rename_i ho
      rw [ho]
      exact hd.symm
    · rfl
  · exact congrArg (·.bind (s.mem.dirtyAt l')) (congrArg (·.bind (·.owner)) (hother hne))

/-- R272, R273: a die's copy goes home, with its data where it is dirty. -/
theorem recallFrom_one (hl : l < 2 ^ 45) (h : LineOk s l) :
    (s.mem.recallFrom l [d]).l2.get? (l2Key d l) = none ∧
      ∀ l', l' < 2 ^ 45 → (s.mem.recallFrom l [d]).lineVal l' = s.mem.lineVal l' := by
  obtain ⟨hdir, -, hsame, hl2, hram⟩ := recallFrom_spec l hl (s.mem.lineVal l) [d] s.mem fun d c hc _ => h.copies d c hc
  refine ⟨by simp [hl2], fun l' hl' => ?_⟩
  by_cases hne : l' = l
  · subst hne
    have hgone : (s.mem.recallFrom l' [d]).dirtyAt l' d = none := dirtyAt_none fun c hc => by simp [hl2] at hc
    have hdata : (s.mem.recallFrom l' [d]).ownerData l' = (s.mem.ownerOf l').bind ((s.mem.recallFrom l' [d]).dirtyAt l') := by
      rw [ownerData_eq, MemSys.ownerOf, hdir]
      rfl
    by_cases hdirty : ∃ c, s.mem.l2.get? (l2Key d l') = some c ∧ (c.st = .m ∨ c.st = .o)
    · obtain ⟨c, hc, hst⟩ := hdirty
      obtain ⟨e, he, -⟩ := h.tracked d c hc
      have howner : s.mem.ownerOf l' = some d := by
        rw [MemSys.ownerOf, he]
        exact h.owned d c e hc (by rcases hst with hst | hst <;> simp [hst]) he
      rw [howner, Option.bind_some, hgone] at hdata
      rw [MemSys.lineVal, hdata, Option.getD_none]
      refine memLine_ext fun i hi => ?_
      rw [byteOf_ramLine _ _ _ hi, hram i hi, if_pos ⟨d, by simp, c, hc, hst⟩]
    · have hclean : s.mem.dirtyAt l' d = none := dirtyAt_none fun c hc hst => hdirty ⟨c, hc, hst⟩
      refine lineVal_congr (fun i hi => (hram i hi).trans (if_neg fun ⟨d', hd', h'⟩ => hdirty (List.mem_singleton.mp hd' ▸ h'))) ?_
      rw [hdata, ownerData_eq]
      congr 1
      funext o
      by_cases ho : o = d
      · rw [ho, hgone, hclean]
      · simp [MemSys.dirtyAt, hl2, ho]
  · exact (hsame l' hl' hne).lineVal

/-- A die's copy put in another state leaves every value where its data stays as the owner's. -/
theorem put_lineVal (hl : l < 2 ^ 45) {c : L2Line} (hc : MemSys.dirtyAt { s.mem with l2 := s.mem.l2.put (l2Key d l) c } l d =
    s.mem.dirtyAt l d) {l' : Nat} (hl' : l' < 2 ^ 45) :
    MemSys.lineVal { s.mem with l2 := s.mem.l2.put (l2Key d l) c } l' = s.mem.lineVal l' := by
  refine lineVal_congr (fun _ _ => rfl) ?_
  rw [ownerData_eq, ownerData_eq]
  change (s.mem.ownerOf l').bind _ = _
  congr 1
  funext o
  by_cases hkey : l2Key o l' = l2Key d l
  · obtain ⟨rfl, rfl⟩ := (l2Key_inj hl' hl).mp hkey
    exact hc
  · simp only [MemSys.dirtyAt, Table.get?_put, if_neg hkey]

/-- R271: a clean copy that leaves changes no value. -/
theorem erase_lineVal (hl : l < 2 ^ 45) (hclean : s.mem.dirtyAt l d = none) {l' : Nat} (hl' : l' < 2 ^ 45) :
    MemSys.lineVal { s.mem with l2 := s.mem.l2.erase (l2Key d l) } l' = s.mem.lineVal l' := by
  refine lineVal_congr (fun _ _ => rfl) ?_
  rw [ownerData_eq, ownerData_eq]
  change (s.mem.ownerOf l').bind _ = _
  congr 1
  funext o
  by_cases hkey : l2Key o l' = l2Key d l
  · obtain ⟨rfl, rfl⟩ := (l2Key_inj hl' hl).mp hkey
    rw [hclean]
    exact dirtyAt_none fun c hc => by simp at hc
  · simp only [MemSys.dirtyAt, Table.get?_erase_other _ _ _ hkey]

theorem quiet_of_lineVal {m : MemSys} (h : ∀ l, l < 2 ^ 45 → m.lineVal l = s.mem.lineVal l) : Quiet s (s.setMem m) :=
  ⟨rfl, fun _ ha => byteAt_of_lineVal h ha⟩

theorem forget_quiet (hd : s.mem.dirtyAt l d = none) : Quiet s (s.forget d l) := by
  have hval := forget_lineVal hd
  obtain ⟨dir, e⟩ := forget_only s d l
  rw [e] at hval ⊢
  exact quiet_of_lineVal fun l' _ => hval l'

/-- R272, R273: a copy that goes home and whose die is forgotten. -/
theorem recalled_forgotten_quiet (hl : l < 2 ^ 45) (h : LineOk s l) : Quiet s ((s.setMem (s.mem.recallFrom l [d])).forget d l) := by
  obtain ⟨hnone, hval⟩ := recallFrom_one (d := d) hl h
  exact (quiet_of_lineVal hval).trans (forget_quiet (dirtyAt_none fun c hc => by cases hnone.symm.trans hc))

/-- R272: an owner's write-back. -/
theorem putM_quiet (hl : l < 2 ^ 45) (h : LineOk s l) : ∃ t, exec (.putM d l) s = .next t ∧ Quiet s t := by
  change ∃ t, execPutM d l s = .next t ∧ Quiet s t
  unfold execPutM
  simp only [recoverLine_eq h]
  split
  · split
    · exact ⟨_, rfl, recalled_forgotten_quiet hl h⟩
    · exact ⟨s, rfl, .refl s⟩
  · exact ⟨s, rfl, .refl s⟩

/-- R271: a clean copy leaves. -/
theorem silentEviction_quiet (hl : l < 2 ^ 45) : ∃ t, exec (.silentEviction d l) s = .next t ∧ Quiet s t := by
  change ∃ t, execSilentEviction d l s = .next t ∧ Quiet s t
  unfold execSilentEviction
  split
  · rename_i c hc
    split
    · rename_i hst
      have hclean : s.mem.dirtyAt l d = none := dirtyAt_none fun c' hc' hdirty => by
        rw [hc] at hc'
        cases hc'
        rcases hst with hst | hst <;> simp [hst] at hdirty
      exact ⟨_, rfl, quiet_of_lineVal fun l' hl' => erase_lineVal hl hclean hl'⟩
    · exact ⟨s, rfl, .refl s⟩
  · exact ⟨s, rfl, .refl s⟩

/-- R272: an owner in E that answers a shared request keeps a clean copy. -/
theorem shared_quiet (hl : l < 2 ^ 45) {c : L2Line} (hc : s.mem.l2.get? (l2Key d l) = some c) (hst : c.st = .e) (sh : BitVec 8)
    (hown : s.mem.ownerOf l = some d) :
    Quiet s (s.setMem (s.setEntry { s.mem with l2 := s.mem.l2.put (l2Key d l) { c with st := .s } } l none sh)) := by
  have hclean : s.mem.dirtyAt l d = none := dirtyAt_none fun c' hc' hdirty => by
    rw [hc] at hc'
    cases hc'
    simp [hst] at hdirty
  have hput : MemSys.dirtyAt { s.mem with l2 := s.mem.l2.put (l2Key d l) { c with st := .s } } l d = none :=
    dirtyAt_none fun c' hc' => by simp only [Table.get?_put_same] at hc'; cases hc'; simp
  refine quiet_of_lineVal fun l' hl' => (?_ : _ = MemSys.lineVal { s.mem with l2 := s.mem.l2.put (l2Key d l) { c with st := .s } } l').trans
    (put_lineVal hl (hput.trans hclean.symm) hl')
  by_cases hne : l' = l
  · subst hne
    refine lineVal_congr (fun _ _ => rfl) ?_
    rw [ownerData_eq, ownerData_eq, setEntry_ownerOf]
    change none = (s.mem.ownerOf l').bind _
    rw [hown, Option.bind_some, hput]
  · exact (setEntry_sameLine _ _ _ _ _ _ hne).lineVal

/-- R272: an owner in M that answers a shared request keeps its data. -/
theorem owned_quiet (hl : l < 2 ^ 45) {c : L2Line} (hc : s.mem.l2.get? (l2Key d l) = some c) (hst : c.st = .m) :
    Quiet s (s.setMem { s.mem with l2 := s.mem.l2.put (l2Key d l) { c with st := .o } }) :=
  quiet_of_lineVal fun _ hl' => put_lineVal hl (by simp [MemSys.dirtyAt, hc, hst]) hl'

/-- R272: a forwarded request. -/
theorem forwardedRequest_quiet (hl : l < 2 ^ 45) (h : LineOk s l) : ∃ t, exec (.forwardedRequest l) s = .next t ∧ Quiet s t := by
  change ∃ t, execForwardedRequest l s = .next t ∧ Quiet s t
  unfold execForwardedRequest
  simp only [recoverLine_eq h]
  split
  · rename_i e he
    split
    · rename_i o ho
      have hprobe : s.probeOk l o = true := h.delivered e o he ((mem_holders e o).mpr ⟨h.owner e o he ho, .inr ho⟩)
      rw [if_neg (by simp [hprobe])]
      split
      · rename_i c hc
        split
        · rename_i hst
          exact ⟨_, rfl, owned_quiet hl hc hst⟩
        · rename_i hst
          exact ⟨_, rfl, shared_quiet hl hc hst _ (by simp [MemSys.ownerOf, he, ho])⟩
        · exact ⟨s, rfl, .refl s⟩
      · rename_i hc
        exact ⟨_, rfl, forget_quiet (dirtyAt_none fun c h' => by rw [hc] at h'; cases h')⟩
    · exact ⟨s, rfl, .refl s⟩
  · exact ⟨s, rfl, .refl s⟩

/-- R273: a copy that goes home, whose die is forgotten with words of its crews' windows. -/
theorem recalled_crews_forgotten (hl : l < 2 ^ 45) (h : LineOk s l) (crews : Table Crew) :
    let t := State.forget { s.setMem (s.mem.recallFrom l [d]) with crews } d l
    t = { s with mem := t.mem, crews := t.crews } ∧ (∀ a, a < 2 ^ 52 → t.mem.byteAt a = s.mem.byteAt a) ∧
      t.mem.l2.get? (l2Key d l) = none := by
  intro t
  obtain ⟨hnone, hval⟩ := recallFrom_one (d := d) hl h
  obtain ⟨-, hforget⟩ := forget_quiet (s := { s.setMem (s.mem.recallFrom l [d]) with crews }) (d := d) (l := l)
    (dirtyAt_none fun c hc => by cases hnone.symm.trans hc)
  obtain ⟨dir, e⟩ := forget_only { s.setMem (s.mem.recallFrom l [d]) with crews } d l
  refine ⟨?_, fun a ha => (hforget a ha).trans (byteAt_of_lineVal hval ha), ?_⟩
  · unfold t
    rw [e]
    rfl
  · unfold t
    rw [e]
    exact hnone

/-- R273: a holder that gives up its copy. -/
theorem invalidateWithWriteback_writes (hl : l < 2 ^ 45) (h : LineOk s l) (hp : s.probeOk l d = true) :
    ∃ t, exec (.invalidateWithWriteback d l) s = .next t ∧ t = { s with mem := t.mem, crews := t.crews } ∧
      (∀ a, a < 2 ^ 52 → t.mem.byteAt a = s.mem.byteAt a) ∧ t.mem.l2.get? (l2Key d l) = none := by
  change ∃ t, execInvalidateWithWriteback d l s = .next t ∧ _
  unfold execInvalidateWithWriteback
  simp only [recoverLine_eq h]
  rw [if_neg (by simp [hp])]
  exact ⟨_, rfl, recalled_crews_forgotten hl h _⟩

end Events

end Sys2Proof.Machine

/-! Writes at home, atomics, recoveries and host accesses. -/
namespace Sys2Proof.Machine

theorem onlyMemory_trans {s t u : State} (a : t = { s with mem := t.mem, crews := t.crews })
    (b : u = { t with mem := u.mem, crews := u.crews }) : u = { s with mem := u.mem, crews := u.crews } := by
  rw [b, a]

/-! Every event of a line answers a next state. -/

theorem onLine_next {s : State} {die line : Nat} (hex : memExists (128 * line) = true) (hd : die < 8) (t : State) :
    s.onLine die line t = .next t := by
  simp [State.onLine, hex, hd]

section Next
variable {s : State}

theorem putM_next (die line : Nat) (s : State) : ∃ t, exec (.putM die line) s = .next t := by
  change ∃ t, execPutM die line s = .next t
  unfold execPutM
  dsimp only
  split
  · split <;> exact ⟨_, rfl⟩
  · exact ⟨_, rfl⟩

theorem forwardedRequest_next (line : Nat) (s : State) : ∃ t, exec (.forwardedRequest line) s = .next t := by
  change ∃ t, execForwardedRequest line s = .next t
  unfold execForwardedRequest
  dsimp only
  split
  · split
    · split
      · exact ⟨_, rfl⟩
      · split
        · split <;> exact ⟨_, rfl⟩
        · exact ⟨_, rfl⟩
    · exact ⟨_, rfl⟩
  · exact ⟨_, rfl⟩

theorem invalidateWithWriteback_next (die line : Nat) (s : State) : ∃ t, exec (.invalidateWithWriteback die line) s = .next t := by
  change ∃ t, execInvalidateWithWriteback die line s = .next t
  unfold execInvalidateWithWriteback
  dsimp only
  split <;> exact ⟨_, rfl⟩

theorem silentEviction_next (die line : Nat) (s : State) : ∃ t, exec (.silentEviction die line) s = .next t := by
  change ∃ t, execSilentEviction die line s = .next t
  unfold execSilentEviction
  split
  · split <;> exact ⟨_, rfl⟩
  · exact ⟨_, rfl⟩

theorem unitReclaim_next (clus unit : Nat) (s : State) : ∃ t, exec (.unitReclaim clus unit) s = .next t := by
  change ∃ t, execUnitReclaim clus unit s = .next t
  unfold execUnitReclaim
  split <;> exact ⟨_, rfl⟩

theorem homeAtomic_next {pa : Nat} (op : Option AtOp) (ty : Ty) (v : W64) (hex : memExists (128 * (pa / 128)) = true) :
    ∃ t, exec (.homeAtomic pa op ty v) s = .next t := by
  change ∃ t, execHomeAtomic pa op ty v s = .next t
  unfold execHomeAtomic
  split
  · exact ⟨_, rfl⟩
  · split <;> exact ⟨_, onLine_next hex (by decide) _⟩

theorem hostRead_next {pa : Nat} (hex : memExists pa = true) : ∃ t, exec (.hostMemoryAccess pa none) s = .next t :=
  ⟨_, if_neg (by simp [hex])⟩

theorem hostWrite_next {pa : Nat} {l : List Byte} (hex : memExists pa = true) (hlast : memExists (pa + l.length - 1) = true) :
    ∃ t, exec (.hostMemoryAccess pa (some l)) s = .next t :=
  ⟨_, if_neg (by simp [hex, hlast])⟩

end Next

/-! What the events that write leave of memory. -/

section Home
variable {s : State}

/-- R272: a merge of some words of a line. -/
theorem mergeWords_stored (data : MemLine) {line : Nat} (hl : line < 2 ^ 45) : ∀ (is : List Nat) (s : State), (∀ i ∈ is, i < 32) →
    Coherent s →
    let t := is.foldl (fun s i => s.homeWrite (128 * line + 4 * i) 4 fun a => byteOf data (a - 128 * line)) s
    Coherent t ∧ t = { s with mem := t.mem, crews := t.crews } ∧ ∀ a, a < 2 ^ 52 → t.mem.byteAt a =
      if a / 128 = line ∧ a % 128 / 4 ∈ is then byteOf data (a % 128) else s.mem.byteAt a
  | [], s, _, hc => ⟨hc, rfl, fun a _ => by simp⟩
  | i :: is, s, h32, hc => by
    have hi := h32 i List.mem_cons_self
    have hst := homeWrite_stored (pa := 128 * line + 4 * i) (n := 4) (fun a => byteOf data (a - 128 * line)) none (by omega) hc
    obtain ⟨h1, h2, h3⟩ := mergeWords_stored data hl is _ (fun j hj => h32 j (List.mem_cons_of_mem _ hj)) hst.coherent
    refine ⟨h1, onlyMemory_trans hst.only h2, fun a ha => (h3 a ha).trans ?_⟩
    rw [hst.bytes a ha]
    have hrange : (128 * line + 4 * i ≤ a ∧ a < 128 * line + 4 * i + 4) ↔ a / 128 = line ∧ a % 128 / 4 = i := by omega
    by_cases hhit : a / 128 = line ∧ a % 128 / 4 = i
    · rw [if_pos (c := 128 * line + 4 * i ≤ a ∧ _) (hrange.mpr hhit), show a - 128 * line = a % 128 by omega, ite_self,
        if_pos ⟨hhit.1, by simp [hhit.2]⟩]
    · rw [if_neg (c := 128 * line + 4 * i ≤ a ∧ _) (hhit ∘ hrange.mp)]
      refine if_congr (and_congr_right fun hline => ?_) rfl rfl
      simp only [List.mem_cons, show a % 128 / 4 ≠ i from fun h => hhit ⟨hline, h⟩, false_or]

/-- R272: a write merge. -/
theorem writeMerge_stores {line : Nat} (mask : W32) (data : MemLine) (hc : Coherent s) (hex : memExists (128 * line) = true)
    (hl : line < 2 ^ 45) :
    ∃ t, exec (.writeMerge line mask data) s = .next t ∧ Coherent t ∧ t = { s with mem := t.mem, crews := t.crews } ∧
      ∀ a, a < 2 ^ 52 → t.mem.byteAt a = if a / 128 = line ∧ mask.getLsbD (a % 128 / 4) = true then byteOf data (a % 128)
        else s.mem.byteAt a := by
  refine ⟨_, onLine_next hex (by decide) _, ?_⟩
  split
  · rename_i hmask
    subst hmask
    have hst := homeWrite_stored (pa := 128 * line) (n := 128) (fun a => byteOf data (a - 128 * line)) none (by omega) hc
    refine ⟨hst.coherent, hst.only, fun a ha => (hst.bytes a ha).trans ?_⟩
    by_cases hline : a / 128 = line
    · have hbit : (0xFFFFFFFF : W32).getLsbD (a % 128 / 4) = true := by
        have key : ∀ i : Fin 32, (0xFFFFFFFF : W32).getLsbD i.val = true := by decide
        exact key ⟨a % 128 / 4, by omega⟩
      rw [if_pos (by omega), if_pos ⟨hline, hbit⟩, show a - 128 * line = a % 128 by omega]
    · rw [if_neg (by omega), if_neg (by simp [hline])]
  · have hrec := recall_recalled hl (hc line hl)
    obtain ⟨h1, h2, h3⟩ := mergeWords_stored data hl ((List.range 32).filter fun i => mask.getLsbD i) (s.recall line)
      (fun i hi => List.mem_range.mp (List.mem_filter.mp hi).1) (hrec.coherent hc)
    refine ⟨h1, onlyMemory_trans (by rw [hrec.only]; rfl) h2, fun a ha => (h3 a ha).trans ?_⟩
    have hword : a % 128 / 4 < 32 := by omega
    simp only [List.mem_filter, List.mem_range, hword, true_and, hrec.byteAt a ha]

/-- R6: an element of a line that is aligned lies in the line. -/
theorem aligned_inLine {ty : Ty} {pa : Nat} (h : pa % (ty.width / 8) = 0) : pa % 128 + ty.width / 8 ≤ 128 := by
  cases ty <;> simp only [Ty.width, Nat.reduceDiv, Nat.mod_zero] at h ⊢ <;> omega

/-- R211, R272: an atomic at home. -/
theorem homeAtomic_stores {pa : Nat} (op : Option AtOp) {ty : Ty} (v : W64) (hc : Coherent s)
    (hex : memExists (128 * (pa / 128)) = true) (hpa : pa < 2 ^ 52) (hal : pa % (ty.width / 8) = 0) (hp : s.poisoned (pa / 128) = false) :
    ∃ t, exec (.homeAtomic pa op ty v) s = .next t ∧ ∀ a, a < 2 ^ 52 → t.mem.byteAt a =
      atomicBytes pa (ty.width / 8) s.mem.byteAt
        (op.map fun o => atomNew o ty (s.getNat pa (ty.width / 8)) (v.toNat % 2 ^ ty.width)) a := by
  have hin := aligned_inLine hal
  obtain ⟨hold, -, -, hbytes⟩ := atomicAt_stored (fun old => op.map fun o => atomNew o ty old (v.toNat % 2 ^ ty.width)) hc hin
    (by omega) hpa
  have hnat : s.getNat pa (ty.width / 8) = leNat ((List.range (ty.width / 8)).map fun i => s.mem.byteAt (pa + i)) := by
    refine congrArg leNat (List.map_congr_left fun i hi => readAt_coherent hc ?_)
    have := List.mem_range.mp hi
    omega
  refine ⟨_, (if_neg (not_not.mpr hal)).trans ((if_neg (by simp [hp])).trans (onLine_next hex (by decide) _)), fun a ha => ?_⟩
  rw [hbytes a ha, hold, ← hnat]

/-- R275: recovery of an entry that cannot be read. -/
theorem recoverLine_unreadable {line : Nat} (h : line ∈ s.mem.dirBad) : line ∉ (s.recoverLine line).mem.dirBad ∧
    ∃ r, (s.recoverLine line).detached = s.detached ++ [r] ∧ r.report.causes = 1#64 <<< 22 := by
  unfold State.recoverLine
  rw [if_pos (by simpa using h)]
  exact ⟨fun hm => by simpa using (List.mem_filter.mp hm).2, _, rfl, rfl⟩

/-- R467: a host read. -/
theorem hostRead_quiet {pa : Nat} (hc : Coherent s) (hex : memExists pa = true) (hpa : pa < 2 ^ 52)
    (hprobe : s.probeOk (pa / 128) 0 = true) (hp : s.poisoned (pa / 128) = false) :
    ∃ t, exec (.hostMemoryAccess pa none) s = .next t ∧ Coherent t ∧ Quiet s t := by
  have hr := doGetS_request (l := pa / 128) (d := 0) (by omega) (by decide) hprobe (hc _ (by omega))
  have hpoison : (s.doGetS 0 (pa / 128)).poisoned (pa / 128) = false := by
    rw [State.poisoned, (doGetS_dirOnly s 0 (pa / 128)).poison]
    exact hp
  refine ⟨s.doGetS 0 (pa / 128), ?_, hr.coherent hc, hr.quiet⟩
  change execHostMemoryAccess pa none s = _
  simp [execHostMemoryAccess, hex, hpoison]

/-- R367: where no launch has shadows, a host write is noted and no page is copied. -/
theorem foreignWrite_unshadowed {pa n : Nat} (h : ∀ x ∈ s.launches, x.2.shadows = []) :
    s.foreignWrite pa n = s.noteWrite none pa n := by
  have hnone : (s.launches.flatMap fun x =>
      (x.2.shadows.filter fun h => meets pa n h.frame h.size && !h.copied).map fun h => (x.1, h)) = [] :=
    List.flatMap_eq_nil_iff.mpr fun x hx => by rw [h x hx]; rfl
  unfold State.foreignWrite
  rw [hnone]
  rfl

/-- R467: a host write. -/
theorem hostWrite_stores {pa : Nat} {l : List Byte} (hc : Coherent s) (hex : memExists pa = true)
    (hlast : memExists (pa + l.length - 1) = true) (hb : pa + l.length ≤ 2 ^ 52) (hsh : ∀ x ∈ s.launches, x.2.shadows = []) :
    ∃ t, exec (.hostMemoryAccess pa (some l)) s = .next t ∧ Coherent t ∧
      ∀ a, a < 2 ^ 52 → t.mem.byteAt a = if pa ≤ a ∧ a < pa + l.length then l.getD (a - pa) 0 else s.mem.byteAt a := by
  have hc' : Coherent (s.noteWrite none pa l.length) := coherent_of_same (s := s) (fun _ _ => rfl) (fun _ => rfl)
    (fun _ _ => ⟨rfl, fun _ => rfl, fun _ _ => rfl, Iff.rfl⟩) hc
  have hst := homeWrite_stored (bytesFn pa l) none hb hc'
  refine ⟨(s.noteWrite none pa l.length).putBytes pa l, ?_, hst.coherent, hst.bytes⟩
  change execHostMemoryAccess pa (some l) s = _
  simp [execHostMemoryAccess, hex, hlast, foreignWrite_unshadowed hsh]

end Home

/-- Settles O51: each event keeps the value of every line but those that it writes. -/
theorem directoryEvents : Obligations.DirectoryEvents := by
  refine ⟨?_, ?_, ?_, ?_, ?_, fun die line s hc hl hd hp => invalidateWithWriteback_writes hl (hc line hl) hp,
    fun core line s => ⟨_, rfl, ⟨rfl, fun _ _ => rfl⟩, Table.get?_erase_same _ _⟩,
    fun line mask data s hc hex hl => writeMerge_stores mask data hc hex hl, ?_, ?_,
    fun pa s hc hex hpa hprobe hp => hostRead_quiet hc hex hpa hprobe hp,
    fun pa l s hc hex hlast hb hsh => hostWrite_stores hc hex hlast hb hsh, ?_⟩
  · intro die line s hex hd
    exact ⟨onLine_next hex hd _, onLine_next hex hd _⟩
  · intro die line core clus unit s i hi
    simp only [List.mem_cons, List.not_mem_nil, or_false] at hi
    rcases hi with rfl | rfl | rfl | rfl | rfl | rfl | rfl
    · exact putM_next die line s
    · exact forwardedRequest_next line s
    · exact invalidateWithWriteback_next die line s
    · exact ⟨_, rfl⟩
    · exact silentEviction_next die line s
    · exact ⟨_, rfl⟩
    · exact unitReclaim_next clus unit s
  · intro pa op ty v l mask data s
    refine ⟨fun hex i hi => ?_, fun hex => ⟨hostRead_next hex, fun hlast => hostWrite_next hex hlast⟩⟩
    simp only [List.mem_cons, List.not_mem_nil, or_false] at hi
    rcases hi with rfl | rfl
    · exact homeAtomic_next op ty v hex
    · exact ⟨_, onLine_next hex (by decide) _⟩
  · intro die line s hc hex hl hd hp
    have hr := doGetS_request hl hd hp (hc line hl)
    refine ⟨_, _, onLine_next hex hd _, hr.coherent hc, hr.quiet, onLine_next hex hd _, fun hh => ?_⟩
    have hm := doGetM_owned hl hd hh hp (hc line hl)
    exact ⟨hm.coherent hc, hm.quiet, _, hm.copy, rfl⟩
  · intro die line s hc hl hd i hi
    simp only [List.mem_cons, List.not_mem_nil, or_false] at hi
    rcases hi with rfl | rfl | rfl
    · exact putM_quiet hl (hc line hl)
    · exact forwardedRequest_quiet hl (hc line hl)
    · exact silentEviction_quiet hl
  · intro pa op ty v s hc hex hpa hal hp
    obtain ⟨t, e, ht⟩ := homeAtomic_stores op v hc hex hpa hal hp
    refine ⟨t, e, fun a ha => (ht a ha).trans ?_⟩
    cases op <;> rfl
  · intro line s
    refine ⟨fun h => congrArg Host.Outcome.next (if_neg (by simpa using h)), fun h => ?_⟩
    obtain ⟨hm, r, hr, hcause⟩ := recoverLine_unreadable h
    exact ⟨_, r, rfl, hm, hr, hcause⟩
  · intro clus unit s hu ht
    refine ⟨s.reclaim clus unit, if_neg (by simp [ht, hu]), fun _ => rfl, fun k => Cells.read_clear ..⟩

end Sys2Proof.Machine

/-! Lines whose copies are all known and all reached: what a window's write-back needs of memory. -/
namespace Sys2Proof.Machine

theorem probeOk_of_health {s t : State} (h : t.health = s.health) (l d : Nat) : t.probeOk l d = s.probeOk l d := by
  unfold State.probeOk State.partOf State.ranges State.exposes State.partHas State.partReg State.nclus
  rw [h]

/-- The entry of the line can be read; each copy's die stands in it, a probe reaches it, and its data is the line's value. -/
structure Known (s : State) (l : Nat) : Prop where
  readable : l ∉ s.mem.dirBad
  tracked : ∀ d c, s.mem.l2.get? (l2Key d l) = some c → s.probeOk l d = true ∧ ∃ e, s.mem.dir.get? l = some e ∧ d ∈ e.holders
  copies : ∀ d c, s.mem.l2.get? (l2Key d l) = some c → c.data = s.mem.lineVal l

/-- Every line is `Known`. It follows from coherence, and other words of windows do not disturb it. -/
def AllKnown (s : State) : Prop := ∀ l, l < 2 ^ 45 → Known s l

/-- No die holds a copy of the line. -/
def NoCopies (m : MemSys) (l : Nat) : Prop := ∀ d, m.l2.get? (l2Key d l) = none

theorem Coherent.allKnown {s : State} (h : Coherent s) : AllKnown s := fun l hl =>
  { readable := (h l hl).readable
    tracked := fun d c hc => by
      obtain ⟨e, he, hd⟩ := (h l hl).tracked d c hc
      exact ⟨(h l hl).delivered e d he hd, e, he, hd⟩
    copies := (h l hl).copies }

theorem NoCopies.dirtyAt {m : MemSys} {l : Nat} (h : NoCopies m l) (d : Nat) : m.dirtyAt l d = none :=
  dirtyAt_none fun c hc => by simp [h d] at hc

theorem NoCopies.ownerData {m : MemSys} {l : Nat} (h : NoCopies m l) : m.ownerData l = none := by
  rw [ownerData_eq, Option.bind_eq_none_iff]
  exact fun d _ => h.dirtyAt d

theorem Known.of_noCopies {s : State} {l : Nat} (hr : l ∉ s.mem.dirBad) (h : NoCopies s.mem l) : Known s l :=
  ⟨hr, fun d c hc => by simp [h d] at hc, fun d c hc => by simp [h d] at hc⟩

theorem Known.of_sameLine {s t : State} {l : Nat} (h : Known s l) (hh : t.health = s.health) (hs : SameLine s.mem t.mem l) : Known t l :=
  ⟨fun hb => h.readable (hs.bad.mp hb),
    fun d c hc => by
      obtain ⟨hp, e, he, hd⟩ := h.tracked d c ((hs.l2 d) ▸ hc)
      exact ⟨(probeOk_of_health hh l d).trans hp, e, hs.dir.trans he, hd⟩,
    fun d c hc => (h.copies d c ((hs.l2 d) ▸ hc)).trans hs.lineVal.symm⟩

theorem AllKnown.of_same {s t : State} (h : AllKnown s) (hh : t.health = s.health) (hs : ∀ l, l < 2 ^ 45 → SameLine s.mem t.mem l) :
    AllKnown t := fun l hl => (h l hl).of_sameLine hh (hs l hl)

/-- What an operation that recalls lines leaves. -/
structure Brought (s t : State) : Prop where
  known : AllKnown t
  health : t.health = s.health
  crews : t.crews = s.crews
  kept : ∀ l, l < 2 ^ 45 → NoCopies s.mem l → NoCopies t.mem l
  bytes : ∀ a, a < 2 ^ 52 → t.mem.byteAt a = s.mem.byteAt a

theorem Brought.refl {s : State} (h : AllKnown s) : Brought s s := ⟨h, rfl, rfl, fun _ _ h => h, fun _ _ => rfl⟩

theorem Brought.trans {s t u : State} (a : Brought s t) (b : Brought t u) : Brought s u :=
  ⟨b.known, b.health.trans a.health, b.crews.trans a.crews, fun l hl h => b.kept l hl (a.kept l hl h),
    fun x hx => (b.bytes x hx).trans (a.bytes x hx)⟩

/-- The probes of a request drop some, and reach the others. -/
theorem probe_only (s : State) (l : Nat) (ts : List Nat) :
    ∃ dt, s.probe l ts = ({ s with detached := dt }, ts.filter fun d => s.probeOk l d) := by
  have hfold : ∀ (ds : List Nat) (s : State), ∃ dt, ds.foldl (fun s d => s.probeDrop l d) s = { s with detached := dt } := by
    intro ds
    induction ds with
    | nil => exact fun s => ⟨s.detached, rfl⟩
    | cons d ds ih =>
      intro s
      obtain ⟨dt, hdt⟩ := ih (s.probeDrop l d)
      exact ⟨dt, hdt⟩
  obtain ⟨dt, hdt⟩ := hfold (ts.filter fun d => !s.probeOk l d) s
  exact ⟨dt, Prod.ext hdt rfl⟩

/-- R272: known copies that have gone home leave the home copy alone, with the line's value. -/
theorem recallFrom_known {s : State} {l : Nat} (hl : l < 2 ^ 45) (hk : Known s l) {dies : List Nat}
    (hall : ∀ d c, s.mem.l2.get? (l2Key d l) = some c → d ∈ dies) :
    NoCopies (s.mem.recallFrom l dies) l ∧ (s.mem.recallFrom l dies).ramLine l = s.mem.lineVal l := by
  obtain ⟨-, -, -, hl2, hram⟩ := recallFrom_spec l hl (s.mem.lineVal l) dies s.mem fun d c hc _ => hk.copies d c hc
  have hnone : NoCopies (s.mem.recallFrom l dies) l := fun d => by
    rw [hl2]
    split
    · rfl
    · rename_i hd
      cases hc : s.mem.l2.get? (l2Key d l) with
      | none => rfl
      | some c => exact absurd (hall d c hc) hd
  refine ⟨hnone, memLine_ext fun i hi => ?_⟩
  rw [byteOf_ramLine _ _ _ hi, hram i hi]
  split
  · rfl
  · rename_i hclean
    have hdata : s.mem.ownerData l = none := by
      rw [ownerData_eq, Option.bind_eq_none_iff]
      exact fun d _ => dirtyAt_none fun c hc hst => hclean ⟨d, hall d c hc, c, hc, hst⟩
    rw [MemSys.lineVal, hdata, Option.getD_none, byteOf_ramLine _ _ _ hi]

theorem recalled_brought {s : State} {l : Nat} (hl : l < 2 ^ 45) (h : AllKnown s) (dt : List Detached) (sh : BitVec 8) {dies : List Nat}
    (hall : ∀ d c, s.mem.l2.get? (l2Key d l) = some c → d ∈ dies) :
    let t := { s with detached := dt }.setMem (State.setEntry { s with detached := dt } (s.mem.recallFrom l dies) l none sh)
    Brought s t ∧ NoCopies t.mem l := by
  intro t
  obtain ⟨hnone, hval⟩ := recallFrom_known hl (h l hl) hall
  obtain ⟨-, hbad, hsame, -, -⟩ := recallFrom_spec l hl (s.mem.lineVal l) dies s.mem fun d c hc _ => (h l hl).copies d c hc
  have hothers : ∀ l', l' < 2 ^ 45 → l' ≠ l → SameLine s.mem t.mem l' := fun l' hl' hne =>
    (hsame l' hl' hne).trans (setEntry_sameLine _ _ _ _ _ _ hne)
  have hnone' : NoCopies t.mem l := hnone
  have hline : t.mem.lineVal l = s.mem.lineVal l := by
    rw [MemSys.lineVal, hnone'.ownerData]
    exact hval
  refine ⟨⟨fun l' hl' => ?_, rfl, rfl, fun l' hl' hn => ?_, fun a ha => byteAt_of_lineVal (fun l' hl' => ?_) ha⟩, hnone'⟩
  · by_cases hne : l' = l
    · subst hne
      exact .of_noCopies (hbad ▸ (h l' hl').readable) hnone'
    · exact (h l' hl').of_sameLine rfl (hothers l' hl' hne)
  · by_cases hne : l' = l
    · exact hne ▸ hnone'
    · exact fun d => ((hothers l' hl' hne).l2 d).trans (hn d)
  · by_cases hne : l' = l
    · rw [hne, hline]
    · exact (hothers l' hl' hne).lineVal

/-- R272: a recall of a known line brings its value home. -/
theorem recall_brought {s : State} {l : Nat} (hl : l < 2 ^ 45) (h : AllKnown s) : Brought s (s.recall l) ∧ NoCopies (s.recall l).mem l := by
  have hk := h l hl
  have hrecover : s.recoverLine l = s := by simp [State.recoverLine, hk.readable]
  unfold State.recall
  simp only [hrecover]
  cases he : s.mem.dir.get? l with
  | none =>
    refine ⟨.refl h, fun d => ?_⟩
    cases hc : s.mem.l2.get? (l2Key d l) with
    | none => rfl
    | some c =>
      obtain ⟨-, e, he', -⟩ := hk.tracked d c hc
      rw [he] at he'
      cases he'
  | some e =>
    obtain ⟨dt, hprobe⟩ := probe_only s l e.holders
    simp only [hprobe]
    exact recalled_brought hl h dt _ fun d c hc => by
      obtain ⟨hp, e', he', hd⟩ := hk.tracked d c hc
      rw [he] at he'
      cases he'
      exact List.mem_filter.mpr ⟨hd, hp⟩

/-- Several lines recalled, one after another. -/
theorem recalls_brought : ∀ (ls : List Nat) (s : State), (∀ l ∈ ls, l < 2 ^ 45) → AllKnown s →
    Brought s (ls.foldl (fun s l => s.recall l) s) ∧ ∀ l ∈ ls, NoCopies (ls.foldl (fun s l => s.recall l) s).mem l
  | [], s, _, h => ⟨.refl h, fun _ hl => by cases hl⟩
  | l :: ls, s, hls, h => by
    have hl := hls l List.mem_cons_self
    obtain ⟨hb, hn⟩ := recall_brought hl h
    obtain ⟨hb', hn'⟩ := recalls_brought ls (s.recall l) (fun x hx => hls x (List.mem_cons_of_mem _ hx)) hb.known
    refine ⟨hb.trans hb', fun x hx => ?_⟩
    rcases List.mem_cons.mp hx with rfl | hx
    · exact hb'.kept x hl hn
    · exact hn' x hx

/-- A write leaves every byte outside of a range, and known lines known. -/
structure Outside (s t : State) (p : Nat → Prop) : Prop where
  known : AllKnown t
  bytes : ∀ a, a < 2 ^ 52 → ¬ p a → t.mem.byteAt a = s.mem.byteAt a

/-- R267, R272: a write at home leaves the other bytes as they are. -/
theorem homeWrite_outside {s : State} {pa n : Nat} (f : Nat → Byte) (skip : Option (Nat × Nat)) (hb : pa + n ≤ 2 ^ 52)
    (h : AllKnown s) : Outside s (s.homeWrite pa n f skip) fun a => pa ≤ a ∧ a < pa + n := by
  have hlines : ∀ l ∈ linesOf pa n, l < 2 ^ 45 := fun l hl => by
    have := mem_linesOf.mp hl
    omega
  obtain ⟨hbr, hnone⟩ := recalls_brought (linesOf pa n) s hlines h
  unfold State.homeWrite
  generalize (linesOf pa n).foldl (fun s l => s.recall l) s = t at hbr hnone
  have hram : ∀ a, ¬ (pa ≤ a ∧ a < pa + n) → (t.mem.ram.update pa n f).read a = t.mem.ram.read a := fun a ha =>
    (Memory.read_update ..).trans (if_neg ha)
  have hsame : ∀ l, l ∉ linesOf pa n → SameLine t.mem (MemSys.cleanPoison { t.mem with ram := t.mem.ram.update pa n f } pa n) l :=
    fun l hl => ⟨rfl, fun _ => rfl, fun i hi => hram _ fun hin => hl (mem_linesOf.mpr ⟨by omega, by omega, by omega⟩), Iff.rfl⟩
  refine ⟨fun l hl => ?_, fun a ha hout => ?_⟩
  · by_cases hin : l ∈ linesOf pa n
    · exact .of_noCopies (hbr.known l hl).readable (hnone l hin)
    · exact (hbr.known l hl).of_sameLine rfl (hsame l hin)
  · rw [← hbr.bytes a ha]
    change (MemSys.cleanPoison { t.mem with ram := t.mem.ram.update pa n f } pa n).byteAt a = _
    by_cases hin : a / 128 ∈ linesOf pa n
    · have hdata : t.mem.ownerData (a / 128) = none := (hnone _ hin).ownerData
      have hdata' : (MemSys.cleanPoison { t.mem with ram := t.mem.ram.update pa n f } pa n).ownerData (a / 128) = none := hdata
      rw [MemSys.byteAt, MemSys.byteAt, hdata, hdata']
      exact hram a hout
    · rw [byteAt_eq, byteAt_eq, (hsame _ hin).lineVal]

end Sys2Proof.Machine

/-! The write-back of Dirty words. -/
namespace Sys2Proof.Machine

/-- The crew once a word is captured: the word is Clean, and its block's place is known. -/
def Crew.captured (key pa : Nat) (c : Crew) : Crew :=
  { c with
    words := c.words.write key 2
    phys := c.phys.write (2 ^ 13 * (key / 2 ^ 18) + key % 2 ^ 18 / 64) (BitVec.ofNat 52 (pa / 256 + 1)) }

/-- Where a word of a crew's windows stands in the cluster space. -/
def State.wordPlace (s : State) (ck key : Nat) : Nat :=
  (s.crew ck).base + (((s.launch (s.crew ck).launch).wins[key / 2 ^ 18]?).map (·.aoff)).getD 0 + 4 * (key % 2 ^ 18)

/-- R208: one word is captured and merged at home. -/
def State.wbMerge (ck : Nat) (s : State) (key pa : Nat) : State :=
  ((s.setCrew ck (Crew.captured key pa)).homeWrite pa 4 (bytesFn pa (s.getA (s.crew ck).clus (s.wordPlace ck key) 4))
    (some (ck, key / 2 ^ 18))).noteWrite (some (s.crew ck).launch) pa 4

/-- R208: one word is written back, and the cluster's L1s lose its line. -/
def State.wbWord (ck : Nat) (s : State) (key pa : Nat) : State :=
  (s.wbMerge ck key pa).setMem ((s.wbMerge ck key pa).mem.evictL1 (pa / 128) ((List.range 8).map (8 * (s.crew ck).clus + ·)))

theorem wbWrite_cons (ck : Nat) (s : State) (key pa : Nat) (rest : List (Nat × Nat)) :
    State.wbWrite ck s ((key, pa) :: rest) = State.wbWrite ck (s.wbWord ck key pa) rest := rfl

theorem wbWord_outside {s : State} (ck key : Nat) {pa : Nat} (h : AllKnown s) (hb : pa + 4 ≤ 2 ^ 52) :
    Outside s (s.wbWord ck key pa) fun a => pa ≤ a ∧ a < pa + 4 := by
  have hset : AllKnown (s.setCrew ck (Crew.captured key pa)) := h.of_same rfl fun l _ => SameLine.refl _ l
  have hw := homeWrite_outside (bytesFn pa (s.getA (s.crew ck).clus (s.wordPlace ck key) 4)) (some (ck, key / 2 ^ 18)) hb hset
  exact ⟨hw.known.of_same (t := s.wbWord ck key pa) rfl fun l _ => ⟨rfl, fun _ => rfl, fun _ _ => rfl, Iff.rfl⟩, hw.bytes⟩

/-- R208: a write-back of some words leaves the bytes at other addresses. -/
theorem wbWrite_outside (ck : Nat) : ∀ (ps : List (Nat × Nat)) (s : State), AllKnown s → (∀ x ∈ ps, x.2 + 4 ≤ 2 ^ 52) →
    Outside s (State.wbWrite ck s ps) fun a => ∃ x ∈ ps, x.2 ≤ a ∧ a < x.2 + 4
  | [], s, h, _ => ⟨h, fun _ _ _ => rfl⟩
  | (key, pa) :: rest, s, h, hb => by
    rw [wbWrite_cons]
    have hone := wbWord_outside ck key h (hb _ List.mem_cons_self)
    have hrest := wbWrite_outside ck rest _ hone.known fun x hx => hb x (List.mem_cons_of_mem _ hx)
    exact ⟨hrest.known, fun a ha hout => (hrest.bytes a ha fun ⟨x, hx, hin⟩ => hout ⟨x, List.mem_cons_of_mem _ hx, hin⟩).trans
      (hone.bytes a ha fun hin => hout ⟨_, List.mem_cons_self, hin⟩)⟩

/-- R208: the check of one Dirty word: the pieces of the access that would write it. -/
def State.wbWordCheck (core ck : Nat) (s : State) (key : Nat) : State × LaneCheck :=
  s.checkGlobal core (s.launch (s.crew ck).launch) .write
    ((s.crew ck).winVa (s.launch (s.crew ck).launch) (key / 2 ^ 18) (4 * (key % 2 ^ 18))) 4

theorem wbCheck_cons (core ck : Nat) (s : State) (key : Nat) (keys : List Nat) :
    State.wbCheck core ck s (key :: keys) =
      if s.badWord (s.crew ck).clus (s.wordPlace ck key / 4) then (s, .error (.bad cMEMECC (s.wordPlace ck key)))
      else match s.wbWordCheck core ck key with
        | (s1, .ok (p :: _)) =>
          match State.wbCheck core ck s1 keys with
          | (s2, .ok r) => (s2, .ok ((key, p.pa) :: r))
          | r => r
        | (s1, .bad c) => (s1, .error (.bad c ((s.crew ck).winVa (s.launch (s.crew ck).launch) (key / 2 ^ 18)
            (4 * (key % 2 ^ 18) / 256 * 256))))
        | (s1, .absent) => (s1, .error .absent)
        | (s1, _) => (s1, .error .wait) := rfl

/-- R208: checks of Dirty words that all pass change cached translations alone. -/
theorem wbCheck_ok (core ck : Nat) : ∀ (keys : List Nat) {s s1 : State} {ps : List (Nat × Nat)},
    State.wbCheck core ck s keys = (s1, .ok ps) → TlbOnly s s1
  | [], s, s1, ps, e => by
    cases e
    exact .refl s
  | key :: keys, s, s1, ps, e => by
    rw [wbCheck_cons] at e
    by_cases hbad : s.badWord (s.crew ck).clus (s.wordPlace ck key / 4) = true
    · rw [if_pos hbad] at e
      cases e
    · rw [if_neg hbad] at e
      cases hcheck : s.wbWordCheck core ck key with
      | mk s2 r =>
        rw [hcheck] at e
        cases r with
        | ok qs =>
          cases qs with
          | nil => cases e
          | cons p qs =>
            dsimp only at e
            cases hrest : State.wbCheck core ck s2 keys with
            | mk s3 r =>
              rw [hrest] at e
              cases r with
              | ok rs =>
                cases e
                exact (checkGlobal_ok hcheck).trans (wbCheck_ok core ck keys hrest)
              | error x => cases e
        | _ => cases e

end Sys2Proof.Machine

/-! A crew changed in what is not its windows' words leaves memory coherent. -/
namespace Sys2Proof.Machine

theorem Table.mem_of_get? {α : Type} : ∀ {t : Table α} {k : Nat} {x : α}, t.get? k = some x → (k, x) ∈ t
  | (j, v) :: t, k, x, e => by
    rw [Table.get?] at e
    split at e
    · rename_i h
      cases e
      exact h ▸ List.mem_cons_self
    · exact List.mem_cons_of_mem _ (mem_of_get? e)

theorem Table.mem_put {α : Type} : ∀ {t : Table α} {k : Nat} {v : α} {x : Nat × α}, x ∈ t.put k v → x = (k, v) ∨ x ∈ t
  | [], k, v, x, h => .inl (List.mem_singleton.mp h)
  | (j, w) :: t, k, v, x, h => by
    rw [Table.put] at h
    split at h
    · rcases List.mem_cons.mp h with h | h
      · exact .inl h
      · exact .inr (List.mem_cons_of_mem _ h)
    · split at h
      · rcases List.mem_cons.mp h with h | h
        · exact .inl h
        · exact .inr h
      · rcases List.mem_cons.mp h with h | h
        · exact .inr (h ▸ List.mem_cons_self)
        · exact (mem_put h).imp_right (List.mem_cons_of_mem _)

theorem Table.mem_modify {α : Type} {t : Table α} {k : Nat} {f : α → α} {x : Nat × α} (h : x ∈ t.modify k f) :
    x ∈ t ∨ ∃ y, (k, y) ∈ t ∧ x = (k, f y) := by
  unfold Table.modify at h
  split at h
  · rename_i y hy
    rcases Table.mem_put h with h | h
    · exact .inr ⟨y, Table.mem_of_get? hy, h⟩
    · exact .inl h
  · exact .inl h

/-- R267, R271: a crew resident on a die that is not the line's home holds valid words of the line; Dirty ones alone if asked. -/
def Crew.holdsLine (c : Crew) (line : Nat) (dirty : Bool) : Bool :=
  c.space.isNone && c.clus / 64 != homeOf line &&
    (c.words.any fun y => (y.2 == 3 || (y.2 == 2 && !dirty)) && c.wordIn (128 * line) 128 y.1)

theorem winDies_bit (s : State) (l d : Nat) (dirty : Bool) : (s.winDies l dirty).getLsbD d = true ↔
    ∃ x ∈ s.crews, x.2.holdsLine l dirty = true ∧ ((1#8) <<< (x.2.clus / 64)).getLsbD d = true := by
  have hfold : ∀ (xs : List (Nat × Crew)) (m : BitVec 8),
      (xs.foldl (fun m x => if x.2.holdsLine l dirty then m ||| ((1#8) <<< (x.2.clus / 64)) else m) m).getLsbD d = true ↔
        m.getLsbD d = true ∨ ∃ x ∈ xs, x.2.holdsLine l dirty = true ∧ ((1#8) <<< (x.2.clus / 64)).getLsbD d = true := by
    intro xs
    induction xs with
    | nil => simp
    | cons x xs ih =>
      intro m
      rw [List.foldl_cons, ih]
      by_cases hx : x.2.holdsLine l dirty = true
      · simp only [hx, if_true, BitVec.getLsbD_or, Bool.or_eq_true, List.mem_cons, exists_eq_or_imp, true_and, or_assoc]
      · simp only [hx, if_false, List.mem_cons, exists_eq_or_imp, false_and, false_or, Bool.false_eq_true]
  refine (hfold s.crews 0).trans ?_
  simp

/-- A crew whose place, words and blocks stay names no new die for a line. -/
theorem coherent_setCrew {s : State} (ck : Nat) {f : Crew → Crew}
    (hf : ∀ c l, (f c).holdsLine l false = c.holdsLine l false ∧ (f c).clus = c.clus) (h : Coherent s) : Coherent (s.setCrew ck f) := by
  intro l hl
  have hk := h l hl
  refine ⟨hk.readable, hk.owner, hk.delivered, fun d hd => hk.reached d ?_, hk.tracked, hk.owned, hk.single, hk.copies⟩
  rw [winDies_bit] at hd ⊢
  obtain ⟨x, hx, hholds, hbit⟩ := hd
  rcases Table.mem_modify hx with hx | ⟨y, hy, rfl⟩
  · exact ⟨x, hx, hholds, hbit⟩
  · exact ⟨(ck, y), hy, (hf y l).1 ▸ hholds, (hf y l).2 ▸ hbit⟩

end Sys2Proof.Machine

/-! Window instructions, and a block that is installed. -/
namespace Sys2Proof.Machine

section Windows
variable {k : BitVec 3} {s : State} {h : Here} (c : Clear s h [])
include c

/-- R206: a window instruction on a window that the launch did not declare. -/
theorem Clear.onWindow_trap {i : Instr} {f : Here → Except Abort State} (e : exec i s = onWindow k s f)
    (hdecl : s.declared h.w.crew k.toNat = false) (hw : h.w.mustWait s h.key = false) :
    exec i s = .next (s.adjourn h.key h.side (h.report cPROT)) :=
  e.trans (c.onWave_trap Guard.none {} _ (by simp) (.inl rfl) hw (if_neg (by simp [hdecl])))

theorem Clear.onWindow_next {i : Instr} {f : Here → Except Abort State} {t : State} (e : exec i s = onWindow k s f)
    (hdecl : s.declared h.w.crew k.toNat = true) (hk : f h = .ok t) : exec i s = .next t :=
  e.trans (c.onWave_ok Guard.none {} _ (by simp) (.inl rfl) ((if_pos hdecl).trans hk))

end Windows

section Install
variable {s : State}

/-- R264: the lines of a block as a die obtains them. -/
def State.blockLines (s : State) (die pa : Nat) : State :=
  if homeOf (pa / 128) == die then s else
    [pa / 128, pa / 128 + 1].foldl (fun s l => match s.mem.l2.get? (l2Key die l) with | some _ => s | none => s.doGetS die l) s

theorem foldl_putA_mem (clus n : Nat) (a : Nat → Nat) (f : Nat → Byte) : ∀ (is : List Nat) (t : State),
    (is.foldl (fun t i => t.putA clus (a i) n f) t).mem = t.mem
  | [], _ => rfl
  | _ :: is, _ => foldl_putA_mem clus n a f is _

/-- R264: beside the block's lines an installation changes L1s, the cluster store and the crew. -/
theorem installBlock_mem (s : State) (ck k blk pa : Nat) : (s.installBlock ck k blk pa).mem =
    [pa / 128, pa / 128 + 1].foldl (fun m l => m.evictL1 l ((List.range 8).map (8 * (s.crew ck).clus + ·)))
      (s.blockLines ((s.crew ck).clus / 64) pa).mem := by
  unfold State.installBlock
  dsimp only
  rw [State.setCrew_mem, foldl_putA_mem]
  rfl

theorem installBlock_byteAt (s : State) (ck k blk pa a : Nat) :
    (s.installBlock ck k blk pa).mem.byteAt a = (s.blockLines ((s.crew ck).clus / 64) pa).mem.byteAt a := by
  obtain ⟨x, hx⟩ := evictL1_fold ((List.range 8).map (8 * (s.crew ck).clus + ·)) [pa / 128, pa / 128 + 1]
    (s.blockLines ((s.crew ck).clus / 64) pa).mem
  rw [installBlock_mem, hx]
  rfl

/-- R268, R272: a line that a die has or obtains. -/
theorem obtain_quiet {die l : Nat} (hl : l < 2 ^ 45) (hd : die < 8) (hp : s.probeOk l die = true) (hc : Coherent s) :
    let t := match s.mem.l2.get? (l2Key die l) with | some _ => s | none => s.doGetS die l
    Coherent t ∧ Quiet s t := by
  intro t
  unfold t
  split
  · exact ⟨hc, .refl s⟩
  · exact (doGetS_request hl hd hp (hc l hl)).mono hc

theorem blockLines_quiet {die pa : Nat} (hd : die < 8) (hb : pa + 256 ≤ 2 ^ 52) (hal : pa % 128 = 0)
    (hp : ∀ l ∈ linesOf pa 256, s.probeOk l die = true) (hc : Coherent s) : Quiet s (s.blockLines die pa) := by
  unfold State.blockLines
  split
  · exact .refl s
  · obtain ⟨hc1, hq1⟩ := obtain_quiet (l := pa / 128) (by omega) hd (hp _ (mem_linesOf.mpr ⟨by omega, by omega, by omega⟩)) hc
    obtain ⟨-, hq2⟩ := obtain_quiet (l := pa / 128 + 1) (by omega) hd
      ((hq1.probeOk _ _).trans (hp _ (mem_linesOf.mpr ⟨by omega, by omega, by omega⟩))) hc1
    exact hq1.trans hq2

/-- R264: a block asked for, of an open window of a resident crew, that can be read. -/
theorem windowFill_installs {s2 : State} {ck k blk pa : Nat} (hfill : (s.crew ck).fills.contains (k, blk) = true)
    (hopen : (s.crew ck).opened.getLsbD k = true) (hspace : (s.crew ck).space = none)
    (hwalk : (s.setCrew ck fun c => { c with fills := c.fills.filter (· != (k, blk)) }).translate (dieUnit ((s.crew ck).clus / 64))
      (s.launch (s.crew ck).launch).ctx ((s.crew ck).winVa (s.launch (s.crew ck).launch) k (256 * blk)) .read = (s2, .ok pa))
    (h0 : s2.poisoned (pa / 128) = false) (h1 : s2.poisoned (pa / 128 + 1) = false) :
    exec (.windowFill ck k blk) s = .next (s2.installBlock ck k blk pa) := by
  change execWindowFill ck k blk s = _
  unfold execWindowFill
  simp only [hfill, hopen, hspace, hwalk, h0, h1, if_true, Bool.not_true, Option.isSome_none, Bool.or_self, Bool.false_eq_true, if_false]

end Install

theorem crew_setCrew_clus (s : State) (ck : Nat) {f : Crew → Crew} (hf : ∀ c, (f c).clus = c.clus) :
    ((s.setCrew ck f).crew ck).clus = (s.crew ck).clus := by
  unfold State.crew State.setCrew
  rw [Table.get?_modify_same]
  cases s.crews.get? ck with
  | none => rfl
  | some c => exact hf c

/-- R208: a write-back that succeeds writes the words that its checks have translated. -/
theorem writeBack_eq {s s1 s2 : State} {core ck : Nat} {ks : List Nat} {ps : List (Nat × Nat)}
    (hcheck : State.wbCheck core ck s ((s.crew ck).dirty ks) = (s2, .ok ps)) (hwb : s.writeBack core ck ks = (s1, .ok ())) :
    s1 = State.wbWrite ck s2 ps := by
  unfold State.writeBack at hwb
  rw [hcheck] at hwb
  exact (congrArg Prod.fst hwb).symm

/-- Settles O30: each instruction is its effect on the crew's windows; memory changes where Dirty words are merged, and at no byte when
a block is read. -/
theorem windowInstructions : Obligations.WindowInstructions := by
  refine ⟨fun k s h c => ?_, ?_⟩
  · intro cr
    refine ⟨fun hdecl hw i hi => ?_, fun hdecl => ⟨fun hopen => ?_, fun hopen => ?_⟩, ?_⟩
    · simp only [List.mem_cons, List.not_mem_nil, or_false] at hi
      rcases hi with rfl | rfl | rfl | rfl <;> exact c.onWindow_trap (f := _) rfl hdecl hw
    · refine ⟨c.onWindow_next (f := _) rfl hdecl (if_pos hopen), c.onWindow_next (f := _) rfl hdecl (if_pos hopen), fun s1 hwb => ?_⟩
      exact ⟨c.onWindow_next (f := _) rfl hdecl ((if_pos hopen).trans (bind_of_ok hwb _)),
        c.onWindow_next (f := _) rfl hdecl ((if_pos hopen).trans (bind_of_ok hwb _))⟩
    · refine ⟨c.onWindow_next (f := _) rfl hdecl (if_neg (by simp [cr, hopen])), fun i hi => ?_⟩
      simp only [List.mem_cons, List.not_mem_nil, or_false] at hi
      rcases hi with rfl | rfl | rfl <;> exact c.onWindow_next (f := _) rfl hdecl (if_neg (by simp [cr, hopen]))
    · intro s1 s2 ks ps hc hcheck hb hwb a ha hout
      have htlb := wbCheck_ok h.w.core h.w.crew _ hcheck
      rw [writeBack_eq hcheck hwb]
      exact ((wbWrite_outside h.w.crew ps s2 (htlb.coherent hc).allKnown hb).bytes a ha fun ⟨x, hx, hin⟩ => hout x hx hin).trans
        (htlb.byteAt a)
  · intro s s2 ck k blk pa cr s1 hfill hopen hspace hwalk h0 h1
    refine ⟨windowFill_installs hfill hopen hspace hwalk h0 h1, fun hc hclus hb hp hal a ha => ?_⟩
    have htlb := translate_ok hwalk
    have hc1 : Coherent s1 := coherent_setCrew ck (fun _ _ => ⟨rfl, rfl⟩) hc
    have hplace : (s2.crew ck).clus = cr.clus := by
      obtain ⟨tlb, rfl⟩ := htlb
      exact crew_setCrew_clus s ck fun _ => rfl
    rw [installBlock_byteAt, hplace]
    have hq := blockLines_quiet (die := cr.clus / 64) (by omega) hb hal (fun l hl => (htlb.probeOk l _).trans (hp l hl)) (htlb.coherent hc1)
    exact (hq.2 a ha).trans (htlb.byteAt a)

end Sys2Proof.Machine

/-! The frame of a sequencer's instruction, and the checks that it passes (R257, R279, R282, R283). -/
namespace Sys2Proof.Machine

section Stream
variable {s : State} {h : SeqHere} {i : Instr} {k : SeqHere → Except Abort State}

theorem exec_seq_next (e : s.seqHere = some h) (hx : exec i s = onSeq s k) {t : State} (hk : k h = .ok t) :
    exec i s = .next t := by
  rw [hx, onSeq_of_seqHere e, hk]
  rfl

/-- A hazard is a turn that changes nothing but `t` (log 19). -/
theorem exec_seq_hold (e : s.seqHere = some h) (hx : exec i s = onSeq s k) {t : State} (hk : k h = .error (.hold t)) :
    exec i s = .next t := by
  rw [hx, onSeq_of_seqHere e, hk]
  rfl

/-- R283: a cause adjourns the tile task once nothing issued before it is pending. -/
theorem exec_seq_trap (e : s.seqHere = some h) (hx : exec i s = onSeq s k) (ho : h.i.ops = []) {r : Report} {t : State}
    (hk : k h = .error (.trap r t)) : exec i s = .next (t.adjournInst h.key r) := by
  rw [hx, onSeq_of_seqHere e, hk]
  simp only [SeqHere.finish, ho, if_true]

theorem SeqHere.inRun_of_has {off n : Nat} (hr : (s.instCrew h.i).runHas off n = true) (x : Except Abort State) :
    h.inRun s off n x = x := if_pos hr

theorem SeqHere.alone_of_idle (ho : h.i.ops = []) (x : Except Abort State) : h.alone s x = x := if_pos ho

theorem SeqHere.owned_of_own {s1 : State} (ho : s.own h.i.core (s.instLaunch h.i).ctx = some s1)
    (f : State → Except Abort State) : h.owned s f = f s1 := by rw [SeqHere.owned, ho]

/-- R280: with a permit free, an operation joins the queue. -/
theorem SeqHere.push_of_permit (hl : h.i.ops.length < Config.matrixPermits) (op : Instr) (a b c : BitVec 4) (bank : Nat) :
    h.push s op a b c bank = .ok (h.issued s op a b c bank) := if_neg (Nat.not_le.mpr hl)

end Stream

/-! The issue of matrix operations (R293 to R301). -/

section Issue
variable {s s1 : State} {h : SeqHere} (e : s.seqHere = some h) (hl : h.i.ops.length < Config.matrixPermits)
include e hl

/-- R280: an operation whose checks end in a push issues. -/
theorem exec_issues {i op : Instr} {k : SeqHere → Except Abort State} (hx : exec i s = onSeq s k) {t : State}
    {a b c : BitVec 4} {bank : Nat} (hk : k h = h.push t op a b c bank) :
    exec i s = .next (h.issued t op a b c bank) :=
  exec_seq_next e hx (hk.trans (SeqHere.push_of_permit hl op a b c bank))

theorem exec_mma_issues {o : Mma} (hsr : h.i.seqSr = false)
    (ha : (s.instCrew h.i).runHas (h.i.eff o.xa) (rowsExtent o.rs (rowBytes o.fmt o.k.toNat)) = true)
    (hb : h.i.eff o.xb + extentB o.fmt o.sp o.k.toNat ≤ 2 ^ 18) (ho : s.own h.i.core (s.instLaunch h.i).ctx = some s1) :
    exec (.mma o) s = .next (h.issued s1 (.mma o) o.xa o.xb 0) := by
  refine exec_issues e hl (k := _) rfl ?_
  rw [hsr, SeqHere.inRun_of_has ha, if_neg (Nat.not_lt.mpr hb), SeqHere.owned_of_own ho]
  rfl

theorem exec_mmag_issues {o : Mma} (hsr : h.i.seqSr = false) (hi : h.i.ops = [])
    (ho : s.own h.i.core (s.instLaunch h.i).ctx = some s1) :
    exec (.mmag o) s = .next (h.issued s1 (.mmag o) o.xa o.xb 0) := by
  refine exec_issues e hl (k := _) rfl ?_
  rw [SeqHere.alone_of_idle hi, hsr, SeqHere.owned_of_own ho]
  rfl

/-- R297: a drain's rows lie in the run, and with an activation its parameters too. -/
theorem exec_mdrain_issues {o : Drain} (hi : h.i.ops = []) (hact : o.act = false)
    (ha : (s.instCrew h.i).runHas (h.i.eff o.xa) (rowsExtent o.rs (8 * o.ty.width)) = true) :
    exec (.mdrain o) s = .next (h.issued s (.mdrain o) o.xa 0 0) := by
  refine exec_issues e hl (k := _) rfl ?_
  rw [SeqHere.alone_of_idle hi, SeqHere.inRun_of_has ha, hact]
  rfl

theorem exec_mdrain_act_issues {o : Drain} (hi : h.i.ops = []) (hact : o.act = true)
    (ha : (s.instCrew h.i).runHas (h.i.eff o.xa) (rowsExtent o.rs (8 * o.ty.width)) = true)
    (hc : (s.instCrew h.i).runHas (h.i.eff o.xc) 8 = true) (ho : s.own h.i.core (s.instLaunch h.i).ctx = some s1)
    (hf : s1.flipping h.i.core = false) :
    exec (.mdrain o) s = .next (h.issued s1 (.mdrain o) o.xa 0 o.xc (s1.bankOf h.i.core)) := by
  refine exec_issues e hl (k := _) rfl ?_
  rw [SeqHere.alone_of_idle hi, SeqHere.inRun_of_has ha, hact, if_pos rfl, SeqHere.inRun_of_has hc, SeqHere.owned_of_own ho, hf]
  rfl

end Issue

/-- Settles O34: each check of an operation passes, and its push finds a permit. -/
theorem matrixOperationsIssue : Obligations.MatrixOperationsIssue := by
  unfold Obligations.MatrixOperationsIssue
  intro s h e hl
  refine ⟨fun o s1 => exec_mma_issues e hl, fun o s1 => exec_mmag_issues e hl, fun d => ?mzero, fun ty d xa rs ha => ?mload,
    fun o hi ha => ⟨fun hact => exec_mdrain_issues e hl hi hact ha, fun s1 hact hc => exec_mdrain_act_issues e hl hi hact ha hc⟩,
    fun ty rnd sat d q hi => ?mdrainx, fun ty d xa hsr ha => ?mrsc, fun d xa xb rs ha hb => ?maffl, fun d c hsr => ?mscan,
    fun d xa ha => ⟨?load, fun hi => ?store⟩, fun d => ?reset⟩
  case mzero => exact exec_issues e hl (k := _) rfl rfl
  case mload => exact exec_issues e hl (k := _) rfl (SeqHere.inRun_of_has ha _)
  case mdrainx => exact exec_issues e hl (k := _) rfl (SeqHere.alone_of_idle hi _)
  case mrsc => exact exec_issues e hl (k := _) rfl ((if_neg (by simp [hsr])).trans (SeqHere.inRun_of_has ha _))
  case maffl => exact exec_issues e hl (k := _) rfl ((SeqHere.inRun_of_has ha _).trans (SeqHere.inRun_of_has hb _))
  case mscan => exact exec_issues e hl (k := _) rfl (if_neg (by simp [hsr]))
  case load => exact exec_issues e hl (k := _) rfl (SeqHere.inRun_of_has ha _)
  case store => exact exec_issues e hl (k := _) rfl ((SeqHere.alone_of_idle hi _).trans (SeqHere.inRun_of_has ha _))
  case reset => exact exec_issues e hl (k := _) rfl rfl

end Sys2Proof.Machine

/-! Drains, affine operands and carries: what the operations leave (R297, R299 to R301). -/
namespace Sys2Proof.Machine

theorem leAt_lt (rd : Nat → Byte) (a n : Nat) : leAt rd a n < 256 ^ n := by
  simpa [leAt] using leNat_lt ((List.range n).map fun i => rd (a + i))

theorem leAt_word (rd : Nat → Byte) (a : Nat) : leAt rd a 4 % 2 ^ 32 = leAt rd a 4 := Nat.mod_eq_of_lt (leAt_lt rd a 4)

/-- A fold of steps that leave memory alone leaves it alone. -/
theorem foldl_mem {α : Type} {f : State → α → State} (hf : ∀ s x, (f s x).mem = s.mem) (l : List α) (s : State) :
    (l.foldl f s).mem = s.mem :=
  List.foldlRecOn (motive := fun t : State => t.mem = s.mem) l f rfl fun t ht x _ => (hf t x).trans ht

@[simp] theorem State.storeLocal_mem (s : State) (ck a n : Nat) (f : Nat → Byte) : (s.storeLocal ck a n f).mem = s.mem := rfl

@[simp] theorem State.storeRows_mem (s : State) (ck a rs : Nat) (rows : List (List Byte)) :
    (s.storeRows ck a rs rows).mem = s.mem := by
  unfold State.storeRows
  exact foldl_mem (fun t r => State.storeLocal_mem t ck _ _ _) _ s

@[simp] theorem State.keepBytes_mem (s s0 : State) (c : Crew) (offs : List Nat) : (s.keepBytes s0 c offs).mem = s.mem := by
  unfold State.keepBytes
  exact foldl_mem (fun t o => State.putA_mem t c.clus _ _ _) offs s

theorem Inst.carryAt_congr {i i1 : Inst} (e : i1.carry = i.carry) (c j : Nat) : i1.carryAt c j = i.carryAt c j := by
  simp only [Inst.carryAt, e]

/-- R301: the carry of a column after the carries of a register were written. -/
theorem Inst.carryAt_putCarry (i : Inst) (c : Nat) (l : List Affine) {j : Nat} (hj : j < 64) :
    (i.putCarry c l).carryAt c j = ((l.getD j (0, 0)).1 % 2 ^ 32, (l.getD j (0, 0)).2 % 2 ^ 32) := by
  have hgain : 128 * c ≤ 128 * c + 2 * j ∧ 128 * c + 2 * j < 128 * c + 128 := by omega
  have hoff : 128 * c ≤ 128 * c + 2 * j + 1 ∧ 128 * c + 2 * j + 1 < 128 * c + 128 := by omega
  have hcol : (128 * c + 2 * j - 128 * c) / 2 = j ∧ (128 * c + 2 * j + 1 - 128 * c) / 2 = j := by omega
  have heven : (128 * c + 2 * j) % 2 = 0 := by omega
  have hodd : ¬ (128 * c + 2 * j + 1) % 2 = 0 := by omega
  simp only [Inst.carryAt, Inst.putCarry, Cells.read_update, if_pos hgain, if_pos hoff, hcol, if_pos heven, if_neg hodd,
    BitVec.xor_assoc, BitVec.xor_self, BitVec.xor_zero, BitVec.toNat_ofNat]

/-- What an operation that writes every gain and offset of a pair of accumulators leaves. -/
structure PairWritten (i i1 : Inst) (d : Nat) (g b : Nat → Nat) : Prop where
  others : OtherAcc i i1 true d
  gains : ∀ e, e < 4096 → i1.accAt false d e = g e % 2 ^ 32
  offsets : ∀ e, e < 4096 → i1.accAt false (d + 1) e = b e % 2 ^ 32

theorem pairWritten_of_acc {i i1 : Inst} {d : Nat} {g b : Nat → Nat}
    (ha : i1.acc = ((i.putAcc false d 0 ((List.range 4096).map g)).putAcc false (d + 1) 0 ((List.range 4096).map b)).acc) :
    PairWritten i i1 d g b where
  others k hk := by
    simp only [if_true] at hk
    rw [ha, otherAcc_putAcc _ false (d + 1) (by simp) k (by simp only [Bool.false_eq_true, if_false]; omega),
      otherAcc_putAcc i false d (by simp) k (by simp only [Bool.false_eq_true, if_false]; omega)]
  gains e he := by
    have hkept := otherAcc_putAcc (i.putAcc false d 0 ((List.range 4096).map g)) false (d + 1) (l := (List.range 4096).map b)
      (by simp) (4096 * d + e) (by omega)
    have hwritten := Inst.accAt_putAcc i false d (l := (List.range 4096).map g) (by simp) (e := e) (by simpa using he)
    simp only [Inst.accAt, Bool.false_eq_true, if_false] at hwritten ⊢
    rw [ha, hkept, hwritten]
    simp [he]
  offsets e he := by
    rw [Inst.accAt_congr ha, Inst.accAt_putAcc _ false (d + 1) (by simp) (by simpa using he)]
    simp [he]

section Commit
variable {m : MatCtx} {s : State}

/-- R297: a drain without coefficients. -/
theorem MatCtx.mdrain_plain {o : Drain} (hact : o.act = false)
    (hr : m.ready s [] (rowRanges m.o.ea (16 * o.rs.toNat) (8 * o.ty.width)) []
      (accWords (o.ty == .f64) o.d.toNat 0 64) = (s, none)) :
    let r := m.i.drainRows o.ty none (effMode (m.i.mode.setWidth 32) o.rnd) o.sat o.d.toNat
    ∃ i1, m.mdrain s o =
        ((s.storeRows m.i.crew (m.c.base + m.o.ea) (16 * o.rs.toNat) r.1).keepBytes s m.c m.o.put, .ok i1) ∧
      i1.acc = m.i.acc ∧ i1.carry = m.i.carry ∧ i1.flags = m.i.flags ||| r.2.1 ∧
      i1.mode = r.2.2 ++ (m.i.mode.setWidth 32 : W32) := by
  simp only [MatCtx.mdrain, hact, Bool.false_eq_true, if_false, hr, orStop]
  exact ⟨_, rfl, rfl, rfl, rfl, rfl⟩

/-- R297: a drain that commits leaves accumulators, carries and main memory. -/
theorem MatCtx.mdrain_ok {s1 : State} {o : Drain} {i1 : Inst} (e : m.mdrain s o = (s1, .ok i1)) :
    s1.mem = s.mem ∧ i1.acc = m.i.acc ∧ i1.carry = m.i.carry := by
  unfold MatCtx.mdrain at e
  have e := orStop_ready e
  dsimp only at e
  split at e
  · cases e
  · cases e
    exact ⟨by simp, rfl, rfl⟩

/-- R299: the gains and the offsets of maffl, row after row. -/
theorem MatCtx.maffl_writes {d : BitVec 3} {rs : Nat}
    (hr : m.ready s (rowRanges m.o.ea rs 256 ++ rowRanges m.o.eb rs 256) [] [] [] = (s, none)) :
    ∃ i1, m.maffl s d rs = (s, .ok i1) ∧ i1.carry = m.i.carry ∧ i1.flags = m.i.flags ∧
      PairWritten m.i i1 d.toNat (fun e => leAt (m.rdA s) (m.o.ea + e / 64 * rs + 4 * (e % 64)) 4)
        (fun e => leAt (m.rdA s) (m.o.eb + e / 64 * rs + 4 * (e % 64)) 4) := by
  simp only [MatCtx.maffl, hr, orStop]
  exact ⟨_, rfl, (Inst.note_carry ..).trans ((Inst.putAcc_carry ..).trans (Inst.putAcc_carry ..)),
    (Inst.note_flags ..).trans ((Inst.putAcc_flags ..).trans (Inst.putAcc_flags ..)), pairWritten_of_acc (Inst.note_acc ..)⟩

/-- Column `j` of the operand of mscan, scanned (R300). -/
def MatCtx.scanned (m : MatCtx) (d c : BitVec 3) (j : Nat) : List Affine × Affine × Flags :=
  scanColumn m.i.rnd (m.i.mode.getLsbD 10) ((List.range 64).map fun r =>
    (m.i.accAt false d.toNat (64 * r + j), m.i.accAt false (d.toNat + 1) (64 * r + j))) (m.i.carryAt c.toNat j)

theorem MatCtx.mscan_writes {d c : BitVec 3}
    (hr : m.ready s [] [] [] (accWords true d.toNat 0 64 ++ carryCodes c.toNat) = (s, none)) :
    ∃ i1, m.mscan s d c = (s, .ok i1) ∧ i1.chunk = m.i.chunk + 1 ∧
      PairWritten m.i i1 d.toNat (fun e => ((m.scanned d c (e % 64)).1.getD (e / 64) (0, 0)).1)
        (fun e => ((m.scanned d c (e % 64)).1.getD (e / 64) (0, 0)).2) ∧
      ∀ j, j < 64 → i1.carryAt c.toNat j = ((m.scanned d c j).2.1.1 % 2 ^ 32, (m.scanned d c j).2.1.2 % 2 ^ 32) := by
  have hcol (e : Nat) : ((List.range 64).map (m.scanned d c)).getD (e % 64) ([], (0, 0), 0) = m.scanned d c (e % 64) := by
    simp [Nat.mod_lt]
  simp only [MatCtx.mscan, hr, orStop]
  refine ⟨_, rfl, rfl, ?_, fun j hj => ?_⟩
  · exact pairWritten_of_acc (by simp only [← hcol]; rfl)
  · refine (Inst.carryAt_congr rfl c.toNat j).trans ((Inst.carryAt_putCarry _ c.toNat _ hj).trans ?_)
    simp [hj, MatCtx.scanned]

/-- R301: a load of carries starts the chunk count anew. -/
theorem MatCtx.mcarLoad_writes {c : BitVec 3} (hr : m.ready s [(m.o.ea, 512)] [] [] [] = (s, none)) :
    ∃ i1, m.mcarLoad s c = (s, .ok i1) ∧ i1.acc = m.i.acc ∧ i1.chunk = 0 ∧ ∀ j, j < 64 →
      i1.carryAt c.toNat j = (leAt (m.rdA s) (m.o.ea + 8 * j) 4, leAt (m.rdA s) (m.o.ea + 8 * j + 4) 4) := by
  simp only [MatCtx.mcarLoad, hr, orStop]
  refine ⟨_, rfl, rfl, rfl, fun j hj => ?_⟩
  refine (Inst.carryAt_congr rfl c.toNat j).trans ((Inst.carryAt_putCarry _ c.toNat _ hj).trans ?_)
  simp only [List.getD_eq_getElem?_getD, List.getElem?_map, List.getElem?_range hj, Option.map_some, Option.getD_some, leAt_word]

/-- R301: a store of carries. -/
theorem MatCtx.mcarStore_writes {c : BitVec 3} (hr : m.ready s [] [(m.o.ea, 512)] [] (carryCodes c.toNat) = (s, none)) :
    ∃ i1, m.mcarStore s c = (s.storeLocal m.i.crew (m.c.base + m.o.ea) 512 (bytesFn (m.c.base + m.o.ea)
        ((List.range 64).flatMap fun j => leBytes 4 (m.i.carryAt c.toNat j).1 ++ leBytes 4 (m.i.carryAt c.toNat j).2)), .ok i1) ∧
      i1.acc = m.i.acc ∧ i1.carry = m.i.carry := by
  simp only [MatCtx.mcarStore, hr, orStop]
  exact ⟨_, rfl, rfl, rfl⟩

/-- R301: a reset of carries, which reads nothing, so nothing stops it. -/
theorem MatCtx.mcarReset_writes {c : BitVec 3} (hop : m.o.op = .mcarReset c) :
    ∃ i1, m.commit s = (s, .ok i1) ∧ i1.acc = m.i.acc ∧ i1.chunk = 0 ∧
      ∀ j, j < 64 → i1.carryAt c.toNat j = (0x3F800000, 0) := by
  simp only [MatCtx.commit, hop]
  refine ⟨_, rfl, rfl, rfl, fun j hj => ?_⟩
  refine (Inst.carryAt_congr rfl c.toNat j).trans ((Inst.carryAt_putCarry _ c.toNat _ hj).trans ?_)
  rw [List.getD_replicate _ hj]
  rfl

end Commit

/-- The commit of an oldest operation whose meaning leaves main memory. -/
theorem Oldest.commits_of {s s1 : State} {core : Nat} {m : MatCtx} (ho : Oldest s core m)
    (hx : ∀ ty rnd sat d q, m.o.op ≠ .mdrainx ty rnd sat d q) {q : Inst → Prop} (hm : s1.mem = s.mem)
    (hc : ∃ i1, m.commit s = (s1, .ok i1) ∧ q i1) : ∃ i1, Commits s s1 core m i1 ∧ q i1 := by
  obtain ⟨i1, hc, hq⟩ := hc
  exact ⟨i1, ho.commits hx hc hm, hq⟩

/-- Settles O36: each commit leaves what the lemma of its operation says. -/
theorem matrixDrainsCommit : Obligations.MatrixDrainsCommit := by
  unfold Obligations.MatrixDrainsCommit
  intro s core m ho
  refine ⟨fun o hop hact hr => ?drain, fun o s1 i1 hop e => ?drainAny, fun d xa xb rs hop hr => ?affine, fun d c hop hr => ?scan,
    fun c xa hop hr => ?load, fun c xa hop hr => ?store, fun c hop => ?reset⟩
  all_goals have hx : ∀ ty rnd sat d q, m.o.op ≠ .mdrainx ty rnd sat d q := by simp [hop]
  case drain =>
    refine ho.commits_of hx (by simp) ?_
    simpa only [MatCtx.commit, hop] using MatCtx.mdrain_plain hact hr
  case drainAny =>
    obtain ⟨hm, hacc, hcarry⟩ := MatCtx.mdrain_ok e
    exact ⟨ho.commits hx (by simpa only [MatCtx.commit, hop] using e) hm, hacc, hcarry⟩
  case affine =>
    obtain ⟨i1, hc, hcarry, hflags, hw⟩ := ho.commits_of hx rfl
      (by simpa only [MatCtx.commit, hop] using MatCtx.maffl_writes hr)
    exact ⟨i1, hc, hw.others, hcarry, hflags, fun e he =>
      ⟨(hw.gains e he).trans (leAt_word ..), (hw.offsets e he).trans (leAt_word ..)⟩⟩
  case scan =>
    obtain ⟨i1, hc, hchunk, hw, hcar⟩ := ho.commits_of hx rfl (by simpa only [MatCtx.commit, hop] using MatCtx.mscan_writes hr)
    refine ⟨i1, hc, hw.others, hchunk, fun j hj => ⟨hcar j hj, fun r hr => ?_⟩⟩
    have hplace : (64 * r + j) % 64 = j ∧ (64 * r + j) / 64 = r := by omega
    have hg := hw.gains (64 * r + j) (by omega)
    have hb := hw.offsets (64 * r + j) (by omega)
    rw [hplace.1, hplace.2] at hg hb
    exact ⟨hg, hb⟩
  case load => exact ho.commits_of hx rfl (by simpa only [MatCtx.commit, hop] using MatCtx.mcarLoad_writes hr)
  case store => exact ho.commits_of hx rfl (by simpa only [MatCtx.commit, hop] using MatCtx.mcarStore_writes hr)
  case reset =>
    obtain ⟨i1, hc, hw⟩ := ho.commits_of hx rfl (MatCtx.mcarReset_writes hop)
    exact ⟨i1, hc.1, hc, hw⟩

end Sys2Proof.Machine

/-! Loops and affine registers of the sequencer (R286 to R288). -/
namespace Sys2Proof.Machine

/-- R279, R281, R288: a read of the run that nothing keeps back. -/
theorem SeqHere.readRun_of_reads {s : State} {h : SeqHere} {off n : Nat} (hr : SeqReads s h off n)
    (k : Nat → Except Abort State) :
    h.readRun s off n k = k (leNat (s.getA (s.instCrew h.i).clus ((s.instCrew h.i).base + off) n)) := by
  obtain ⟨hrun, hclear, hwords⟩ := hr
  rw [SeqHere.readRun, SeqHere.inRun_of_has hrun, hclear, if_neg (by simp), hwords]

/-- What an instruction that opens a loop of `n` passes does, where `j` is the sequencer with its reads noted (R286). -/
structure LoopEffect (i : Instr) (s : State) (h : SeqHere) (n : Nat) (j : Inst) : Prop where
  deep : h.i.depth = 3 → h.i.ops = [] → exec i s = .next (s.adjournInst h.key (h.report cILL 0))
  opens : h.i.depth ≠ 3 → n ≠ 0 → exec i s = .next (h.done s fun _ => { j with
    depth := h.i.depth + 1, ctr := h.i.ctr.set h.i.depth (BitVec.ofNat 32 n),
    start := h.i.start.set h.i.depth (advancePc h.i.pc h.i.fetch).1 })
  skips : ∀ s1 pc fetch, h.i.depth ≠ 3 → n = 0 →
    State.skipFrom h.i.core (s.instLaunch h.i).ctx (2 ^ 54) s (advancePc h.i.pc h.i.fetch).1 (advancePc h.i.pc h.i.fetch).2 0 =
      (s1, .to pc fetch) → exec i s = .next (s1.putInst h.key { j with pc, fetch, wait := .none })

section Loop
variable {s : State} {h : SeqHere}

theorem SeqHere.loop_opens {n : Nat} (hn : n ≠ 0) : h.loop s n = .ok (h.done s fun i => { i with
    depth := i.depth + 1, ctr := i.ctr.set i.depth (BitVec.ofNat 32 n),
    start := i.start.set i.depth (advancePc i.pc i.fetch).1 }) :=
  if_neg hn

theorem SeqHere.loop_skips {s1 : State} {pc : Pc} {fetch : Fetch}
    (hskip : State.skipFrom h.i.core (s.instLaunch h.i).ctx (2 ^ 54) s (advancePc h.i.pc h.i.fetch).1
      (advancePc h.i.pc h.i.fetch).2 0 = (s1, .to pc fetch)) :
    h.loop s 0 = .ok (s1.putInst h.key { h.i with pc, fetch, wait := .none }) := by
  rw [SeqHere.loop, if_pos rfl]
  dsimp only
  rw [hskip]

variable (e : s.seqHere = some h)
include e

/-- R286: a loop of `n` passes; of the sequencer, only what the audit keeps may have changed before. -/
theorem loopEffect {i : Instr} {k : SeqHere → Except Abort State} {n : Nat} (audit : Bool) (wrote : List (Nat × Nat))
    (hx : exec i s = onSeq s fun h => if h.i.depth = 3 then h.bad s cILL else k h)
    (hk : k h = ({ h with i := { h.i with audit, wrote } } : SeqHere).loop s n) :
    LoopEffect i s h n { h.i with audit, wrote } where
  deep hd ho := exec_seq_trap e hx ho (if_pos hd)
  opens hd hn := exec_seq_next e hx ((if_neg hd).trans (hk.trans (SeqHere.loop_opens hn)))
  skips s1 pc fetch hd hn hskip := by
    subst hn
    exact exec_seq_next e hx ((if_neg hd).trans (hk.trans (SeqHere.loop_skips hskip)))

theorem sloop_effect (n : BitVec 31) : LoopEffect (.sloop n) s h n.toNat h.i :=
  loopEffect e h.i.audit h.i.wrote (k := fun h => h.loop s n.toNat) rfl rfl

theorem sloopInd_effect {xa : BitVec 4} (hr : SeqReads s h (h.i.eff xa) 4) : LoopEffect (.sloopInd xa) s h
    (leNat (s.getA (s.instCrew h.i).clus ((s.instCrew h.i).base + h.i.eff xa) 4)) (h.i.note [(h.i.eff xa, 4)] []) :=
  loopEffect e (k := _) _ _ rfl (SeqHere.readRun_of_reads hr _)

/-- R287: a sendl closes no loop. -/
theorem exec_sendl_outside (hd : h.i.depth = 0) (ho : h.i.ops = []) :
    exec .sendl s = .next (s.adjournInst h.key (h.report cILL 0)) :=
  exec_seq_trap e (k := _) rfl ho (if_pos hd)

theorem exec_sendl_repeats (hd : h.i.depth ≠ 0) (hc : (h.i.ctr.getD (h.i.depth - 1) 0 - 1 : W32) ≠ 0) :
    let l := h.i.depth - 1
    let t := h.i.start.getD l 0
    exec .sendl s = .next (s.putInst h.key { h.i.stepBases l with
      ctr := h.i.ctr.set l (h.i.ctr.getD l 0 - 1), pc := t
      fetch := if lineAddr t = lineAddr h.i.pc then h.i.fetch else .none, wait := .none }) :=
  exec_seq_next e (k := _) rfl ((if_neg hd).trans (if_pos hc))

theorem exec_sendl_closes (hd : h.i.depth ≠ 0) (hc : (h.i.ctr.getD (h.i.depth - 1) 0 - 1 : W32) = 0) :
    let l := h.i.depth - 1
    exec .sendl s = .next (h.done s fun _ => { h.i.stepBases l with ctr := h.i.ctr.set l (h.i.ctr.getD l 0 - 1), depth := l }) :=
  exec_seq_next e (k := _) rfl ((if_neg hd).trans (if_neg (not_not_intro hc)))

end Loop

/-- R287: each of the sixteen affine registers steps by its stride of a level. -/
theorem Inst.stepBases_read (i : Inst) (l : Nat) {n : Nat} (hn : n < 16) :
    (i.stepBases l).base.read n = i.base.read n + (i.stride.read (3 * n + l)).signExtend 48 := by
  rw [Inst.stepBases, Cells.read_update, if_pos (by omega)]

/-- R288: the sequencer after sadr has read its base and strides. -/
def Inst.setAffine (i : Inst) (d o r : Nat) : Inst :=
  { i with base := i.base.write d (BitVec.ofNat 48 r)
           stride := i.stride.update (3 * d) 3 fun k => BitVec.ofNat 32 (r / 2 ^ (64 + 32 * (k - 3 * d)))
           audit := i.audit && covered i.wrote (i.wrote.length + 1) o 32 }

theorem Inst.setAffine_stride (i : Inst) (d o r : Nat) {k : Nat} (hk : k < 3) :
    (i.setAffine d o r).stride.read (3 * d + k) = BitVec.ofNat 32 (r / 2 ^ (64 + 32 * k)) := by
  rw [Inst.setAffine, Cells.read_update, if_pos (by omega), Nat.add_sub_cancel_left]

theorem Inst.setAffine_stride_other (i : Inst) (d o r : Nat) {k : Nat} (hk : k / 3 ≠ d) :
    (i.setAffine d o r).stride.read k = i.stride.read k := by
  rw [Inst.setAffine, Cells.read_update, if_neg (by omega)]

/-- R288: the sequencer after sinc. -/
def Inst.incAffine (i : Inst) (d : BitVec 4) (t : BitVec 2) (e : W32) : Inst :=
  if t = 0 then { i with base := i.base.write d.toNat (i.base.read d.toNat + e.signExtend 48) }
  else { i with stride := i.stride.write (3 * d.toNat + (t.toNat - 1)) e }

theorem Inst.incAffine_only (i : Inst) (d : BitVec 4) (t : BitVec 2) (e : W32) :
    { i.incAffine d t e with base := i.base, stride := i.stride } = i := by
  unfold Inst.incAffine
  split <;> rfl

theorem Inst.incAffine_base (i : Inst) (d : BitVec 4) (t : BitVec 2) (e : W32) (n : Nat) :
    (i.incAffine d t e).base.read n = if t = 0 ∧ n = d.toNat then i.base.read n + e.signExtend 48 else i.base.read n := by
  unfold Inst.incAffine
  split
  · rename_i ht
    rw [Cells.read_write]
    by_cases hn : n = d.toNat
    · rw [if_pos hn, if_pos ⟨ht, hn⟩, hn]
    · rw [if_neg hn, if_neg fun c => hn c.2]
  · rw [if_neg fun c => absurd c.1 ‹_›]

theorem Inst.incAffine_stride (i : Inst) (d : BitVec 4) (t : BitVec 2) (e : W32) (k : Nat) :
    (i.incAffine d t e).stride.read k = if t ≠ 0 ∧ k = 3 * d.toNat + (t.toNat - 1) then e else i.stride.read k := by
  unfold Inst.incAffine
  split
  · rw [if_neg fun c => c.1 ‹_›]
  · rename_i ht
    rw [Cells.read_write]
    by_cases hk : k = 3 * d.toNat + (t.toNat - 1)
    · rw [if_pos hk, if_pos ⟨ht, hk⟩]
    · rw [if_neg hk, if_neg fun c => hk c.2]

/-- Settles O37: a loop opens, repeats, closes or is passed over; sadr and sinc write the registers they name. -/
theorem sequencerLoops : Obligations.SequencerLoops := by
  unfold Obligations.SequencerLoops
  intro s h e
  refine ⟨fun n => ?loop, fun xa hr => ?loopInd, exec_sendl_outside e,
    fun hd => ⟨exec_sendl_repeats e hd, exec_sendl_closes e hd, ?step⟩, fun d off pc => ?sadr, fun d t x => ?sinc⟩
  case loop => exact ⟨(sloop_effect e n).deep, (sloop_effect e n).opens, (sloop_effect e n).skips⟩
  case loopInd => exact ⟨(sloopInd_effect e hr).deep, (sloopInd_effect e hr).opens, (sloopInd_effect e hr).skips⟩
  case step => exact fun n hn => Inst.stepBases_read h.i _ hn
  case sadr =>
    intro o r hr
    refine ⟨h.i.setAffine d.toNat o r, exec_seq_next e (k := _) rfl (SeqHere.readRun_of_reads hr _), ?_,
      fun k hk => Inst.setAffine_stride _ _ _ _ hk, fun n hn => ?_, fun k hk => Inst.setAffine_stride_other _ _ _ _ hk, rfl⟩
    · exact (Cells.read_write ..).trans (if_pos rfl)
    · exact (Cells.read_write ..).trans (if_neg hn)
  case sinc =>
    exact ⟨h.i.incAffine d t x, exec_seq_next e (k := _) rfl rfl, Inst.incAffine_only h.i d t x, Inst.incAffine_base h.i d t x,
      Inst.incAffine_stride h.i d t x⟩

end Sys2Proof.Machine

/-! Barriers, copies, hints and tile tasks of the sequencer (R289 to R291, R302, R303). -/
namespace Sys2Proof.Machine

/-- R289: a barrier object that nothing keeps back is the one at its offset of the run. -/
theorem SeqHere.barrier_of_reads {s : State} {h : SeqHere} {off : Nat} (hr : SeqReads s h off 16)
    (k : Nat → Except Abort State) : h.barrier s off k = k ((s.instCrew h.i).base + off) := by
  obtain ⟨hrun, hclear, hwords⟩ := hr
  rw [SeqHere.barrier, SeqHere.inRun_of_has hrun, hclear, if_neg (by simp), hwords]

/-- What executes stands in the table of sequencers. -/
theorem seqs_get?_of_seqHere {s : State} {h : SeqHere} (e : s.seqHere = some h) : s.seqs.get? h.key = some h.i := by
  unfold State.seqHere at e
  split at e
  · split at e
    · split at e
      · cases e
        assumption
      · cases e
    · cases e
  · cases e

/-- R303: without an open tile task nothing closes. -/
theorem State.closeTile_of_closed {s : State} {k : Nat} {i : Inst} (hi : s.seqs.get? k = some i) (ht : i.tile = false) :
    s.closeTile k = s := by
  rw [State.closeTile, hi]
  dsimp only
  rw [ht]
  rfl

section Synchronise
variable {s : State} {h : SeqHere} (e : s.seqHere = some h)
include e

theorem exec_sbarr {off : BitVec 22} (hr : SeqReads s h off.toNat 16) (hq : s.instQuiet h = true) :
    let clus := (s.instCrew h.i).clus
    let a := (s.instCrew h.i).base + off.toNat
    exec (.sbarr off) s = .next (((h.done s id).setBarObj clus a ((s.barObj clus a).arrive 1)).wake) := by
  refine exec_seq_next e (k := _) rfl ((SeqHere.barrier_of_reads hr _).trans (if_neg ?_))
  simp [hq]

/-- R289: sbwait names a level that is open, or none (3). -/
theorem exec_sbwait {off : BitVec 22} {ph : Bool} {l : BitVec 2} (hr : SeqReads s h off.toNat 16)
    (hl : l.toNat = 3 ∨ l.toNat < h.i.depth) :
    let a := (s.instCrew h.i).base + off.toNat
    exec (.sbwait off ph l) s = .next (if s.objPh (s.instCrew h.i).clus a = h.i.phase ph l.toNat then (h.done s id).seqAcquire h.i
      else s.putInst h.key { h.i with wait := .barrier a (h.i.phase ph l.toNat) }) := by
  refine exec_seq_next e (k := _) rfl ((if_neg (by omega)).trans ((SeqHere.barrier_of_reads hr _).trans ?_))
  simp only [beq_iff_eq]
  exact (apply_ite Except.ok _ _ _).symm

section Scpy
variable {d a : BitVec 4} {len : BitVec 24} {kind : ScpyKind} {ty : Ty} {k : Copy} (hk : h.scpyOf s d a len.toNat kind ty = k)
  (ho : h.i.ops = []) (hok : k.issueBad (s.instCrew h.i) (s.instLaunch h.i) = none)
include hk ho hok

/-- R215: a copy of no bytes in legal ranges is complete at its issue. -/
theorem exec_scpy_empty (hlen : k.len = 0) : exec (.scpy d a len kind ty) s = .next (h.done s id) := by
  refine exec_seq_next e (k := _) rfl ((SeqHere.alone_of_idle ho _).trans ?_)
  dsimp only
  rw [hk, hok]
  exact if_pos hlen

/-- R257, R290: a legal copy of some bytes that finds a permit, room and no clash joins the engine, to a store of its core once
the store is the context's. -/
theorem exec_scpy_joins (hlen : k.len ≠ 0) (hfree : (s.instCopies h.key).length < Config.copyPermits)
    (hroom : s.copyFull h.i.core k = false) (hclash : (s.instCopies h.key).all (fun o => !s.copyClash o k) = true) :
    exec (.scpy d a len kind ty) s = h.finish s
      (if k.inCore = true then h.owned s fun s1 => .ok ((h.done s1 fun i => i.noteCopy s1 k).addCopy k)
       else .ok ((h.done s fun i => i.noteCopy s k).addCopy k)) := by
  have hx : exec (.scpy d a len kind ty) s = execScpy d a len kind ty s := rfl
  have hnone : ((s.instCopies h.key).any fun o => s.copyClash o k) = false := by simpa using hclash
  rw [hx, execScpy, onSeq_of_seqHere e, SeqHere.alone_of_idle ho]
  dsimp only
  rw [hk, hok]
  dsimp only
  rw [if_neg hlen, hroom, hnone, if_neg (by simp [hfree])]

end Scpy

/-- R303: saud closes the open tile task; with a 1 the next one opens. -/
theorem exec_saud {x : Bool} {i : Inst} (ho : h.i.ops = []) (hi : (s.closeTile h.key).seqs.get? h.key = some i) :
    exec (.saud x) s = .next ((s.closeTile h.key).putInst h.key (if x then i.advance.openTile else i.advance)) := by
  refine exec_seq_next e (k := _) rfl ((SeqHere.alone_of_idle ho _).trans ?_)
  dsimp only
  rw [hi]

theorem exec_sfin (hq : s.instQuiet h = true) : exec (.sfin none) s = .next (h.done s id) :=
  exec_seq_next e (k := _) rfl (if_pos hq)

theorem exec_sfin_waits (hq : ¬ s.instQuiet h = true) : exec (.sfin none) s = .next s :=
  exec_seq_hold e (k := _) rfl (if_neg hq)

theorem exec_sfin_stores {off : BitVec 22} (hq : s.instQuiet h = true) (hr : (s.instCrew h.i).runHas off.toNat 16 = true) :
    let a := (s.instCrew h.i).base + off.toNat
    exec (.sfin (some off)) s = .next ((h.done s id).putA (s.instCrew h.i).clus a 16
      (bytesFn a (leBytes 8 h.i.mode.toNat ++ leBytes 8 h.i.flags.toNat))).wake :=
  exec_seq_next e (k := _) rfl ((SeqHere.inRun_of_has hr _).trans (if_neg (by simp [hq])))

/-- Without a place to store and without an open tile task, sfin and saud leave main memory. -/
theorem exec_sfin_mem {t : State} (ht : exec (.sfin none) s = .next t) : t.mem = s.mem := by
  by_cases hq : s.instQuiet h = true
  · cases (exec_sfin e hq).symm.trans ht
    rfl
  · cases (exec_sfin_waits e hq).symm.trans ht
    rfl

theorem exec_saud_mem {x : Bool} {t : State} (ht : exec (.saud x) s = .next t) (ho : h.i.ops = []) (hc : h.i.tile = false) :
    t.mem = s.mem := by
  have hclosed : s.closeTile h.key = s := State.closeTile_of_closed (seqs_get?_of_seqHere e) hc
  have hi : (s.closeTile h.key).seqs.get? h.key = some h.i := by rw [hclosed, seqs_get?_of_seqHere e]
  cases (exec_saud e ho hi).symm.trans ht
  rw [State.putInst_mem, hclosed]

end Synchronise

/-- Settles O38: each instruction passes its checks, and then is its effect. -/
theorem sequencerSynchronisation : Obligations.SequencerSynchronisation := by
  unfold Obligations.SequencerSynchronisation
  intro s h e
  refine ⟨fun off hr hq => exec_sbarr e hr hq, fun off ph l hr hl => exec_sbwait e hr hl, fun d a len kind ty ho => ?scpy,
    fun n => exec_seq_next e (k := _) rfl rfl, fun x i ho hi => exec_saud e ho hi, exec_sfin e,
    fun off hq hr => exec_sfin_stores e hq hr, fun i hi t ht ho hc b => ?memory⟩
  case scpy =>
    intro k hok
    refine ⟨exec_scpy_empty e rfl ho hok, fun hlen hfree hroom hclash => ?_⟩
    have hjoins := exec_scpy_joins e (k := k) rfl ho hok hlen hfree hroom hclash
    refine ⟨fun hin => ?_, fun s1 hin hown => ?_⟩
    · rw [hjoins, if_neg (Bool.eq_false_iff.mp hin)]
      rfl
    · rw [hjoins, if_pos hin, SeqHere.owned_of_own hown]
      rfl
  case memory =>
    simp only [List.mem_cons, List.not_mem_nil, or_false] at hi
    obtain rfl | rfl | rfl := hi
    · rw [exec_sfin_mem e ht]
    · rw [exec_saud_mem e ht ho hc]
    · rw [exec_saud_mem e ht ho hc]

end Sys2Proof.Machine

/-! The ramp of a core and the audit of tile tasks (R302, R306, R376, R377). -/
namespace Sys2Proof.Machine

/-- R302: the sequencer when the ramp of `core` has run out. -/
def Inst.rampedDown (core : Nat) (i : Inst) : Inst := { i with ramp := if i.core = core then 0 else i.ramp }

theorem exec_rampDown (core : Nat) (s : State) :
    exec (.rampDown core) s = .next { s with seqs := s.seqs.map fun x => (x.1, x.2.rampedDown core) } := by
  have hx : exec (.rampDown core) s = execRampDown core s := rfl
  have hinst (x : Nat × Inst) :
      (if x.2.core == core then (x.1, { x.2 with ramp := 0 }) else x) = (x.1, x.2.rampedDown core) := by
    by_cases hc : x.2.core = core <;> simp [Inst.rampedDown, hc]
  rw [hx, execRampDown, funext hinst]

section Sample
variable {s : State} {task : Nat} {x : Sampled} (e : s.samples.get? task = some x)
include e

/-- R306: a replay that may run delivers what the task, run again, does; g is the fault of the replaying unit (log 16). -/
theorem exec_auditReplay {clus : Nat} (g : W64) (hrun : x.mayRun s clus = true) :
    exec (.auditReplay task clus g) s = .next { s with samples := s.samples.put task { x with runs := x.runs ++
      [(clus, State.replayFrom x.steps (x.scratch s (8 * clus + x.core % 8)) ^^^ g)] } } := by
  have hx : exec (.auditReplay task clus g) s = execAuditReplay task clus g s := rfl
  rw [hx, execAuditReplay, e]
  exact if_pos hrun

/-- R376: the verdict after one replay. -/
theorem exec_auditVerdict_one {c1 : Nat} {g1 : W64} (hr : x.runs = [(c1, g1)]) : exec (.auditVerdict task) s =
    if g1 = x.sig then .next { s with samples := s.samples.erase task }
    else if s.otherDie (s.launch x.launch) [x.core / 512, c1 / 64] then .next s
    else .next (((s.count 7).count 8).auditWrong task x [x.core / 8, c1]) := by
  have hx : exec (.auditVerdict task) s = execAuditVerdict task s := rfl
  rw [hx, execAuditVerdict, e]
  dsimp only
  rw [hr]

/-- R376: the verdict after two: the outlier of the three signatures is blamed, or, where no two agree, all of them. -/
theorem exec_auditVerdict_two {c1 c2 : Nat} {g1 g2 : W64} (hr : x.runs = [(c1, g1), (c2, g2)]) : exec (.auditVerdict task) s =
    .next (if g2 = x.sig then ({ s with samples := s.samples.erase task }.count 7).lastingAt c1
      else if g2 = g1 then (s.count 7).auditWrong task x [] else (s.count 7).auditWrong task x [x.core / 8, c1, c2]) := by
  have hx : exec (.auditVerdict task) s = execAuditVerdict task s := rfl
  rw [hx, execAuditVerdict, e]
  dsimp only
  rw [hr]
  simp only [apply_ite Host.Outcome.next]

end Sample

/-- Settles O39: each event is the equation of its lemma above. -/
theorem auditEvents : Obligations.AuditEvents := by
  unfold Obligations.AuditEvents
  refine ⟨fun core s => ?ramp, fun task clus g s x e hrun => exec_auditReplay e g hrun,
    fun task s x e => ⟨fun c1 g1 hr => ⟨?agrees, ?differs⟩, fun c1 g1 c2 g2 hr => exec_auditVerdict_two e hr⟩⟩
  case ramp =>
    refine ⟨_, exec_rampDown core s, rfl, fun k i hi => ?_⟩
    dsimp only at hi
    rw [Table.get?_mapValues fun _ j => Inst.rampedDown core j] at hi
    obtain ⟨j, hj, hji⟩ := Option.map_eq_some_iff.mp hi
    exact ⟨j, hj, hji.symm⟩
  case agrees =>
    intro hg
    rw [exec_auditVerdict_one e hr, if_pos hg]
  case differs =>
    intro hg hdie
    rw [exec_auditVerdict_one e hr, if_neg hg, hdie]
    rfl

end Sys2Proof.Machine

/-! Geometric predicates: the capture at issue (R312, R316), the commit (R316) and the stage counts (R318). -/
namespace Sys2Proof.Machine

/-- A fragment of the wave gives way to one that differs in nothing that `Body` speaks of. -/
theorem Body.setFrag {h : Here} {x : Writes} {w : Wave} (b : Body h x w) {f : Fragment} (hpc : f.pc = h.f.pc)
    (hfetch : f.fetch = h.f.fetch) (howned : f.owned = h.f.owned) (hrecon : f.recon = h.f.recon) (hz : f.z = h.f.z)
    (hmask : f.mask = h.f.mask) : Body h x (w.setFrag h.side (some f)) where
  vector r l hl ho := by rw [Wave.readV_setFrag, b.vector r l hl ho]
  scalar r h60 hr := by rw [Wave.setFrag_s, b.scalar r h60 hr]
  predicate r l hl ho := by rw [Wave.readP_setFrag, b.predicate r l hl ho]
  flags e := by rw [Wave.setFrag_flags, b.flags e]
  mode e := by rw [Wave.setFrag_mode, b.mode e]
  other := by rw [← b.other]; cases h.side <;> rfl
  fragment := ⟨f, Wave.frag_setFrag_same .., hpc, hfetch, howned, hrecon, fun _ => hz, fun _ _ _ => by rw [hmask]⟩
  rest := by refine Eq.trans ?_ b.rest; cases h.side <;> rfl
  words := by rw [← b.words]; cases h.side <;> rfl

section Issue
variable {s : State} {h : Here} {o : GeoOp} {n m : Nat}

/-- R312: the participating lanes of which a coordinate is not finite. -/
def Here.nonFinite (h : Here) (o : GeoOp) (n m : Nat) : List Nat :=
  (lanesOf (h.part o.g)).filter fun l => !(h.geoPoints o n m l).flatten.all FVal.isFinite

theorem Here.mem_nonFinite {l : Nat} (hl : l < 96) : l ∈ h.nonFinite o n m ↔
    (h.part o.g).getLsbD l = true ∧ (h.geoPoints o n m l).flatten.all FVal.isFinite = false := by
  rw [Here.nonFinite, List.mem_filter, mem_lanesOf _ _ hl, Bool.not_eq_true']

/-- R312: where every participating lane holds finite coordinates, no lane is marked. -/
theorem Here.nonFinite_eq_nil (hfin : ∀ l, l < 96 → (h.part o.g).getLsbD l = true →
    (h.geoPoints o n m l).flatten.all FVal.isFinite = true) : h.nonFinite o n m = [] := by
  refine List.eq_nil_iff_forall_not_mem.mpr fun l hmem => ?_
  have hl : l < 96 := List.mem_range.mp (List.mem_filter.mp (List.mem_filter.mp hmem).1).1
  obtain ⟨hpart, hbad⟩ := (Here.mem_nonFinite hl).mp hmem
  rw [hfin l hl hpart] at hbad
  cases hbad

/-- What issuing a predicate does to its wave: the fragment remembers the token. -/
def Here.remember (h : Here) (t : Nat) (w : Wave) : Wave :=
  w.setFrag h.side (some { (w.frag h.side).getD h.f with preds := h.f.preds ++ [t] })

/-- R316: with room for 96 lanes a predicate enters the unit, whatever its lanes compute. -/
theorem onGeo_issues (c : Clear s h (geoRegs o n m ++ [o.d.toNat])) (hfin : o.code = true ∨ h.nonFinite o n m = [])
    (hroom : s.escalated h.w.core + 96 ≤ Config.escalationEntries) (lane : Bool → Points → List Nat → Nat × Int) :
    ∃ q : Pred, onGeo o n m lane s = .next (h.done { s with
        stores := { s.stores with preds := s.stores.preds ++ [(h.w.core, q)] }, draw := s.draw + 1 } (h.remember q.token)) ∧
      q.wave = h.key ∧ q.d = o.d.toNat ∧ q.lanes = h.part o.g ∧ q.marked = lanesMask (h.nonFinite o n m) := by
  have hgo : ¬ (h.nonFinite o n m ≠ [] ∧ !o.code) := by
    rintro ⟨hbad, hcode⟩
    rcases hfin with hfin | hfin
    · simp [hfin] at hcode
    · exact hbad hfin
  have hu : ∀ r ∈ geoRegs o n m ++ [] ++ [o.d.toNat], r ∈ geoRegs o n m ++ [o.d.toNat] := fun r hr => by simpa using hr
  rw [Here.nonFinite] at hgo ⊢
  exact ⟨_, c.onWave_ok _ _ _ hu (.inl rfl) ((if_neg (Nat.not_lt.mpr hroom)).trans ((if_neg hgo).trans rfl)), rfl, rfl, rfl,
    rfl⟩

/-- A fragment found in a wave just put is that wave's. -/
theorem State.fragment_putWave {k : Nat} {w : Wave} {side : Bool} {g : Here} (e : (s.putWave k w).fragment k side = some g) :
    w.frag side = some g.f := by
  unfold State.fragment at e
  rw [State.putWave, Table.get?_put_same] at e
  dsimp only at e
  split at e
  · rename_i f _ hf
    cases e
    exact hf
  · cases e

/-- The fragment remembers its predicate and goes on; nothing else of the wave changes. -/
theorem Clear.remember_kept {rs : List Nat} (c : Clear s h rs) (s1 : State) (t : Nat) : ∃ w f,
    h.done s1 (h.remember t) = s1.putWave h.key w ∧ Kept h {} w ∧ w.frag h.side = some f ∧ t ∈ f.preds := by
  have hf : h.w.frag h.side = some h.f := (here_spec c.here).2.2.1
  have hb : Body h {} (h.remember t h.w) := by
    rw [Here.remember, hf, Option.getD_some]
    exact (Body.refl c {}).setFrag rfl rfl rfl rfl rfl rfl
  obtain ⟨f, ef, hk⟩ := hb.kept (h.remember t)
  refine ⟨_, _, by rw [Here.done, ef, Option.getD_some], hk, Wave.frag_setFrag_same .., ?_⟩
  rw [Here.remember, Wave.frag_setFrag_same, Option.some.injEq] at ef
  rw [← ef]
  exact List.mem_append_right _ (List.mem_singleton_self _)

end Issue

section Commit
variable {s : State} {core : Nat}

/-- R316: of the predicates that may resolve one commits, drawn where they are several. -/
theorem exec_predicateCommit (hne : resolvable core [] s.stores.preds ≠ []) : ∃ x ∈ resolvable core [] s.stores.preds, ∃ n,
    exec (.predicateCommit core) s = .next (({ s with draw := n }).commitPred x) := by
  have hx : exec (.predicateCommit core) s = execPredicateCommit core s := rfl
  rw [hx, execPredicateCommit]
  split
  case h_1 e => exact absurd e hne
  case h_2 x e => exact ⟨x, e ▸ List.mem_singleton_self x, s.draw, rfl⟩
  case h_3 x xs _ e =>
    have hi : Config.choice s.draw % (xs.length + 1) < (x :: xs).length := Nat.mod_lt _ (Nat.succ_pos _)
    rw [List.getD_eq_getElem _ _ hi, e]
    exact ⟨_, List.getElem_mem hi, s.draw + 1, rfl⟩

theorem State.commitPred_wave {x : Nat × Pred} {w : Wave} (hw : s.waves.get? x.2.wave = some w) :
    (s.commitPred x).waves.get? x.2.wave = some (w.commitPred x.2) := by
  rw [State.commitPred, Table.get?_modify_same, hw, Option.map_some]

/-- R316: the results reach the participating lanes of the destination and no others. -/
theorem Wave.readV_commitPred (w : Wave) (p : Pred) (r : Nat) {l : Nat} (hl : l < 96) : (w.commitPred p).readV r l =
    if r = p.d ∧ p.lanes.getLsbD l = true then p.res.read l else w.readV r l :=
  Wave.readV_writeV w p.d p.lanes _ r l hl

end Commit

section StageCounts

/-- R318: count `n` cleared. -/
def Wave.clearStage (w : Wave) (n : Nat) : Wave :=
  match n with
  | 0 => { w with st0 := 0 }
  | 1 => { w with st1 := 0 }
  | _ => { w with st2 := 0 }

/-- What gstat does to the counts, once s_D is written (R318). -/
def Wave.clearIf (w : Wave) (clr : Bool) (n : Nat) : Wave := if clr then w.clearStage n else w

theorem Wave.stage_clearIf (w : Wave) (clr : Bool) {n k : Nat} (hn : n ≤ 2) (hk : k < 3) :
    (w.clearIf clr n).stage k = if clr = true ∧ k = n then 0 else w.stage k := by
  cases clr
  case false => rw [if_neg (by simp)]; rfl
  case true => interval_cases n <;> interval_cases k <;> rfl

@[simp] theorem Wave.frag_clearIf (w : Wave) (clr : Bool) (n : Nat) (side : Bool) : (w.clearIf clr n).frag side = w.frag side := by
  unfold Wave.clearIf Wave.clearStage
  split
  · split <;> rfl
  · rfl

@[simp] theorem Wave.readS_clearIf (w : Wave) (clr : Bool) (n : Nat) (side : Bool) (r : Nat) :
    (w.clearIf clr n).readS side r = w.readS side r := by
  unfold Wave.clearIf Wave.clearStage
  split
  · split <;> rfl
  · rfl

@[simp] theorem Wave.stage_setFrag (w : Wave) (side : Bool) (f : Option Fragment) (k : Nat) :
    (w.setFrag side f).stage k = w.stage k := by cases side <;> rfl

/-- The counts are not among the things that an instruction may write in `Body`. -/
theorem Body.stage {h : Here} {x : Writes} {w : Wave} (b : Body h x w) (k : Nat) : w.stage k = h.w.stage k :=
  congrArg (·.stage k) b.rest

/-- Clearing a count changes the counts alone. -/
theorem Body.clearIf {h : Here} {x : Writes} {w : Wave} (b : Body h x w) (clr : Bool) (n : Nat) :
    { w.clearIf clr n with st0 := h.w.st0, st1 := h.w.st1, st2 := h.w.st2 } = w := by
  have h0 : w.st0 = h.w.st0 := b.stage 0
  have h1 : w.st1 = h.w.st1 := b.stage 1
  have h2 : w.st2 = h.w.st2 := b.stage 2
  rw [← h0, ← h1, ← h2]
  unfold Wave.clearIf Wave.clearStage
  split
  · split <;> rfl
  · rfl

variable {s : State} {h : Here} (clr : Bool) (d : BitVec 6) (n : BitVec 2)

/-- R318: with no predicate of its fragment in the unit gstat writes the count and clears it if asked. -/
theorem Clear.exec_gstat (c : Clear s h []) (hnone : ∀ x ∈ s.stores.preds, ¬ (x.2.wave = h.key ∧ x.2.token ∈ h.f.preds)) :
    exec (.gstat clr d n) s = .next (h.done s fun w =>
      (w.writeS h.side d.toNat ((w.stage n.toNat).setWidth 64)).clearIf clr n.toNat) := by
  have hx : exec (.gstat clr d n) s = execGstat clr d n s := rfl
  have hfree : ¬ (s.stores.preds.any fun x => x.2.wave == h.key && h.f.preds.contains x.2.token) = true := by
    simpa using hnone
  rw [hx, execGstat]
  exact c.onWave_ok _ _ _ (by simp) (.inl rfl) (if_neg hfree)

/-- R318: but for the counts gstat keeps what a write of s_D keeps. -/
theorem Clear.gstat_results (c : Clear s h []) {n : BitVec 2} (hn : n.toNat ≤ 2) : ∃ w,
    (h.done s fun w => (w.writeS h.side d.toNat ((w.stage n.toNat).setWidth 64)).clearIf clr n.toNat) = s.putWave h.key w ∧
      Framed s (s.putWave h.key { w with st0 := h.w.st0, st1 := h.w.st1, st2 := h.w.st2 }) h { s := [d.toNat] } ∧
      w.readS h.side d.toNat = h.stored d.toNat ((h.w.stage n.toNat).setWidth 64) ∧
      ∀ k, k < 3 → w.stage k = if clr = true ∧ k = n.toNat then 0 else h.w.stage k := by
  let v : W64 := (h.w.stage n.toNat).setWidth 64
  have hb := (Body.refl c { s := [d.toNat] }).writeS d.toNat v (.inl (List.mem_singleton_self _))
  obtain ⟨f, ef, hk⟩ := hb.kept fun w => w.writeS h.side d.toNat v
  have ef' := (Wave.frag_clearIf (h.w.writeS h.side d.toNat v) clr n.toNat h.side).trans ef
  refine ⟨((h.w.writeS h.side d.toNat v).clearIf clr n.toNat).setFrag h.side (some f.advance), ?done,
    ⟨⟨_, rfl, ?kept⟩, fun _ => rfl⟩, ?count, fun k hk3 => ?stages⟩
  case done => rw [Here.done, ef', Option.getD_some]
  case kept =>
    have hback := congrArg (Wave.setFrag · h.side (some f.advance)) (hb.clearIf clr n.toNat)
    refine Eq.mp (congrArg (Kept h _) (hback.symm.trans ?_)) hk
    cases h.side <;> rfl
  case count =>
    rw [Wave.readS_advance _ _ _ ef', Wave.readS_clearIf, Wave.readS_writeS _ _ _ _ _ (here_spec c.here).2.2.1]
    rfl
  case stages => rw [Wave.stage_setFrag, Wave.stage_clearIf _ _ hn hk3, hb.stage]

end StageCounts

/-- Settles O12: a predicate issues by `onGeo_issues`, one commits by `exec_predicateCommit`, and gstat acts by
`Clear.exec_gstat`. -/
theorem geometryResults : Obligations.GeometryResults := by
  unfold Obligations.GeometryResults
  refine ⟨fun p hp o s h c hfin hroom => ?issue, fun core s hne => ?commit, fun clr d n s h hwf c hnone => ?gstat⟩
  case issue =>
    obtain ⟨lane, hx⟩ : ∃ lane, exec (p.1 o) s = onGeo o p.2.1 p.2.2 lane s := by
      simp only [List.mem_cons, List.not_mem_nil, or_false] at hp
      rcases hp with rfl | rfl | rfl | rfl | rfl <;> exact ⟨_, rfl⟩
    obtain ⟨q, he, hwave, hd, hlanes, hmarked⟩ := onGeo_issues c (hfin.imp_right Here.nonFinite_eq_nil) hroom lane
    obtain ⟨w, f, hdone, hk, hfrag, htok⟩ := c.remember_kept
      { s with stores := { s.stores with preds := s.stores.preds ++ [(h.w.core, q)] }, draw := s.draw + 1 } q.token
    rw [hdone] at he
    refine ⟨_, q, hx.trans he, ⟨⟨w, rfl, hk⟩, fun _ => rfl⟩, rfl, hwave, fun g hg => ?_, hd, hlanes, fun l hl => ?_⟩
    · rw [State.fragment_putWave hg, Option.some.injEq] at hfrag
      rwa [hfrag]
    · rw [hmarked, lanesMask_bit _ _ hl, decide_eq_true_eq, Here.mem_nonFinite hl]
  case commit =>
    obtain ⟨x, hmem, draw, he⟩ := exec_predicateCommit hne
    exact ⟨x, hmem, draw, _, he, rfl, rfl, fun w hw => ⟨State.commitPred_wave (s := { s with draw }) hw,
      fun r l hl => w.readV_commitPred x.2 r hl⟩⟩
  case gstat =>
    have hn : n.toNat ≤ 2 := by simpa [wellFormed] using hwf
    obtain ⟨w, hdone, hframed, hread, hstage⟩ := c.gstat_results (s := s) clr d hn
    exact ⟨_, w, (c.exec_gstat clr d n hnone).trans (congrArg _ hdone), rfl, hframed, hread, hstage⟩

end Sys2Proof.Machine

/-! Map instructions: the checks of their three forms and what the walks of pgmap and pgunmap lead to (R331 to R334). -/
namespace Sys2Proof.Machine

section Forms
variable {s : State} {h : Here} (c : Clear s h [])
include c

/-- R331: a form that stands at its shootdown stays there. -/
theorem Clear.onMap_stays {x : Nat} (hx : h.f.wait = .shootdown x) (sr : List Nat) (k : Here → Except Abort State) :
    onMap sr s k = .next s :=
  c.onWave_ok Guard.none { sr } _ (by simp) (.inl rfl) (by rw [hx])

variable (hx : ∀ x, h.f.wait ≠ .shootdown x) {sr : List Nat} {k : Here → Except Abort State}
include hx

/-- A form that is not at its shootdown yet runs its meaning. -/
theorem Clear.onMap_eq : onMap sr s k = h.finish (h.settle s (k h)) := by
  rw [onMap, c.onWave_scalars]
  split
  · exact absurd ‹_› (hx _)
  · rfl

theorem Clear.onMap_next {t : State} (hk : k h = .ok t) : onMap sr s k = .next t := by
  rw [c.onMap_eq hx, hk]
  rfl

/-- R331: a check that fails adjourns the wave with its cause and the address. -/
theorem Clear.onMap_adjourns {x va : W64} (hw : h.w.mustWait s h.key = false) (hk : k h = .error (mapFail h s x va)) :
    onMap sr s k = .next (s.adjourn h.key h.side { h.report x with faddr := va }) := by
  rw [c.onMap_eq hx, hk]
  exact finish_trap hw _ _

variable {d a b e ctx : BitVec 6} {sz : PgSize}

/-- R331, check 1: the three forms without the right. -/
theorem Clear.mapForm_unrightful (hw : h.w.mustWait s h.key = false) (hmay : s.mapRight (s.ctxOf h.w) ctx.toNat = false) :
    ∀ i ∈ [Instr.pgmap d a b e ctx sz, .pgunmap d a ctx sz, .pginv a b ctx],
      exec i s = .next (s.adjourn h.key h.side { h.report cPROT with faddr := h.s a }) := by
  have hno : (!s.mapRight (s.ctxOf h.w) ctx.toNat) = true := by rw [hmay]; rfl
  simp only [List.forall_mem_cons, List.not_mem_nil, false_imp_iff, implies_true, and_true]
  exact ⟨c.onMap_adjourns hx hw (if_pos hno), c.onMap_adjourns hx hw (if_pos hno), c.onMap_adjourns hx hw (if_pos hno)⟩

variable (hmay : s.mapRight (s.ctxOf h.w) ctx.toNat = true)
include hmay

/-- R331, check 2: pgmap and pgunmap on an address that is no page of the size. -/
theorem Clear.mapForm_noPage (hw : h.w.mustWait s h.key = false)
    (hat : ¬ (bits (h.s a) 56 8 = 0 ∧ (h.s a).toNat % pgBytes sz = 0)) :
    ∀ i ∈ [Instr.pgmap d a b e ctx sz, .pgunmap d a ctx sz],
      exec i s = .next (s.adjourn h.key h.side { h.report cPAGE with faddr := h.s a }) := by
  have hgo : ¬ (!s.mapRight (s.ctxOf h.w) ctx.toNat) = true := by rw [hmay]; decide
  have hbad := not_and_or.mp hat
  simp only [List.forall_mem_cons, List.not_mem_nil, false_imp_iff, implies_true, and_true]
  exact ⟨c.onMap_adjourns hx hw ((if_neg hgo).trans (if_pos hbad)), c.onMap_adjourns hx hw ((if_neg hgo).trans (if_pos hbad))⟩

/-- R332: a pgmap that passes its checks goes as its walk says. -/
theorem Clear.exec_pgmap {t : State} (hat : bits (h.s a) 56 8 = 0 ∧ (h.s a).toNat % pgBytes sz = 0)
    (hleaf : s.leafFits ctx.toNat sz (h.s b) = true) (hspare : s.spareFits ctx.toNat (h.s e) = true)
    (hmap : h.mapLeaf s d.toNat (h.s a) (h.s b) (h.s e) ctx.toNat sz = .ok t) : exec (.pgmap d a b e ctx sz) s = .next t := by
  have hexec : exec (.pgmap d a b e ctx sz) s = execPgmap d a b e ctx sz s := rfl
  rw [hexec, execPgmap]
  refine c.onMap_next hx ?_
  simp only [hmay, hat, hleaf, hspare, hmap, Bool.not_true, Bool.false_eq_true, ne_eq, not_true_eq_false, or_self, if_false]

/-- R333: a pgunmap that passes its checks goes as its walk says. -/
theorem Clear.exec_pgunmap {t : State} (hat : bits (h.s a) 56 8 = 0 ∧ (h.s a).toNat % pgBytes sz = 0)
    (hunmap : h.unmapLeaf s d.toNat (h.s a) ctx.toNat sz = .ok t) : exec (.pgunmap d a ctx sz) s = .next t := by
  have hexec : exec (.pgunmap d a ctx sz) s = execPgunmap d a ctx sz s := rfl
  rw [hexec, execPgunmap]
  refine c.onMap_next hx ?_
  simp only [hmay, hat, hunmap, Bool.not_true, Bool.false_eq_true, ne_eq, not_true_eq_false, or_self, if_false]

/-- R334: a pginv that passes its checks is a release and a shootdown. -/
theorem Clear.exec_pginv {s1 : State} (hva : bits (h.s a) 56 8 = 0) (hal : (h.s a).toNat % 65536 = 0)
    (hlen : (h.s b).toNat % 65536 = 0) (hrel : h.release s .pkg = .ok s1) :
    exec (.pginv a b ctx) s = .next (h.shoot s1 ctx.toNat (h.s a).toNat (h.s b).toNat 63 0) := by
  have hexec : exec (.pginv a b ctx) s = execPginv a b ctx s := rfl
  rw [hexec, execPginv]
  refine c.onMap_next hx ?_
  simp only [hmay, hva, hal, hlen, Bool.not_true, Bool.false_eq_true, ne_eq, not_true_eq_false, or_self, if_false, bind_of_ok hrel]

end Forms

section Walks
variable {s : State} {h : Here} {d : Nat} {a : W64} {ctx : Nat} {sz : PgSize} {pa : Nat} {s1 : State}

/-- R332: where every table exists and no leaf stands, pgmap places no table and marks no frame: it writes the leaf, present. -/
theorem Here.mapLeaf_writes {b c : W64}
    (hwalk : s.descend ctx a.toNat (pgLevel sz) 3 (s.ctx ctx).root = .ok (pgLevel sz, pa))
    (hold : s.oldLeaf (pgLevel sz) pa = .ok 0) (hrel : h.release s .pkg = .ok s1) (hS : entS b = false) :
    h.mapLeaf s d a b c ctx sz = .ok (h.shoot (s1.put64 pa (b ||| 3)) ctx a.toNat (pgBytes sz) d 0) := by
  have hpresent : entV 0 = false := rfl
  simp only [Here.mapLeaf, hwalk, if_true, hold, Nat.sub_self, planTables, bind_of_ok hrel, State.placeTables, hpresent, hS,
    ne_eq, not_true_eq_false, and_false, false_and, Bool.false_eq_true, if_false]
  rfl

/-- R333: pgunmap of an address that no leaf maps writes 0. -/
theorem Here.unmapLeaf_unmapped (hwalk : s.leafEntry ctx a.toNat 3 (s.ctx ctx).root = .ok none) :
    h.unmapLeaf s d a ctx sz = .ok (h.done (h.marked s) fun w => w.writeS h.side d 0) := by
  rw [Here.unmapLeaf, hwalk]
  rfl

/-- R333: pgunmap clears a leaf of the size that is not protected and has no S. -/
theorem Here.unmapLeaf_clears (hwalk : s.leafEntry ctx a.toNat 3 (s.ctx ctx).root = .ok (some (pgLevel sz, pa)))
    (h1 : entST (s.get64 pa) ≠ 1) (h2 : entST (s.get64 pa) ≠ 2) (hS : entS (s.get64 pa) = false)
    (hrel : h.release s .pkg = .ok s1) :
    h.unmapLeaf s d a ctx sz = .ok (h.shoot (s1.put64 pa 0) ctx a.toNat (pgBytes sz) d (s.get64 pa)) := by
  simp only [Here.unmapLeaf, hwalk, h1, h2, hS, bind_of_ok hrel, ne_eq, not_true_eq_false, or_self, and_false,
    Bool.false_eq_true, if_false]
  rfl

end Walks

end Sys2Proof.Machine

/-! The end of a shootdown (R330), page walks (R324) and the copies of snapshots (R326). -/
namespace Sys2Proof.Machine

/-- R330: where no pending store is named and no named copy has begun to write, nothing is performed. -/
theorem finish_idle {s : State} {p : Post → Bool} {q : Copy → Bool} (hp : ∀ x ∈ s.mem.posts, p x = false)
    (hq : ∀ y ∈ s.copies, q y.2 = true → y.2.moved = []) : s.finish p q = s := by
  rw [State.finish, settle_none hp]
  refine List.foldlRecOn (motive := (· = s)) _ _ rfl fun t ht y hy => ?_
  obtain ⟨hmem, hqy⟩ := List.mem_filter.mp hy
  rw [hq y hmem hqy, ht]
  rfl

@[simp] theorem State.dropTlb_tlb (s : State) (p : Tlb → Bool) : (s.dropTlb p).mem.tlb = s.mem.tlb.filter fun t => !p t := rfl

/-- R330, step 2: no cache keeps a translation that is named. -/
theorem not_hit_of_mem_dropTlb {s : State} {p : Tlb → Bool} {t : Tlb} (ht : t ∈ (s.dropTlb p).mem.tlb) : p t = false := by
  rw [State.dropTlb_tlb] at ht
  simpa using (List.mem_filter.mp ht).2

/-- R330: shootdown `n` is over and the translations that it names are gone; the stores and copies that it waits for are performed
next, in the same step (log 35). -/
def State.shot (s : State) (n : Nat) (x : Shoot) : State :=
  (s.setMem { s.mem with shoots := s.mem.shoots.erase n }).dropTlb x.hits

theorem exec_shootdown {s : State} {n : Nat} {x : Shoot} (hget : s.mem.shoots.get? n = some x) :
    exec (.shootdown n) s = .next (((s.shot n x).finish (x.hitsPost (s.shot n x)) fun c => c.ctx == x.ctx).returnFrom x.wave
      (.shootdown n) x.d x.val) := by
  have e : exec (.shootdown n) s = execShootdown n s := rfl
  rw [e, execShootdown, hget]
  rfl

/-- R330: with no store and no copy that went through the translations, the end of a shootdown drops them and does nothing else. -/
theorem shot_finish_idle {s : State} {n : Nat} {x : Shoot} (hp : ∀ p ∈ s.mem.posts, x.hitsPost s p = false)
    (hq : ∀ y ∈ s.copies, y.2.ctx = x.ctx → y.2.moved = []) :
    (s.shot n x).finish (x.hitsPost (s.shot n x)) (fun c => c.ctx == x.ctx) = s.shot n x :=
  finish_idle hp fun y hy hctx => hq y hy (beq_iff_eq.mp hctx)

/-- A fragment of slot 0 that stands at the wait goes on with the result. -/
theorem returnFrom_of_first {s : State} {k : Nat} {h : Here} {x : Wait} (e : s.fragment k false = some h) (hx : h.f.wait = x)
    (d : Nat) (v : W64) : s.returnFrom k x d v = h.done s fun w => w.writeS h.side d v := by
  obtain ⟨-, hside, -⟩ := fragment_spec e
  exact returnFrom_of_waiting (hside ▸ e) hx (fun hs => by rw [hside] at hs; cases hs) d v

/-- R324: a walk that succeeds leaves what the translation leaves. -/
theorem exec_pageWalk {s s1 : State} {core ctx pa : Nat} {va : W64} {k : Access}
    (hwalk : s.translate core ctx va.toNat k = (s1, .ok pa)) : exec (.pageWalk core ctx va k) s = .next s1 := by
  have e : exec (.pageWalk core ctx va k) s = execPageWalk core ctx va k s := rfl
  rw [e, execPageWalk, hwalk]

section Snapshots
variable {s : State} {ctx : Nat} {va : W64}

theorem exec_snapshotCopy_unwanted (hno : s.mem.snaps.contains (ctx, va.toNat) = false) :
    exec (.snapshotCopy ctx va) s = .next s :=
  if_neg (by rw [hno]; decide)

/-- R326: the copy that a write waits for is made from the page's shadow. -/
theorem exec_snapshotCopy_copies {k : Nat} {x : Shadow} (hyes : s.mem.snaps.contains (ctx, va.toNat) = true)
    (hshadow : s.shadowOf (fun l h => l.ctx == ctx && h.va == va.toNat) = some (k, x)) :
    exec (.snapshotCopy ctx va) s = .next (s.snapshot k x) := by
  have e : exec (.snapshotCopy ctx va) s = execSnapshotCopy ctx va s := rfl
  rw [e, execSnapshotCopy, if_pos hyes, hshadow]

end Snapshots

/-- Settles O50: a form is its checks and then its walk; a shootdown drops translations, performs what went through them and
lets its form go on, all in one step (log 35, with log 3). -/
theorem mapInstructions : Obligations.MapInstructions := by
  unfold Obligations.MapInstructions
  refine ⟨fun s h x c hx d a b e ctx sz => ?stays, fun s h d a b e ctx sz c hx => ?forms,
    fun s h d a b c ctx sz pa s1 => Here.mapLeaf_writes,
    fun s h d a ctx sz => ⟨Here.unmapLeaf_unmapped, fun pa s1 hwalk => Here.unmapLeaf_clears hwalk⟩,
    fun n s x hget => ?shootdown, fun core ctx va k s s1 pa => exec_pageWalk,
    fun ctx va s => ⟨exec_snapshotCopy_unwanted, fun hyes k x => exec_snapshotCopy_copies hyes⟩⟩
  case stays => exact ⟨c.onMap_stays hx _ _, c.onMap_stays hx _ _, c.onMap_stays hx _ _⟩
  case forms =>
    refine ⟨fun hw hmay => c.mapForm_unrightful hx hw (Bool.eq_false_iff.mpr hmay), fun hw hmay => c.mapForm_noPage hx hmay hw,
      fun t hmay hat => c.exec_pgmap hx hmay hat, fun t hmay hat => c.exec_pgunmap hx hmay hat,
      fun s1 hmay => c.exec_pginv hx hmay⟩
  case shootdown =>
    exact ⟨exec_shootdown hget, fun t => not_hit_of_mem_dropTlb, Table.get?_erase_same _ _, fun a => rfl, shot_finish_idle,
      fun h hfrag hwait => returnFrom_of_first hfrag hwait _ _⟩

end Sys2Proof.Machine

/-! Commands of the context-control entries (R338, R342, R472): what each leaves of the contexts, of ERR and of memory. -/
namespace Sys2Proof.Machine

/-- What a write of the device to memory leaves alone: the contexts and the registers of the host's port. -/
structure SameControl (s t : State) : Prop where
  ctxs : t.ctxs = s.ctxs
  health : t.health = s.health

theorem SameControl.refl (s : State) : SameControl s s := ⟨rfl, rfl⟩

theorem SameControl.trans {s t u : State} (a : SameControl s t) (b : SameControl t u) : SameControl s u :=
  ⟨b.ctxs.trans a.ctxs, b.health.trans a.health⟩

theorem SameControl.ctx {s t : State} (a : SameControl s t) (c : Nat) : t.ctx c = s.ctx c := by
  rw [State.ctx, a.ctxs]
  rfl

theorem SameControl.foldl {α : Type} {f : State → α → State} (hf : ∀ s x, SameControl s (f s x)) (l : List α) (s : State) :
    SameControl s (l.foldl f s) :=
  List.foldlRecOn (motive := SameControl s) l f (.refl s) fun t ht x _ => ht.trans (hf t x)

theorem SameControl.recoverLine (s : State) (l : Nat) : SameControl s (s.recoverLine l) := by
  unfold State.recoverLine
  split
  · exact ⟨rfl, rfl⟩
  · exact .refl s

theorem SameControl.probe (s : State) (l : Nat) (ts : List Nat) : SameControl s (s.probe l ts).1 :=
  .foldl (f := fun s d => s.probeDrop l d) (fun _ _ => ⟨rfl, rfl⟩) _ s

theorem SameControl.recall (s : State) (l : Nat) : SameControl s (s.recall l) := by
  have hprobe (ts : List Nat) := (recoverLine s l).trans (.probe _ l ts)
  unfold State.recall
  dsimp only
  split
  · exact recoverLine s l
  · exact ⟨(hprobe _).ctxs, (hprobe _).health⟩

theorem SameControl.putBytes (s : State) (pa : Nat) (l : List Byte) : SameControl s (s.putBytes pa l) := by
  have hrec := foldl (fun s l => SameControl.recall s l) (linesOf pa l.length) s
  exact ⟨hrec.ctxs, hrec.health⟩

@[simp] theorem State.ctx_setCtx_same (s : State) (c : Nat) (f : Ctx → Ctx) : (s.setCtx c f).ctx c = f (s.ctx c) := by
  rw [State.ctx, State.setCtx, Table.get?_put_same]
  rfl

theorem State.ctx_setCtx_other (s : State) {c j : Nat} (f : Ctx → Ctx) (h : j ≠ c) : (s.setCtx c f).ctx j = s.ctx j := by
  rw [State.ctx, State.setCtx, Table.get?_put_other _ _ _ _ h]
  rfl

@[simp] theorem State.takeCmd_ctx (s : State) (c j : Nat) : (s.takeCmd c).ctx j = s.ctx j := rfl
@[simp] theorem State.writeDesc_ctx (s : State) (c j : Nat) (v : W64) : (s.writeDesc c v).ctx j = s.ctx j := rfl
@[simp] theorem State.markCtx_ctx (s : State) (c a j : Nat) (x : Ctx) : (s.markCtx c a x).ctx j = s.ctx j := rfl
@[simp] theorem State.dropTlb_ctx (s : State) (p : Tlb → Bool) (j : Nat) : (s.dropTlb p).ctx j = s.ctx j := rfl
@[simp] theorem State.setHealth_ctx (s : State) (f : Health → Health) (j : Nat) : (s.setHealth f).ctx j = s.ctx j := rfl
@[simp] theorem State.closeScopes_ctx (s : State) (x : Ctx) (j : Nat) : (s.closeScopes x).ctx j = s.ctx j :=
  (SameControl.putBytes ..).ctx j
@[simp] theorem State.closeScopes_health (s : State) (x : Ctx) : (s.closeScopes x).health = s.health :=
  (SameControl.putBytes ..).health

/-- R472: ERR of an entry reads 0 once its command is accepted. -/
theorem not_mem_takeCmd_ctxErr (s : State) (c : Nat) : c ∉ (s.takeCmd c).health.ctxErr := fun h => by
  simpa using (List.mem_filter.mp h).2

/-- R342: a mark changes the list of system frames alone. -/
theorem mark_sys (m : MemSys) (pa n cause : Nat) : ∃ sys, m.mark pa n cause = { m with sys } := by
  unfold MemSys.mark
  split <;> exact ⟨_, rfl⟩

theorem markCtx_sys (s : State) (c desc : Nat) (x : Ctx) : ∃ sys, s.markCtx c desc x = s.setMem { s.mem with sys } := by
  have hfold : ∃ sys, ((desc, 128) :: x.parts).foldl (fun m r => m.mark r.1 r.2 c) s.mem = { s.mem with sys } := by
    refine List.foldlRecOn (motive := fun m : MemSys => ∃ sys, m = { s.mem with sys }) _ _ ⟨s.mem.sys, rfl⟩ ?_
    rintro _ ⟨sys, rfl⟩ r _
    exact mark_sys { s.mem with sys } r.1 r.2 c
  obtain ⟨sys, h⟩ := hfold
  exact ⟨sys, congrArg s.setMem h⟩

theorem bytesFn_replicate (pa n : Nat) (b : Byte) {a : Nat} (h : a - pa < n) : bytesFn pa (List.replicate n b) a = b := by
  simp [bytesFn, List.getD_eq_getElem?_getD, h]

/-- R338: on coherent memory the finish-scope table reads 0, and every other byte is as before. -/
theorem closeScopes_bytes {s : State} {x : Ctx} (hc : Coherent s) (hb : x.fstab + 4096 ≤ 2 ^ 52) {a : Nat} (ha : a < 2 ^ 52) :
    (s.closeScopes x).mem.byteAt a = if x.fstab ≤ a ∧ a < x.fstab + 4096 then 0 else s.mem.byteAt a := by
  have hst := homeWrite_stored (s := s) (pa := x.fstab) (n := 4096) (bytesFn x.fstab (List.replicate 4096 0)) none hb hc
  rw [State.closeScopes, State.putBytes, List.length_replicate, hst.bytes a ha]
  split
  · exact bytesFn_replicate _ _ _ (by omega)
  · rfl

/-- The state in which an accepted create of context `c` closes the finish scopes: its entry, its frames and its context are
set. -/
def State.createdAs (s : State) (c desc : Nat) (x : Ctx) : State :=
  ((((s.writeDesc c (BitVec.ofNat 64 desc)).takeCmd c).markCtx c desc x).dropTlb fun t => t.ctx == c).setCtx c
    fun y => { x with st := .created, gens := y.gens }

section Create
variable {s : State} {c desc : Nat} {x : Ctx}

theorem exec_contextCreate (h1 : 1 ≤ c) (h64 : c < 64) (hfree : (s.ctx c).st = .free) (h0 : s.health.c0desc ≠ 0)
    (hread : s.readDesc desc = some x) (hfits : s.descFits false x = true) :
    exec (.contextCreate c desc) s = .next ((s.createdAs c desc x).closeScopes x) := by
  have e : exec (.contextCreate c desc) s = execContextCreate c desc s := rfl
  have hread' : (s.writeDesc c (BitVec.ofNat 64 desc)).readDesc desc = some x := hread
  have hfits' : (s.writeDesc c (BitVec.ofNat 64 desc)).descFits false x = true := hfits
  rw [e, execContextCreate, if_pos h64]
  dsimp only
  rw [if_pos ⟨h1, h64, hfree, h0⟩, hread']
  dsimp only
  rw [hfits']
  rfl

/-- What a create sets: contexts, system frames, cached translations, DESC and ERR. -/
theorem createdAs_only : ∃ ctxs sys tlb ctxDesc ctxErr, s.createdAs c desc x =
    { s with ctxs, mem := { s.mem with sys, tlb }, health := { s.health with ctxDesc, ctxErr } } := by
  obtain ⟨sys, h⟩ := markCtx_sys ((s.writeDesc c (BitVec.ofNat 64 desc)).takeCmd c) c desc x
  rw [State.createdAs, h]
  simp only [State.setCtx, State.dropTlb, State.setMem, State.takeCmd, State.writeDesc, State.setHealth]
  exact ⟨_, sys, _, _, _, rfl⟩

theorem createdAs_coherent (hc : Coherent s) : Coherent (s.createdAs c desc x) := by
  obtain ⟨_, _, _, _, _, h⟩ := createdAs_only (s := s) (c := c) (desc := desc) (x := x)
  rw [h]
  exact coherent_of_same (s := s) (fun _ _ => rfl) (fun _ => rfl) (fun _ _ => ⟨rfl, fun _ => rfl, fun _ _ => rfl, Iff.rfl⟩) hc

theorem createdAs_byteAt (a : Nat) : (s.createdAs c desc x).mem.byteAt a = s.mem.byteAt a := by
  obtain ⟨_, _, _, _, _, h⟩ := createdAs_only (s := s) (c := c) (desc := desc) (x := x)
  rw [h]
  rfl

theorem createdAs_ctx : (s.createdAs c desc x).ctx c = { x with st := .created, gens := (s.ctx c).gens } := by
  simp [State.createdAs]

theorem createdAs_ctx_other {j : Nat} (hj : j ≠ c) : (s.createdAs c desc x).ctx j = s.ctx j := by
  simp [State.createdAs, State.ctx_setCtx_other _ _ hj]

theorem createdAs_ctxErr : c ∉ (s.createdAs c desc x).health.ctxErr := not_mem_takeCmd_ctxErr _ c

end Create

section Moves
variable {s : State} {c : Nat} {old new : CState} {ok : Bool}

theorem moveCtx_moves (h1 : 1 ≤ c) (h64 : c < 64) (hst : (s.ctx c).st = old) (hok : ok = true) :
    s.moveCtx c old new ok = .next ((s.takeCmd c).setCtx c fun x => { x with st := new }) :=
  if_pos ⟨h1, h64, hst, hok⟩

/-- R472: context 0, a number past the contexts and a context in another state are refused. -/
theorem moveCtx_refuses (h : c = 0 ∨ 64 ≤ c ∨ (s.ctx c).st ≠ old ∨ ok = false) :
    s.moveCtx c old new ok = .next (s.refuseCmd c) := by
  refine if_neg fun ⟨h1, h64, hst, hok⟩ => ?_
  rcases h with h | h | h | h
  · omega
  · omega
  · exact h hst
  · rw [h] at hok
    cases hok

theorem exec_contextDestroy (h1 : 1 ≤ c) (h64 : c < 64) (hfree : (s.ctx c).st ≠ .free) (hdest : (s.ctx c).st ≠ .destroying) :
    exec (.contextDestroy c) s = .next (((s.takeCmd c).destroyCtx c).setCtx c fun x => { x with st := .destroying }) :=
  if_pos ⟨h1, h64, hfree, hdest⟩

theorem exec_contextDestroy_refused (h : (s.ctx c).st = .free ∨ (s.ctx c).st = .destroying) :
    exec (.contextDestroy c) s = .next (s.refuseCmd c) :=
  if_neg fun ⟨_, _, hfree, hdest⟩ => h.elim hfree hdest

end Moves

/-- R338, R342: context `c` is free; its system frames, cached translations, queues and launches are gone. -/
def State.freed (s : State) (c : Nat) : State :=
  let s1 := (s.setMem { s.mem with sys := s.mem.sys.filter fun x => x.2.2 != c }).dropTlb fun t => t.ctx == c
  { (s1.setCtx c fun x => { gens := x.gens }) with
    queues := s1.queues.filter fun x => x.1 / 64 != c
    launches := s1.launches.filter fun x => x.2.ctx != c }

section Free
variable {s : State} {c : Nat}

theorem exec_contextFree (hst : (s.ctx c).st = .destroying) (hgone : s.ctxGone c = true) :
    exec (.contextFree c) s = .next (s.freed c) :=
  if_neg fun h => h.elim (fun hne => hne hst) (by rw [hgone]; decide)

theorem freed_ctx : (s.freed c).ctx c = { gens := (s.ctx c).gens } :=
  State.ctx_setCtx_same ((s.setMem { s.mem with sys := s.mem.sys.filter fun x => x.2.2 != c }).dropTlb fun t => t.ctx == c) c
    fun x => { gens := x.gens }

theorem freed_ctx_other {j : Nat} (hj : j ≠ c) : (s.freed c).ctx j = s.ctx j :=
  State.ctx_setCtx_other ((s.setMem { s.mem with sys := s.mem.sys.filter fun x => x.2.2 != c }).dropTlb fun t => t.ctx == c)
    (fun x => { gens := x.gens }) hj

/-- R342: no system frame of the context is left. -/
theorem not_marked_of_freed {y : Nat × Nat × Nat} (hy : y ∈ (s.freed c).mem.sys) : y.2.2 ≠ c := by
  simpa using (List.mem_filter.mp hy).2

/-- R338: no translation of the context stays cached. -/
theorem not_cached_of_freed {y : Tlb} (hy : y ∈ (s.freed c).mem.tlb) : y.ctx ≠ c := by
  simpa using not_hit_of_mem_dropTlb (s := s) hy

end Free

section C0desc
variable {s : State} {v : W64} {x : Ctx}

/-- R342: C0DESC is written once, while context 0 is created. -/
theorem exec_c0descWrite_refused (h : s.health.c0desc ≠ 0 ∨ (s.ctx 0).st ≠ .created) :
    exec (.c0descWrite v) s = .next (s.refuse 0x3030) := if_pos h

theorem exec_c0descWrite (h0 : s.health.c0desc = 0) (hst : (s.ctx 0).st = .created) (hv : v ≠ 0)
    (hread : s.readDesc v.toNat = some x) (hfits : s.descFits true x = true) :
    exec (.c0descWrite v) s = .next ((((s.markCtx 0 v.toNat x).setHealth fun h => { h with c0desc := v }).setCtx 0
      fun y => { x with st := .active, gens := y.gens }).closeScopes x) := by
  have e : exec (.c0descWrite v) s = execC0descWrite v s := rfl
  rw [e, execC0descWrite, if_neg fun h => h.elim (fun hne => hne h0) fun hne => hne hst, if_neg hv, hread]
  dsimp only
  rw [hfits]
  rfl

end C0desc

/-- Settles O53: each command is its equation above; only a create and C0DESC write memory, at the finish-scope table (log 39,
log 37), and such a write leaves the contexts and the host's registers alone. -/
theorem contextCommands : Obligations.ContextCommands := by
  unfold Obligations.ContextCommands
  refine ⟨fun c desc s x h1 h64 hfree h0 hread hfits => ?create, fun c s p hp => ?move, fun c s h1 h64 =>
    ⟨exec_contextDestroy h1 h64, exec_contextDestroy_refused⟩, fun c s hst hgone => ?free,
    fun v s => ⟨exec_c0descWrite_refused, fun x h0 hst hv hread hfits => ?c0desc⟩⟩
  case create =>
    refine ⟨_, exec_contextCreate h1 h64 hfree h0 hread hfits, ?_, ?_, ?_, ?_, fun j hj => ?_, fun hc hb a ha => ?_⟩
    · rw [State.closeScopes_ctx, createdAs_ctx]
    · rw [State.closeScopes_ctx, createdAs_ctx]
    · rw [State.closeScopes_ctx, createdAs_ctx]
    · rw [State.closeScopes_health]
      exact createdAs_ctxErr
    · rw [State.closeScopes_ctx, createdAs_ctx_other hj]
    · rw [closeScopes_bytes (createdAs_coherent hc) hb ha, createdAs_byteAt]
  case move =>
    have hmove : exec p.1 s = s.moveCtx c p.2.1 p.2.2.1 p.2.2.2 := by
      simp only [List.mem_cons, List.not_mem_nil, or_false] at hp
      rcases hp with rfl | rfl | rfl | rfl <;> rfl
    rw [hmove]
    exact ⟨moveCtx_moves, moveCtx_refuses⟩
  case free =>
    exact ⟨_, exec_contextFree hst hgone, freed_ctx, fun j hj => freed_ctx_other hj, rfl, fun y hy => not_marked_of_freed hy,
      fun y hy => not_cached_of_freed hy, fun a => rfl⟩
  case c0desc =>
    refine ⟨_, exec_c0descWrite h0 hst hv hread hfits, ?_, ?_, ?_, fun j hj => ?_⟩
    · simp
    · simp
    · simp [State.setHealth]
    · simp [State.ctx_setCtx_other _ _ hj]

end Sys2Proof.Machine

/-! Phases: what an arrival and a change of BYTES leave of a barrier object (R415, R417), and a group's completion (R407). -/
namespace Sys2Proof.Machine

section Objects
variable (b : BarObj)

/-- R417: an arrival where none is awaited only sets ERR. -/
theorem BarObj.arrive_unawaited (k : Nat) (hp : b.pend = 0) : b.arrive k = { b with err := true } := if_pos hp

/-- R415, R417: an arrival counts down, to 0 at most, and completes the phase where it leaves nothing pending. -/
theorem BarObj.arrive_counts (k : Nat) (hp : b.pend ≠ 0) : b.arrive k =
    { b with pend := BitVec.ofNat 16 (b.pend.toNat - k), err := b.err || decide (b.pend.toNat < k) : BarObj }.settle := by
  rw [BarObj.arrive, if_neg hp]
  split
  case isTrue hlt => simp [hlt, Nat.sub_eq_zero_of_le hlt.le]
  case isFalse hle =>
    have hsub : b.pend - BitVec.ofNat 16 k = BitVec.ofNat 16 (b.pend.toNat - k) := by
      have hb := b.pend.isLt
      apply BitVec.eq_of_toNat_eq
      simp only [BitVec.toNat_sub, BitVec.toNat_ofNat]
      omega
    simp [hle, hsub]

/-- R415: the bounds of s64. -/
def clamp64 (x : Int) : Int := max (-2 ^ 63) (min (2 ^ 63 - 1) x)

theorem ofInt_clamp64_eq_zero_iff (x : Int) : BitVec.ofInt 64 (clamp64 x) = 0 ↔ clamp64 x = 0 := by
  have hr : -2 ^ 63 ≤ clamp64 x ∧ clamp64 x < 2 ^ 63 := by unfold clamp64; omega
  have hto : (BitVec.ofInt 64 (clamp64 x)).toInt = clamp64 x := BitVec.toInt_ofInt_eq_self (by decide) hr.1 hr.2
  refine ⟨fun e => ?_, fun e => by rw [e]; rfl⟩
  rw [← hto, e]
  rfl

/-- R415: BYTES saturates with ERR, and the phase completes where nothing is pending. -/
theorem BarObj.addBytes_saturates (x : Int) : b.addBytes x =
    { b with bytes := BitVec.ofInt 64 (clamp64 (b.bytes.toInt + x)),
             err := b.err || decide (clamp64 (b.bytes.toInt + x) ≠ b.bytes.toInt + x) : BarObj }.settle := by
  unfold BarObj.addBytes
  dsimp only
  generalize b.bytes.toInt + x = y
  split
  case isTrue hlt =>
    have hc : clamp64 y = -2 ^ 63 := by unfold clamp64; omega
    rw [decide_eq_true (hc.trans_ne hlt.ne'), Bool.or_true, hc]
  case isFalse hge =>
    split
    case isTrue hgt =>
      have hc : clamp64 y = 2 ^ 63 - 1 := by unfold clamp64; omega
      rw [decide_eq_true (hc.trans_ne hgt.ne), Bool.or_true, hc]
    case isFalse hle =>
      have hc : clamp64 y = y := by unfold clamp64; omega
      simp [hc]

end Objects

/-- The least member of a set that is not empty is a member, and none below it is. -/
theorem leastBit_spec {m : BitVec 64} (hm : m ≠ 0) : m.getLsbD (leastBit m).toNat = true ∧
    ∀ j, j < (leastBit m).toNat → m.getLsbD j = false := by
  obtain ⟨i, hi, hbit⟩ : ∃ i, i < 64 ∧ m.getLsbD i = true := by
    by_contra hno
    refine hm (BitVec.eq_of_getLsbD_eq fun i hi => ?_)
    simpa using fun hb => hno ⟨i, hi, hb⟩
  cases hfind : (List.range 64).find? fun i => m.getLsbD i with
  | none => exact absurd hbit (List.find?_eq_none.mp hfind i (List.mem_range.mpr hi))
  | some n =>
    obtain ⟨hn, hmem, hleast⟩ := List.find?_range_eq_some.mp hfind
    have hlt : n < 64 := List.mem_range.mp hmem
    have hto : (leastBit m).toNat = n := by
      rw [leastBit, hfind, Option.getD_some, BitVec.toNat_ofNat, Nat.mod_eq_of_lt hlt]
    rw [hto]
    exact ⟨hn, fun j hj => by simpa using hleast j hj⟩

/-- A live set inside the arrivals that is not empty: someone has arrived. -/
theorem arrived_of_covered {l a : BitVec 64} (hl : l ≠ 0) (hc : l &&& ~~~a = 0) : a ≠ 0 := by
  rintro rfl
  exact hl ((BitVec.and_allOnes).symm.trans hc)

/-- Settles O44: an arrival and a change of BYTES end in the same test of the object; a group completes by one test. -/
theorem phasesComplete : Obligations.PhasesComplete := by
  unfold Obligations.PhasesComplete
  refine ⟨fun b k => b.arrive_unawaited k, fun b k hp => b.arrive_counts k hp, fun b x => ?bytes,
    fun g => ⟨fun hcover => ?completes, fun hno => if_neg hno⟩⟩
  case bytes =>
    intro y e
    have hy : y = clamp64 (b.bytes.toInt + x) := rfl
    rw [b.addBytes_saturates, ← hy]
    have hzero : BitVec.ofInt 64 y = 0 ↔ y = 0 := ofInt_clamp64_eq_zero_iff _
    by_cases hz : b.pend = 0 ∧ y = 0
    · rw [if_pos hz, BarObj.settle, if_pos ⟨hz.1, hzero.mpr hz.2⟩, hzero.mpr hz.2]
    · rw [if_neg hz, BarObj.settle, if_neg fun hs => hz ⟨hs.1, hzero.mp hs.2⟩]
  case completes =>
    have hg : g.tryComplete = _ := if_pos hcover
    rw [hg]
    exact ⟨rfl, rfl, rfl, rfl, rfl, rfl, rfl, rfl, rfl, rfl, leastBit_spec (arrived_of_covered hcover.1 hcover.2)⟩

end Sys2Proof.Machine

/-! Instructions that name scalars alone: the meaning decides, as nothing else can stand in their way. -/
namespace Sys2Proof.Machine

section Scalars
variable {s s1 t : State} {h : Here} {rs : List Nat} (c : Clear s h rs) (sr : List Nat) {k : Here → Except Abort State}
include c

theorem Clear.scalars_next (hk : k h = .ok t) : onWave Guard.none { sr } s k = .next t := by
  rw [c.onWave_scalars, hk]
  rfl

theorem Clear.scalars_adjourns {r : Report} (hw : h.w.mustWait s h.key = false) (hk : k h = .error (.trap r s1)) :
    onWave Guard.none { sr } s k = .next (s1.adjourn h.key h.side r) := by
  rw [c.onWave_scalars, hk]
  exact finish_trap hw r s1

end Scalars

end Sys2Proof.Machine

/-! Registers that move between waves, and levels (R402, R403). -/
namespace Sys2Proof.Machine

section Moves
variable {s : State} {h : Here} {v : W64} {k : Nat}

theorem Here.qxferStatus_le : h.qxferStatus s v k ≤ 5 := by
  unfold Here.qxferStatus
  repeat' split
  all_goals omega

/-- R402: a qxfer that meets no condition names another wave of the crew. -/
theorem Here.waveOf_of_qxferStatus (hst : h.qxferStatus s v k = 0) :
    ∃ tk t, s.waveOf h.w.crew (bits v 0 6) = some (tk, t) ∧ tk ≠ h.key := by
  unfold Here.qxferStatus at hst
  split at hst
  · cases hst
  · split at hst
    · cases hst
    case h_2 tk t hwave =>
      split at hst
      · cases hst
      · exact ⟨tk, t, hwave, ‹_›⟩

variable (c : Clear s h [])
include c

/-- R403: wprio writes the level as it was and sets the new one. -/
theorem Clear.exec_wprio (d : BitVec 6) (e : BitVec 2) : exec (.wprio d e) s = .next (h.done s fun w =>
    { w.writeS h.side d.toNat (h.w.level.setWidth 64) with level := e }) := c.scalars_next [] rfl

variable {d a : BitVec 6} {n : BitVec 4}

theorem Clear.exec_qxfer_refuses (hst : h.qxferStatus s (h.s a) n.toNat ≠ 0) : exec (.qxfer d a n) s =
    .next (h.done s fun w => w.writeS h.side d.toNat (BitVec.ofNat 64 (h.qxferStatus s (h.s a) n.toNat))) :=
  c.scalars_next [a.toNat] (if_neg hst)

/-- R402: the granules move, where no predicate is on its way to a register that goes. -/
theorem Clear.exec_qxfer_moves {tk : Nat} {t : Wave} (hst : h.qxferStatus s (h.s a) n.toNat = 0)
    (hfree : ∀ x ∈ s.stores.preds, x.2.wave = h.key → x.2.d < h.w.n - 16 * n.toNat)
    (hwave : s.waveOf h.w.crew (bits (h.s a) 0 6) = some (tk, t)) : exec (.qxfer d a n) s =
      .next (h.done (s.grow tk n.toNat) fun w => (w.shrink n.toNat).writeS h.side d.toNat 0) := by
  have hnone : ¬ (s.stores.preds.any fun x => x.2.wave == h.key && decide (h.w.n - 16 * n.toNat ≤ x.2.d)) = true := by
    intro hany
    obtain ⟨x, hx, hbit⟩ := List.any_eq_true.mp hany
    obtain ⟨hmine, hgone⟩ := Bool.and_eq_true_iff.mp hbit
    exact (hfree x hx (eq_of_beq hmine)).not_ge (of_decide_eq_true hgone)
  refine c.scalars_next [a.toNat] ((if_pos hst).trans ((if_neg hnone).trans ?_))
  rw [hwave]
  rfl

end Moves

/-- Settles O43: a status that is not 0 is written alone; without one the named wave gains what this one loses. -/
theorem registersMoveBetweenWaves : Obligations.RegistersMoveBetweenWaves := by
  unfold Obligations.RegistersMoveBetweenWaves
  refine fun s h c => ⟨c.exec_wprio, fun d a k => ⟨fun hst => ⟨c.exec_qxfer_refuses hst, Here.qxferStatus_le⟩, fun hst hfree => ?_⟩⟩
  obtain ⟨tk, t, hwave, hne⟩ := Here.waveOf_of_qxferStatus hst
  exact ⟨tk, t, hwave, hne, c.exec_qxfer_moves hst hfree hwave⟩

end Sys2Proof.Machine

/-! Groups: arrivals, waits and returns (R407, R408, R410, R411). -/
namespace Sys2Proof.Machine

section Groups
variable {s : State} {h : Here} (c : Clear s h []) (i : Instr) {n : BitVec 8} {vote : Option (BitVec 6)}
include c

/-- R411: the wave is no member of the group, or there is no such group. -/
theorem Clear.onGroup_foreign (hw : h.w.mustWait s h.key = false)
    (hno : (((s.crew h.w.crew).groups.get? n.toNat).map (·.members.getLsbD h.w.wid)).getD false = false) :
    onGroup i n vote s = .next (s.adjourn h.key h.side (h.report cPROT)) := by
  refine c.scalars_adjourns _ hw ?_
  cases hg : (s.crew h.w.crew).groups.get? n.toNat with
  | none => rfl
  | some g =>
    rw [hg] at hno
    exact if_pos (by rw [show g.members.getLsbD h.w.wid = false from hno]; rfl)

variable {g : Group} (hg : (s.crew h.w.crew).groups.get? n.toNat = some g) (hmem : g.members.getLsbD h.w.wid = true)
include hg hmem

/-- R407: a recorded wait goes on once its phase is over. -/
theorem Clear.onGroup_waiting {m : Nat} {ph : Bool} (hwait : h.f.wait = .group m ph) : onGroup i n vote s =
    .next (if g.ph = ph ∨ h.f.ended.isSome then h.done (h.acquire s .crw) ((g.ended h.f.ended).write i h.side) else s) := by
  refine c.scalars_next _ ?_
  simp only [hg, hmem, hwait, Bool.not_true, Bool.false_eq_true, if_false, Bool.or_eq_true, beq_iff_eq]
  split <;> rfl

/-- R410: the first arrival of a wave, after a release: it waits, or it is the last and completes the phase. -/
theorem Clear.onGroup_arrives {s0 : State} (hwait : h.f.wait = .none)
    (hrel : (if g.arr.getLsbD h.w.wid then .ok s else h.release s .crw) = .ok s0) :
    let y := (g.arrive h.w.wid (vote.map h.s)).tryComplete
    let s1 := s0.setCrew h.w.crew fun c => { c with groups := c.groups.put n.toNat y }
    onGroup i n vote s = .next (if y.ph = g.ph then h.await s1 (.group n.toNat (!g.ph))
      else (h.done (h.acquire s1 .crw) (y.write i h.side)).groupRelease h.w.crew n.toNat y) := by
  refine c.scalars_next _ ?_
  simp only [hg, hmem, hwait, Bool.not_true, Bool.false_eq_true, if_false, beq_iff_eq]
  refine (ite_bind_of_ok hrel _).trans ?_
  split <;> rfl

end Groups

/-- The group and the vote of a form. -/
theorem exec_groupForm {g : BitVec 8} {d a : BitVec 6} {p : Instr × Option (BitVec 6)}
    (hp : p ∈ [(Instr.grpa g, none), (.grpe d g, none), (.grpvAnd d a g, some a), (.grpvOr d a g, some a),
      (.grpvAdd d a g, some a)]) (s : State) : exec p.1 s = onGroup p.1 g p.2 s := by
  simp only [List.mem_cons, List.not_mem_nil, or_false] at hp
  rcases hp with rfl | rfl | rfl | rfl | rfl <;> rfl

/-- Settles O42: the five forms differ in their vote and in what they write at the return. -/
theorem groupArrivals : Obligations.GroupArrivals := by
  unfold Obligations.GroupArrivals
  intro g d a p hp s h c G
  rw [exec_groupForm hp]
  exact ⟨fun hno hw => c.onGroup_foreign p.1 hw hno, fun x hx hmem => ⟨fun n ph => c.onGroup_waiting p.1 hx hmem,
    fun s0 => c.onGroup_arrives p.1 hx hmem⟩⟩

end Sys2Proof.Machine

/-! Barrier objects: an object reads back as written (R413), and what its five forms do (R418, R419). -/
namespace Sys2Proof.Machine

section Fields
variable (b : BarObj)

/-- R413: the fields of bits [63:0] read back. -/
theorem BarObj.low_fields : b.low.getLsbD 63 = b.ph ∧ b.low.getLsbD 62 = b.err ∧ b.low.extractLsb' 32 30 = b.rest ∧
    b.low.extractLsb' 16 16 = b.expd ∧ b.low.extractLsb' 0 16 = b.pend := by
  unfold BarObj.low
  refine ⟨?_, ?_, ?_, ?_, ?_⟩
  · simp only [BitVec.getLsbD_append]
    simp
  · simp only [BitVec.getLsbD_append]
    simp
  all_goals
    ext i hi
    simp only [BitVec.getElem_extractLsb', BitVec.getLsbD_append]
  · rw [if_neg (by omega), if_neg (by omega), if_pos (by omega), show 32 + i - 16 - 16 = i by omega, BitVec.getLsbD_eq_getElem hi]
  · rw [if_neg (by omega), if_pos (by omega), show 16 + i - 16 = i by omega, BitVec.getLsbD_eq_getElem hi]
  · rw [if_pos (by omega), Nat.zero_add, BitVec.getLsbD_eq_getElem hi]

end Fields

/-- The bytes of the cluster space that a write has just set. -/
theorem State.getA_putA (s : State) (clus a n : Nat) (f : Nat → Byte) {b m : Nat} (hlo : a ≤ b) (hhi : b + m ≤ a + n) :
    (s.putA clus a n f).getA clus b m = (List.range m).map fun i => f (b + i) := by
  refine List.map_congr_left fun i hi => ?_
  have hi' := List.mem_range.mp hi
  rw [State.putA, Cells.read_update, if_pos (by omega)]
  congr 1
  omega

/-- A list stands in a longer one where it was put. -/
theorem range_map_getD_append (p l q : List Byte) :
    ((List.range l.length).map fun i => (p ++ l ++ q).getD (p.length + i) 0) = l := by
  refine List.ext_getElem (by simp) fun i hi hl => ?_
  simp only [List.getElem_map, List.getElem_range, List.getD_eq_getElem?_getD, List.append_assoc]
  rw [List.getElem?_append_right (by omega), Nat.add_sub_cancel_left, List.getElem?_append_left hl, List.getElem?_eq_getElem hl]
  rfl

/-- R413, R414: an object reads back as it was written. -/
theorem State.barObj_setBarObj (s : State) (clus off : Nat) (b : BarObj) : (s.setBarObj clus off b).barObj clus off = b := by
  have hlow : (s.setBarObj clus off b).getA clus off 8 = leBytes 8 b.low.toNat := by
    rw [State.setBarObj, State.getA_putA _ _ _ _ _ le_rfl (by omega)]
    simpa [bytesFn, length_leBytes] using range_map_getD_append [] (leBytes 8 b.low.toNat) (leBytes 8 b.bytes.toNat)
  have hbytes : (s.setBarObj clus off b).getA clus (off + 8) 8 = leBytes 8 b.bytes.toNat := by
    rw [State.setBarObj, State.getA_putA _ _ _ _ _ (by omega) (by omega)]
    have h := range_map_getD_append (leBytes 8 b.low.toNat) (leBytes 8 b.bytes.toNat) []
    simpa [bytesFn, length_leBytes, Nat.add_assoc] using h
  have hword (x : W64) : BitVec.ofNat 64 (leNat (leBytes 8 x.toNat)) = x := by
    rw [leNat_leBytes]
    exact BitVec.eq_of_toNat_eq (by simp [Nat.mod_eq_of_lt x.isLt])
  obtain ⟨hph, herr, hrest, hexpd, hpend⟩ := b.low_fields
  rw [State.barObj, hlow, hbytes, hword, hword, hph, herr, hrest, hexpd, hpend]

/-- R414: every byte beside the object is as before. -/
theorem State.read_setBarObj_outside (s : State) (clus off : Nat) (b : BarObj) {k : Nat}
    (hk : ¬ (2 ^ 22 * clus + off ≤ k ∧ k < 2 ^ 22 * clus + off + 16)) :
    (s.setBarObj clus off b).stores.astore.read k = s.stores.astore.read k := by
  rw [State.setBarObj, State.putA, Cells.read_update, if_neg hk]

theorem exec_bari (a b : BitVec 6) (s : State) : exec (.bari a b) s = execBari a b s := rfl
theorem exec_bara (d a : BitVec 6) (n : BitVec 16) (s : State) : exec (.bara d a n) s = execBara d a n s := rfl
theorem exec_barx (a b : BitVec 6) (s : State) : exec (.barx a b) s = execBarx a b s := rfl
theorem exec_bart (d a : BitVec 6) (s : State) : exec (.bart d a) s = execBart d a s := rfl

section Forms
variable {s : State} {h : Here} (c : Clear s h [])
include c

theorem Clear.onBar_idle {i : Instr} {a : BitVec 6} {sr : List Nat} {k : Here → Nat → Nat → Except Abort State}
    (e : exec i s = onBar a sr s k) (hm : h.f.mask = 0) : exec i s = .next (h.done s id) :=
  e.trans (c.scalars_next _ (if_pos hm))

/-- R419: a recorded wait asks for its object's phase alone. -/
theorem Clear.barw_waiting {a b : BitVec 6} {off : Nat} {ph : Bool} (hwait : h.f.wait = .barrier off ph) :
    exec (.barw a b) s =
      .next (if s.objPh (h.w.core / 8) off = ph ∨ h.f.ended.isSome then h.done (h.acquire s .crw) id else s) := by
  refine c.scalars_next [a.toNat, b.toNat] ?_
  simp only [hwait, Bool.or_eq_true, beq_iff_eq]
  split <;> rfl

theorem Clear.barw_idle {a b : BitVec 6} (hwait : h.f.wait = .none) (hm : h.f.mask = 0) :
    exec (.barw a b) s = .next (h.done s id) := by
  refine c.scalars_next [a.toNat, b.toNat] ?_
  simp only [hwait]
  exact if_pos hm

variable {a : BitVec 6} {off : Nat} (hm : h.f.mask ≠ 0) (hb : h.barCheck s (h.s a) = .ok off)
include hm hb

/-- R418: a form whose object passes its checks runs its meaning. -/
theorem Clear.onBar_next {i : Instr} {sr : List Nat} {k : Here → Nat → Nat → Except Abort State} {t : State}
    (e : exec i s = onBar a sr s k) (hk : k h (s.crew h.w.crew).clus off = .ok t) : exec i s = .next t :=
  e.trans (c.scalars_next _ ((if_neg hm).trans ((bind_of_ok hb _).trans hk)))

theorem Clear.bara_arrives {d : BitVec 6} {n : BitVec 16} {s1 : State} (hrel : h.release s .crw = .ok s1) :
    exec (.bara d a n) s = .next (h.done (s1.setBarObj (s.crew h.w.crew).clus off
      ((s.barObj (s.crew h.w.crew).clus off).arrive n.toNat))
        fun w => w.writeS h.side d.toNat (if (s.barObj (s.crew h.w.crew).clus off).ph then 1 else 0)).wake := by
  refine c.onBar_next hm hb (exec_bara d a n s) ((bind_of_ok hrel _).trans ?_)
  cases hrel
  rfl

theorem Clear.barx_adds (b : BitVec 6) : exec (.barx a b) s = .next (if bits (h.s b) 0 32 = 0 then h.done s id
    else (h.done (s.setBarObj (s.crew h.w.crew).clus off
      ((s.barObj (s.crew h.w.crew).clus off).addBytes (bits (h.s b) 0 32))) id).wake) := by
  refine c.onBar_next hm hb (exec_barx a b s) ?_
  dsimp only
  split <;> rfl

theorem Clear.barw_tests (b : BitVec 6) (hwait : h.f.wait = .none) :
    exec (.barw a b) s = .next (if (s.barObj (s.crew h.w.crew).clus off).ph = (h.s b).getLsbD 0
      then h.done (h.acquire s .crw) id else h.await s (.barrier off ((h.s b).getLsbD 0))) := by
  refine c.scalars_next [a.toNat, b.toNat] ?_
  simp only [hwait]
  refine (if_neg hm).trans ((bind_of_ok hb _).trans ?_)
  simp only [beq_iff_eq]
  split <;> rfl

end Forms

/-- Settles O40: the forms on an object that passes its checks, and the object as a record of the cluster space. -/
theorem barrierObjects : Obligations.BarrierObjects := by
  unfold Obligations.BarrierObjects
  refine ⟨fun s h c hm => ⟨fun a b => ⟨c.onBar_idle (exec_bari a b s) hm, c.onBar_idle (exec_barx a b s) hm⟩,
    fun d a k => c.onBar_idle (exec_bara d a k s) hm, fun d a => c.onBar_idle (exec_bart d a s) hm, fun a b hwait => c.barw_idle hwait hm⟩, fun s h a off c hm hb => ?_,
    fun s h a b off ph c hwait => c.barw_waiting hwait, fun s clus off b => ⟨s.barObj_setBarObj clus off b, rfl,
    fun k hk => s.read_setBarObj_outside clus off b hk⟩⟩
  intro clus o
  exact ⟨fun b => c.onBar_next hm hb (exec_bari a b s) rfl, fun d k s1 hrel => c.bara_arrives hm hb hrel, fun b => c.barx_adds hm hb b,
    fun d => c.onBar_next hm hb (exec_bart d a s) rfl, fun b hwait => c.barw_tests hm hb b hwait⟩

end Sys2Proof.Machine

/-! The global flag wait: a read of the flag at its home, and what its outcome makes of the wait (R390, R420). -/
namespace Sys2Proof.Machine

/-- R420: a read of the flag on coherent memory changes no byte and shows the word that every agent sees. -/
theorem flagRead_quiet {s : State} {pa : Nat} (v : W64) (hc : Coherent s) (hal : pa % 8 = 0) (hb : pa + 8 ≤ 2 ^ 52) :
    Quiet s (s.flagRead pa v).1 ∧ (s.flagRead pa v).2 = if s.get64 pa = v then none else some (s.get64 pa) := by
  have hrec := recall_recalled (s := s) (l := pa / 128) (by omega) (hc _ (by omega))
  have hold : (s.atomicAt pa 8 fun _ => none).2 = s.getNat pa 8 := by
    rw [(atomicAt_stored (fun _ => none) hc (by omega) hb (by omega)).1]
    refine congrArg leNat (List.map_congr_left fun i hi => (readAt_coherent hc ?_).symm)
    have := List.mem_range.mp hi
    omega
  rw [State.flagRead]
  dsimp only
  rw [hold]
  exact ⟨hrec.quiet, rfl⟩

section Return
variable {s : State} {h : Here} {d : BitVec 6} {pa : Nat} {addr v : W64}
  (hp : (s.settleOver h.f.id [⟨addr.toNat, pa, 8⟩]).poisoned (pa / 128) = false)
include hp

/-- R420: the flag differs. -/
theorem Here.flagReturn_differs {x : W64} (hx : ((s.settleOver h.f.id [⟨addr.toNat, pa, 8⟩]).flagRead pa v).2 = some x) :
    h.flagReturn s d pa addr v = .ok (h.done (h.acquire ((s.settleOver h.f.id [⟨addr.toNat, pa, 8⟩]).flagRead pa v).1 .sys)
      fun w => w.writeS h.side d.toNat x) := by
  unfold Here.flagReturn
  dsimp only
  rw [hp, if_neg Bool.false_ne_true]
  generalize (s.settleOver h.f.id [⟨addr.toNat, pa, 8⟩]).flagRead pa v = r at hx ⊢
  obtain ⟨r1, r2⟩ := r
  cases hx
  rfl

/-- R420: it does not: the fragment waits. -/
theorem Here.flagReturn_equals (hx : ((s.settleOver h.f.id [⟨addr.toNat, pa, 8⟩]).flagRead pa v).2 = none) :
    h.flagReturn s d pa addr v =
      .ok (h.await ((s.settleOver h.f.id [⟨addr.toNat, pa, 8⟩]).flagRead pa v).1 (.flag addr v)) := by
  unfold Here.flagReturn
  dsimp only
  rw [hp, if_neg Bool.false_ne_true]
  generalize (s.settleOver h.f.id [⟨addr.toNat, pa, 8⟩]).flagRead pa v = r at hx ⊢
  obtain ⟨r1, r2⟩ := r
  cases hx
  rfl

end Return

section First
variable {s : State} {h : Here} (c : Clear s h []) (d a b : BitVec 6)
include c

theorem Clear.barwFlag_idle (hwait : h.f.wait = .none) (hm : h.f.mask = 0) :
    exec (.barwFlag d a b) s = .next (h.done s id) := by
  refine c.scalars_next [a.toNat, b.toNat] ?_
  simp only [hwait]
  exact if_pos hm

/-- R420: an aligned flag that passes its checks is read. -/
theorem Clear.barwFlag_reads {s1 t : State} {p : Piece} {ps : List Piece} (hwait : h.f.wait = .none) (hm : h.f.mask ≠ 0)
    (hal : (h.s a).toNat % 8 = 0)
    (hchk : s.checkGlobal h.w.core (s.launchOf h.w) .read (h.s a).toNat 8 = (s1, .ok (p :: ps)))
    (hret : h.flagReturn s1 d p.pa (h.s a) (h.s b) = .ok t) : exec (.barwFlag d a b) s = .next t := by
  refine c.scalars_next [a.toNat, b.toNat] ?_
  simp only [hwait]
  refine (if_neg hm).trans ?_
  have hpass : aligned (h.s a).toNat 8 (s.checkGlobal h.w.core (s.launchOf h.w) .read (h.s a).toNat 8) s = (s1, .ok (p :: ps)) :=
    (if_pos hal).trans hchk
  have hps : h.scalarPass s1 (h.s a) (.ok (p :: ps)) = .ok (p :: ps) := rfl
  rw [hpass]
  exact (bind_of_ok hps _).trans hret

/-- R390: the home has shown the end of the wait. -/
theorem Clear.barwFlag_ended {addr v x : W64} (hwait : h.f.wait = .flag addr v) (hend : h.f.ended = some (.value x)) :
    exec (.barwFlag d a b) s = .next (h.done (h.acquire s .sys) fun w => w.writeS h.side d.toNat x) := by
  refine c.scalars_next [a.toNat, b.toNat] ?_
  simp only [hwait, hend]
  rfl

end First

/-- R390: a poll of a flag that translates is a read of it. -/
theorem exec_flagPoll {s s1 t : State} {k : Nat} {side : Bool} {h : Here} {d a b : BitVec 6} {addr v : W64} {pa : Nat}
    (hf : s.fragment k side = some h) (hwait : h.f.wait = .flag addr v) (hend : h.f.ended = none)
    (hi : h.f.instr? = some (.barwFlag d a b))
    (htr : s.translate h.w.core (s.ctxOf h.w) addr.toNat .read = (s1, .ok pa))
    (hret : h.flagReturn s1 d pa addr v = .ok t) : exec (.flagPoll k side) s = .next t := by
  have e : exec (.flagPoll k side) s = execFlagPoll k side s := rfl
  have hagain : h.flagAgain s d addr v = .ok t := by
    rw [Here.flagAgain, htr]
    exact hret
  rw [e, execFlagPoll, hf]
  simp only [hwait, hend, hi, hagain]
  rfl

/-- Settles O41: the first read and every later one end in the same test of the flag. -/
theorem flagWaits : Obligations.FlagWaits := by
  unfold Obligations.FlagWaits
  refine ⟨fun s h d a b c => c.barwFlag_idle d a b, fun s h d a b s1 p ps c hwait hm hal hchk => ?first,
    fun s h d a b addr v x c => c.barwFlag_ended d a b, fun s k side h d a b addr v s1 pa hf hwait hend hi htr => ?poll,
    fun s pa v => flagRead_quiet v⟩
  case first =>
    intro s2 hp r
    exact ⟨fun x hx => c.barwFlag_reads d a b hwait hm hal hchk (Here.flagReturn_differs hp hx),
      fun hx => c.barwFlag_reads d a b hwait hm hal hchk (Here.flagReturn_equals hp hx)⟩
  case poll =>
    intro s2 hp r
    exact ⟨fun x hx => exec_flagPoll hf hwait hend hi htr (Here.flagReturn_differs hp hx),
      fun hx => exec_flagPoll hf hwait hend hi htr (Here.flagReturn_equals hp hx)⟩

end Sys2Proof.Machine

/-! Queue instructions of a wave: tail writes, waits on the head, and what an enq publishes (R357 to R359). -/
namespace Sys2Proof.Machine

section Post
variable {s : State} {h : Here} (c : Clear s h []) (a q : BitVec 6)
include c

theorem Clear.qpost_idle (hm : h.f.mask = 0) : exec (.qpost a q) s = .next (h.done s id) :=
  c.scalars_next [a.toNat] (if_pos hm)

theorem Clear.qpost_disabled (hm : h.f.mask ≠ 0) (hst : (s.queue (s.ctxOf h.w) q.toNat).st = .disabled)
    (hw : h.w.mustWait s h.key = false) : exec (.qpost a q) s = .next (s.adjourn h.key h.side (h.report cPROT)) :=
  c.scalars_adjourns [a.toNat] hw ((if_neg hm).trans (if_pos hst))

/-- R357: a release, then the tail write arrives. -/
theorem Clear.qpost_arrives {s1 : State} (hm : h.f.mask ≠ 0) (hst : (s.queue (s.ctxOf h.w) q.toNat).st ≠ .disabled)
    (hrel : h.release s .sys = .ok s1) :
    exec (.qpost a q) s = .next (h.done ((h.marked s1).tailWrite (s.ctxOf h.w) q.toNat (h.s a)) id) :=
  c.scalars_next [a.toNat] ((if_neg hm).trans ((if_neg hst).trans (bind_of_ok hrel _)))

end Post

/-- R358: the queue-head wait is over where the queue is not ready or its head has come to the index. -/
theorem Queue.reached_iff (Q : Queue) (n : W64) : Q.reached n = true ↔ Q.st ≠ .ready ∨ n ≤ Q.head := by
  simp [Queue.reached]

section Wait
variable {s : State} {h : Here} (c : Clear s h []) {d a q : BitVec 6} {n : W64}
include c

theorem Clear.qwait_idle (hwait : h.f.wait = .none) (hm : h.f.mask = 0) : exec (.qwait d a q) s = .next (h.done s id) := by
  refine c.scalars_next [a.toNat] ?_
  simp only [hwait]
  exact if_pos hm

theorem Clear.qwait_tests (hwait : h.f.wait = .none) (hm : h.f.mask ≠ 0) :
    exec (.qwait d a q) s = .next (if (s.queue (s.ctxOf h.w) q.toNat).reached (h.s a) = true
      then h.done (h.acquire s .sys) fun w => w.writeS h.side d.toNat (s.queue (s.ctxOf h.w) q.toNat).head
      else h.await s (.qhead q.toNat (h.s a))) := by
  refine c.scalars_next [a.toNat] ?_
  simp only [hwait, if_neg hm]
  split <;> rfl

theorem Clear.qwait_waiting {x : Nat} (hwait : h.f.wait = .qhead x n) :
    exec (.qwait d a q) s = .next (if (s.queue (s.ctxOf h.w) q.toNat).reached n = true ∨ h.f.ended.isSome = true
      then h.done (h.acquire s .sys) fun w => w.writeS h.side d.toNat (s.queue (s.ctxOf h.w) q.toNat).head else s) := by
  refine c.scalars_next [a.toNat] ?_
  simp only [hwait, Bool.or_eq_true]
  split <;> rfl

variable (hn : h.f.wait = .none ∧ h.f.mask ≠ 0 ∧ n = h.s a ∨ ∃ x, h.f.wait = .qhead x n)
include hn

theorem Clear.qwait_goes_on (hover : (s.queue (s.ctxOf h.w) q.toNat).st ≠ .ready ∨ n ≤ (s.queue (s.ctxOf h.w) q.toNat).head ∨
    h.f.wait ≠ .none ∧ h.f.ended.isSome = true) : exec (.qwait d a q) s =
      .next (h.done (h.acquire s .sys) fun w => w.writeS h.side d.toNat (s.queue (s.ctxOf h.w) q.toNat).head) := by
  rw [← or_assoc, ← Queue.reached_iff] at hover
  rcases hn with ⟨hwait, hm, rfl⟩ | ⟨x, hwait⟩
  · rw [c.qwait_tests hwait hm, if_pos (hover.resolve_right fun hw => hw.1 hwait)]
  · rw [c.qwait_waiting hwait, if_pos (hover.imp_right And.right)]

theorem Clear.qwait_stays (hst : (s.queue (s.ctxOf h.w) q.toNat).st = .ready) (hlt : (s.queue (s.ctxOf h.w) q.toNat).head < n)
    (hend : h.f.wait ≠ .none → h.f.ended = none) : exec (.qwait d a q) s =
      .next (if h.f.wait = .none then h.await s (.qhead q.toNat n) else s) := by
  have hno : ¬ (s.queue (s.ctxOf h.w) q.toNat).reached n = true := by
    rw [Queue.reached_iff]
    exact not_or.mpr ⟨not_not.mpr hst, BitVec.not_le.mpr hlt⟩
  rcases hn with ⟨hwait, hm, rfl⟩ | ⟨x, hwait⟩
  · rw [c.qwait_tests hwait hm, if_neg hno, if_pos hwait]
  · have hne : h.f.wait ≠ .none := by rw [hwait]; exact Wait.noConfusion
    rw [c.qwait_waiting hwait, if_neg (by simp [hno, hend hne]), if_neg hne]

end Wait

section Publish
variable {s : State} {h : Here} {a : BitVec 6} {q : Nat} {i : W64}

/-- R359: the ring is full. -/
theorem Here.publish_full (hfull : (s.queue (s.ctxOf h.w) q).size ≤ (i - (s.queue (s.ctxOf h.w) q).head).toNat) :
    h.publish s a q i = .ok (h.await s (.qspace q i)) := if_pos hfull

/-- R351, R359: the words after the header, a release, the header, and the tail write. -/
theorem Here.publish_writes {s1 s2 s3 s4 : State} {ps qs : List Piece} {p : List Byte} {k : Nat} {Q : Queue}
    (hQ : s.queue (s.ctxOf h.w) q = Q) (hroom : (i - Q.head).toNat < Q.size)
    (hslot : ∀ f, h.checkRange s .write (Q.slotAt i) 128 f = .ok (s1, ps))
    (hsrc : ∀ f, h.checkRange s1 .read (h.s a).toNat 128 f = .ok (s2, qs))
    (hread : ∀ f, h.readRange s2 qs f = .ok (s3, p)) (hk : packetKind p = some k)
    (hrel : h.release (h.post s3 ((List.range 15).map fun j =>
      { parts := [⟨Q.slotAt i + 8 + 8 * j, (ps.head?.map (·.pa)).getD 0 + 8 + 8 * j, 8⟩],
        data := (p.drop (8 + 8 * j)).take 8 })) .sys = .ok s4) :
    h.publish s a q i = .ok (h.done (((h.post s4
      [{ parts := [⟨Q.slotAt i, (ps.head?.map (·.pa)).getD 0, 8⟩], data := leBytes 8 (k + 2 ^ 32 * Q.lap i) }]).settle
        (·.seenBy h.f.id)).tailWrite (s.ctxOf h.w) q (i + 1)) id) := by
  subst hQ
  refine (if_neg hroom.not_ge).trans ?_
  refine (bind_of_ok (hslot _) _).trans ((bind_of_ok (hsrc _) _).trans ((bind_of_ok (hread _) _).trans ?_))
  simp only [hk]
  exact bind_of_ok hrel _

end Publish

section Enq
variable {s : State} {h : Here} {a : BitVec 6} {q : BitVec 6} {i : W64} {d : BitVec 6}

section Executing
variable (c : Clear s h [])
include c

theorem Clear.enq_idle (hwait : h.f.wait = .none) (hm : h.f.mask = 0) : exec (.enq d a q) s = .next (h.done s id) := by
  refine c.scalars_next [a.toNat] ?_
  simp only [hwait]
  exact if_pos hm

/-- R359: an enq that has its index only publishes. -/
theorem Clear.enq_resumes {t : State} (hpub : h.publish s a q.toNat i = .ok t)
    (hi : (∃ x, h.f.wait = .qspace x i) ∨ h.f.wait = .none ∧ h.f.mask ≠ 0 ∧ h.f.enq = true ∧ i = h.s d) :
    exec (.enq d a q) s = .next t := by
  refine c.scalars_next [a.toNat] ?_
  rcases hi with ⟨x, hwait⟩ | ⟨hwait, hm, henq, rfl⟩
  · simp only [hwait, hpub]
  · simp only [hwait, if_neg hm, henq, if_true, hpub]

/-- R359: a first enq: its packet is read and may be published, and it takes an index at WIDX after a release. -/
theorem Clear.enq_reserves {s1 s2 s3 s4 t : State} {ps qs : List Piece} {p : List Byte} (hwait : h.f.wait = .none)
    (hm : h.f.mask ≠ 0) (henq : h.f.enq = false) (hal : (h.s a).toNat % 128 = 0)
    (hsrc : ∀ f, h.checkRange s .read (h.s a).toNat 128 f = .ok (s1, qs))
    (hst : (s1.queue (s.ctxOf h.w) q.toNat).st ≠ .disabled)
    (hidx : ∀ f, h.checkRange s1 .write (s1.queue (s.ctxOf h.w) q.toNat).widx 8 f = .ok (s2, ps))
    (hread : ∀ f, h.readRange s2 qs f = .ok (s3, p)) (hk : (packetKind p).isSome = true)
    (hpoison : s3.poisoned ((ps.head?.map (·.pa)).getD 0 / 128) = false) (hrel : h.release s3 .sys = .ok s4)
    (hpub :
      let r := (h.marked s4).atomicLane h.w.core (some (s.crew h.w.crew).launch) ((ps.head?.map (·.pa)).getD 0) 8
        fun old => some ((old + 1) % 2 ^ 64)
      let w1 := h.w.writeS h.side d.toNat (BitVec.ofNat 64 r.2)
      let f := { (w1.frag h.side).getD h.f with enq := true, wait := .none }
      let w := w1.setFrag h.side (some f)
      ({ h with w, f } : Here).publish (r.1.putWave h.key w) a q.toNat (BitVec.ofNat 64 r.2) = .ok t) :
    exec (.enq d a q) s = .next t := by
  have hsome : packetKind p ≠ none := Option.isSome_iff_ne_none.mp hk
  refine c.scalars_next [a.toNat] ?_
  simp only [hwait, if_neg hm, henq, Bool.false_eq_true, if_false, hal, bne_self_eq_false]
  refine (bind_of_ok (hsrc _) _).trans ((if_neg hst).trans ((bind_of_ok (hidx _) _).trans ((bind_of_ok (hread _) _).trans ?_)))
  simp only [if_neg hsome, hpoison, Bool.false_eq_true, if_false]
  exact (bind_of_ok hrel _).trans hpub

end Executing

/-- R388: a queue-space wait that is tested publishes. -/
theorem exec_enqPublish {k x : Nat} {b : Bool} {y : BitVec 6} {t : State} (hf : s.fragment k b = some h)
    (hwait : h.f.wait = .qspace x i) (hi : h.f.instr? = some (.enq d a y)) (hpub : h.publish s a x i = .ok t) :
    exec (.enqPublish k b) s = .next t := by
  have e : exec (.enqPublish k b) s = execEnqPublish k b s := rfl
  rw [e, execEnqPublish, hf]
  simp only [hwait, hi, hpub]
  rfl

end Enq

/-- Settles O45: an enq reserves and then publishes, at once or when there is space; a qwait is one test of the queue. -/
theorem queueInstructions : Obligations.QueueInstructions := by
  unfold Obligations.QueueInstructions
  refine ⟨fun s h c hwait hm d a q => ⟨c.enq_idle hwait hm, c.qpost_idle a q hm, c.qwait_idle hwait hm⟩,
    fun s h a q c hm => ⟨c.qpost_disabled a q hm, fun s1 => c.qpost_arrives a q hm⟩,
    fun s h d a q n c hn => ⟨c.qwait_goes_on hn, c.qwait_stays hn⟩, ?enq, fun s h d a q i t c => c.enq_resumes,
    fun s k b h d a q x i t => exec_enqPublish, fun s h a q i => ⟨Here.publish_full, ?publish⟩⟩
  case enq =>
    intro s h d a q s1 qs s2 ps s3 p s4 c hwait hm henq hal hsrc ctx Q pa hst hidx hread hk hpoison hrel r i w1 f w t
    exact c.enq_reserves hwait hm henq hal hsrc hst hidx hread hk hpoison hrel
  case publish =>
    intro s1 ps s2 qs s3 p k s4 hroom hslot hsrc hread hk pa
    exact Here.publish_writes rfl hroom hslot hsrc hread hk

end Sys2Proof.Machine

/-! Finish scopes: an entry reads back as written (R378), and what fsopen, fsclose and fswait do (R379 to R381). -/
namespace Sys2Proof.Machine

/-- On coherent memory an engine reads a list back where it stands in what was written. -/
theorem getBytes_putBytes {s : State} {pa : Nat} {p l q : List Byte} (hc : Coherent s)
    (hb : pa + (p ++ l ++ q).length ≤ 2 ^ 52) : (s.putBytes pa (p ++ l ++ q)).getBytes (pa + p.length) l.length = l := by
  have hst := homeWrite_stored (bytesFn pa (p ++ l ++ q)) none hb hc
  have hlen : (p ++ l ++ q).length = p.length + l.length + q.length := by
    rw [List.length_append, List.length_append]
  refine Eq.trans (List.map_congr_left fun i hi => ?_) (range_map_getD_append p l q)
  have hi' := List.mem_range.mp hi
  rw [State.putBytes, readAt_coherent hst.coherent (by omega), hst.bytes _ (by omega), if_pos (by omega), bytesFn,
    Nat.add_assoc, Nat.add_sub_cancel_left]

theorem scope_putScope {s : State} {ctx n c st p : Nat} (hco : Coherent s) (hb : (s.ctx ctx).fstab + 16 * n + 6 ≤ 2 ^ 52)
    (hc : c < 2 ^ 32) (hst : st < 3) (hp : p < 256) : (s.putScope ctx n c st p).scope ctx n = (c, st, p) := by
  have hctx : (s.putScope ctx n c st p).ctx ctx = s.ctx ctx := (SameControl.putBytes ..).ctx ctx
  have hread (u l v : List Byte) (e : leBytes 4 c ++ leBytes 1 st ++ leBytes 1 p = u ++ l ++ v) :
      (s.putScope ctx n c st p).getBytes ((s.ctx ctx).fstab + 16 * n + u.length) l.length = l := by
    have hlen := congrArg List.length e
    rw [State.putScope, e]
    refine getBytes_putBytes hco ?_
    rw [← hlen]
    simpa [length_leBytes] using hb
  have hcount := hread [] (leBytes 4 c) (leBytes 1 st ++ leBytes 1 p) (by simp)
  have hstate := hread (leBytes 4 c) (leBytes 1 st) (leBytes 1 p) rfl
  have hparent := hread (leBytes 4 c ++ leBytes 1 st) (leBytes 1 p) [] (by simp)
  simp only [length_leBytes, List.length_append, List.length_nil, Nat.add_zero, Nat.reduceAdd] at hcount hstate hparent
  simp only [State.scope, hctx, State.getNat, hcount, hstate, hparent, leNat_leBytes]
  rw [Nat.mod_eq_of_lt (by omega), Nat.mod_eq_of_lt (by omega), Nat.mod_eq_of_lt (by omega)]

/-- R381: the least number whose scope is closed. -/
theorem freeScope_eq {s : State} {ctx m : Nat} (h0 : 0 < m) (hm : m < 256) (hfree : (s.scope ctx m).2.1 = 0)
    (hleast : ∀ j, 0 < j → j < m → (s.scope ctx j).2.1 ≠ 0) :
    ((List.range 256).find? fun n => n != 0 && (s.scope ctx n).2.1 == 0) = some m := by
  refine List.find?_range_eq_some.mpr ⟨?_, List.mem_range.mpr hm, fun j hj => ?_⟩
  · simp [h0.ne', hfree]
  · rcases Nat.eq_zero_or_pos j with rfl | hpos
    · rfl
    · simp [hleast j hpos hj]

theorem freeScope_none {s : State} {ctx : Nat} (hfull : ∀ j, 0 < j → j < 256 → (s.scope ctx j).2.1 ≠ 0) :
    ((List.range 256).find? fun n => n != 0 && (s.scope ctx n).2.1 == 0) = none := by
  refine List.find?_eq_none.mpr fun j hj => ?_
  rcases Nat.eq_zero_or_pos j with rfl | hpos
  · exact Bool.false_ne_true
  · simp [hfull j hpos (List.mem_range.mp hj)]

section Scopes
variable {s : State} {h : Here} (c : Clear s h []) {d a : BitVec 6}
include c

theorem Clear.fsopen_idle (hm : h.f.mask = 0) : exec (.fsopen d a) s = .next (h.done s id) :=
  c.scalars_next [a.toNat] (if_pos hm)

theorem Clear.fsclose_idle (hm : h.f.mask = 0) : exec (.fsclose a) s = .next (h.done s id) :=
  c.scalars_next [a.toNat] (if_pos hm)

theorem Clear.fswait_idle (hwait : h.f.wait = .none) (hm : h.f.mask = 0) : exec (.fswait a) s = .next (h.done s id) := by
  refine c.scalars_next [a.toNat] ?_
  simp only [hwait]
  exact if_pos hm

section Changes
variable {s1 : State} (hm : h.f.mask ≠ 0) (hrel : h.release s .sys = .ok s1)
include hm hrel

/-- R381: an fsopen that opens scope `m`. -/
theorem Clear.fsopen_opens {m : Nat}
    (hparent : bits (h.s a) 0 8 = 0 ∨ (s1.scope (s.ctxOf h.w) (bits (h.s a) 0 8)).2.1 = 1) (h0 : 0 < m) (hlt : m < 256)
    (hfree : (s1.scope (s.ctxOf h.w) m).2.1 = 0) (hleast : ∀ j, 0 < j → j < m → (s1.scope (s.ctxOf h.w) j).2.1 ≠ 0) :
    exec (.fsopen d a) s = .next (h.done
      (((h.marked s1).putScope (s.ctxOf h.w) m 0 1 (bits (h.s a) 0 8)).hold (s.ctxOf h.w) (bits (h.s a) 0 8))
      fun w => w.writeS h.side d.toNat (BitVec.ofNat 64 m)) := by
  refine c.scalars_next [a.toNat] ((if_neg hm).trans ((bind_of_ok hrel _).trans ?_))
  simp only [if_pos hparent, freeScope_eq h0 hlt hfree hleast]
  rfl

theorem Clear.fsopen_refuses (hno : bits (h.s a) 0 8 ≠ 0 ∧ (s1.scope (s.ctxOf h.w) (bits (h.s a) 0 8)).2.1 ≠ 1 ∨
    ∀ j, 0 < j → j < 256 → (s1.scope (s.ctxOf h.w) j).2.1 ≠ 0) :
    exec (.fsopen d a) s = .next (h.done (h.marked s1) fun w => w.writeS h.side d.toNat 0) := by
  have hnone : (if bits (h.s a) 0 8 = 0 ∨ (s1.scope (s.ctxOf h.w) (bits (h.s a) 0 8)).2.1 = 1 then
      (List.range 256).find? fun n => n != 0 && (s1.scope (s.ctxOf h.w) n).2.1 == 0 else none) = none := by
    rcases hno with hparent | hfull
    · rw [if_neg (not_or.mpr hparent)]
    · rw [freeScope_none hfull, ite_self]
  refine c.scalars_next [a.toNat] ((if_neg hm).trans ((bind_of_ok hrel _).trans ?_))
  simp only [hnone]
  rfl

/-- R379: an open scope with holds becomes closing, one without is closed. -/
theorem Clear.fsclose_closes : exec (.fsclose a) s = .next (
    let ctx := s.ctxOf h.w
    let n := bits (h.s a) 0 8
    let x := s1.scope ctx n
    let t := h.done (h.marked s1) id
    if n = 0 ∨ x.2.1 ≠ 1 then t
    else if x.1 = 0 then ((t.putScope ctx n 0 0 x.2.2).releaseScope ctx n).unhold ctx x.2.2
    else t.putScope ctx n x.1 2 x.2.2) := by
  refine c.scalars_next [a.toNat] ((if_neg hm).trans ((bind_of_ok hrel _).trans ?_))
  dsimp only
  split
  · rfl
  · split <;> rfl

end Changes

/-- R381: a first fswait asks whether the scope is closed. -/
theorem Clear.fswait_tests (hwait : h.f.wait = .none) (hm : h.f.mask ≠ 0) : exec (.fswait a) s = .next
    (if bits (h.s a) 0 8 ≠ 0 ∧ (s.scope (s.ctxOf h.w) (bits (h.s a) 0 8)).2.1 ≠ 0
      then h.await s (.scope (bits (h.s a) 0 8)) else h.done (h.acquire s .sys) id) := by
  refine c.scalars_next [a.toNat] ?_
  simp only [hwait, if_neg hm, Bool.and_eq_true, bne_iff_ne]
  split <;> rfl

theorem Clear.fswait_waiting {n : Nat} (hwait : h.f.wait = .scope n) : exec (.fswait a) s = .next
    (if (n ≠ 0 ∧ (s.scope (s.ctxOf h.w) n).2.1 ≠ 0) ∧ h.f.ended = none then s else h.done (h.acquire s .sys) id) := by
  refine c.scalars_next [a.toNat] ?_
  simp only [hwait, Bool.and_eq_true, bne_iff_ne, Option.isNone_iff_eq_none]
  split <;> rfl

section Waits
variable {n : Nat} (hn : h.f.wait = .none ∧ h.f.mask ≠ 0 ∧ n = bits (h.s a) 0 8 ∨ h.f.wait = .scope n)
include hn

theorem Clear.fswait_goes_on (hover : n = 0 ∨ (s.scope (s.ctxOf h.w) n).2.1 = 0 ∨ h.f.wait ≠ .none ∧ h.f.ended.isSome = true) :
    exec (.fswait a) s = .next (h.done (h.acquire s .sys) id) := by
  rcases hn with ⟨hwait, hm, rfl⟩ | hwait
  · rw [c.fswait_tests hwait hm, if_neg]
    rintro ⟨hnz, hopen⟩
    exact (hover.resolve_left hnz).elim hopen fun hw => hw.1 hwait
  · rw [c.fswait_waiting hwait, if_neg]
    rintro ⟨⟨hnz, hopen⟩, hend⟩
    refine (hover.resolve_left hnz).elim hopen fun hw => ?_
    rw [hend] at hw
    exact Bool.false_ne_true hw.2

theorem Clear.fswait_stays (hnz : n ≠ 0) (hopen : (s.scope (s.ctxOf h.w) n).2.1 ≠ 0)
    (hend : h.f.wait ≠ .none → h.f.ended = none) :
    exec (.fswait a) s = .next (if h.f.wait = .none then h.await s (.scope n) else s) := by
  rcases hn with ⟨hwait, hm, rfl⟩ | hwait
  · rw [c.fswait_tests hwait hm, if_pos ⟨hnz, hopen⟩, if_pos hwait]
  · have hne : h.f.wait ≠ .none := by rw [hwait]; exact Wait.noConfusion
    rw [c.fswait_waiting hwait, if_pos ⟨⟨hnz, hopen⟩, hend hne⟩, if_neg hne]

end Waits
end Scopes

/-- Settles O46: the three forms by what the table says of the scope, and the table as bytes of coherent memory. -/
theorem finishScopes : Obligations.FinishScopes := by
  unfold Obligations.FinishScopes
  refine ⟨fun s h c hwait hm d a => ⟨c.fsopen_idle hm, c.fsclose_idle hm, c.fswait_idle hwait hm⟩,
    fun s h a s1 c hm hrel => ⟨fun d m => c.fsopen_opens hm hrel, fun d => c.fsopen_refuses hm hrel, c.fsclose_closes hm hrel⟩,
    fun s h a n c hn => ⟨c.fswait_goes_on hn, c.fswait_stays hn⟩, fun s ctx n c st p => scope_putScope⟩

end Sys2Proof.Machine

/-! Queues at their dispatcher: tail writes, packets, markers and the states of a queue (R345 to R354, R367, R473). -/
namespace Sys2Proof.Machine

@[simp] theorem State.queue_setQueue_same (s : State) (ctx q : Nat) (f : Queue → Queue) :
    (s.setQueue ctx q f).queue ctx q = f (s.queue ctx q) := by
  rw [State.queue, State.setQueue, Table.get?_put_same]
  rfl

/-- R353: a tail write to a queue that is not disabled. -/
theorem State.tailWrite_enabled {s : State} {ctx q : Nat} (t : W64) (hst : (s.queue ctx q).st ≠ .disabled) :
    s.tailWrite ctx q t = s.setQueue ctx q fun x => x.tailWrite t := if_neg hst

/-- R354: HEADM receives head. -/
theorem writeHeadm_ok {s s1 : State} {ctx q pa : Nat}
    (h : s.dispAccess (s.queue ctx q).die ctx (s.queue ctx q).headm .write = (s1, .ok pa)) :
    s.writeHeadm ctx q = .next (((s1.put64 pa (s.queue ctx q).head).noteWrite none pa 8).setQueue ctx q
      fun Q => { Q with redo := false }) := by
  rw [State.writeHeadm, dispWrite_ok _ _ h]

section Serve
variable {s : State} {ctx q : Nat}

theorem State.served_iff : s.served ctx q = true ↔
    (s.queue ctx q).st = .ready ∧ ((s.ctx ctx).st = .active ∨ (s.ctx ctx).st = .faulted) := by
  simp [State.served]

theorem serve_unserved (h : ¬ ((s.queue ctx q).st = .ready ∧ ((s.ctx ctx).st = .active ∨ (s.ctx ctx).st = .faulted))) :
    s.serve ctx q = .next s := by
  have hno : s.served ctx q = false := Bool.eq_false_iff.mpr (mt State.served_iff.mp h)
  rw [State.serve, hno]
  rfl

section Served
variable (h : s.served ctx q = true) (hredo : (s.queue ctx q).redo = false)
include h hredo

/-- R352: one round at a queue that is served and whose HEADM stands. -/
theorem serve_round {Q : Queue} (hQ : s.queue ctx q = Q) : s.serve ctx q =
    if Q.tail ≤ Q.head then .next s
    else match s.dispAccess Q.die ctx (Q.slotAt Q.head) .read with
      | (_, .absent) => .fault .noMemory
      | (s1, .wait) => .next s1
      | (s1, .bad x) => .next (s1.queueFails ctx q x (Q.slotAt Q.head) false)
      | (s1, .ok pa) =>
        let p : BitVec 1024 := BitVec.ofNat 1024 (s1.getNat pa 128)
        if bits p 0 8 = 0 ∨ bits p 32 32 ≠ Q.lap Q.head then .next (s1.setQueue ctx q fun Q => { Q with due := false })
        else ((s1.accept ctx q Q.head p).setQueue ctx q fun Q => { Q with head := Q.head + 1, due := true }).writeHeadm ctx q := by
  subst hQ
  rw [State.serve, h, hredo]
  rfl

theorem serve_empty (he : (s.queue ctx q).tail ≤ (s.queue ctx q).head) : s.serve ctx q = .next s := by
  rw [serve_round h hredo rfl, if_pos he]

variable {s1 : State} {pa : Nat} (hlt : (s.queue ctx q).head < (s.queue ctx q).tail)
  (hacc : s.dispAccess (s.queue ctx q).die ctx ((s.queue ctx q).slotAt (s.queue ctx q).head) .read = (s1, .ok pa))
include hlt hacc

/-- R352: the header at the head is not ready. -/
theorem serve_unready {p : BitVec 1024} (hp : BitVec.ofNat 1024 (s1.getNat pa 128) = p)
    (hno : bits p 0 8 = 0 ∨ bits p 32 32 ≠ (s.queue ctx q).lap (s.queue ctx q).head) :
    s.serve ctx q = .next (s1.setQueue ctx q fun Q => { Q with due := false }) := by
  rw [serve_round h hredo rfl, if_neg (BitVec.not_le.mpr hlt), hacc]
  dsimp only
  rw [hp, if_pos hno]

/-- R352, R354: the packet at the head is accepted, the head moves on and HEADM receives it. -/
theorem serve_consumes {p : BitVec 1024} (hp : BitVec.ofNat 1024 (s1.getNat pa 128) = p) (hkind : bits p 0 8 ≠ 0)
    (hlap : bits p 32 32 = (s.queue ctx q).lap (s.queue ctx q).head) : s.serve ctx q =
      ((s1.accept ctx q (s.queue ctx q).head p).setQueue ctx q fun Q => { Q with head := Q.head + 1, due := true }).writeHeadm
        ctx q := by
  rw [serve_round h hredo rfl, if_neg (BitVec.not_le.mpr hlt), hacc]
  dsimp only
  rw [hp, if_neg fun hno => hno.elim hkind fun hne => hne hlap]

end Served
end Serve

/-- The two events that read the slot at the head. -/
theorem exec_slotEvent {e : Instr} {ctx q : Nat} (he : e ∈ [Instr.packetConsume ctx q, .slotReread ctx q]) (s : State) :
    exec e s = s.serve ctx q := by
  simp only [List.mem_cons, List.not_mem_nil, or_false] at he
  rcases he with rfl | rfl <;> rfl

/-- What the acceptance of a launch leaves of its object: all but where it stands. -/
def Launch.keeps (l l' : Launch) : Prop :=
  l' = { l with held := l'.held, awaits := l'.awaits, parked := l'.parked, st := l'.st, step := l'.step }

section Admission
variable {s : State} {k : Nat} {l : Launch} (e : s.launches.get? k = some l)
include e

theorem parkLaunch_keeps (x : W64) (step off faddr : Nat) :
    ∃ l', (s.parkLaunch k x step off faddr).launches.get? k = some l' ∧ l.keeps l' := ⟨_, setLaunch_get? e _, rfl⟩

/-- R347: a marker enters, or is parked. -/
theorem admitMarker_keeps : ∃ l', (s.admitMarker k).launches.get? k = some l' ∧ l.keeps l' := by
  unfold State.admitMarker
  dsimp only
  split
  · exact parkLaunch_keeps e ..
  · exact ⟨_, setLaunch_get? e _, rfl⟩

theorem hold_get? (ctx n : Nat) : (s.hold ctx n).launches.get? k = some l := by
  unfold State.hold
  split
  · exact e
  · exact (congrArg (Table.get? · k) (State.putBytes_launches ..)).trans e

/-- R368, R379: a launch enters, or is parked. -/
theorem takeIn_keeps : ∃ l', (s.takeIn k).launches.get? k = some l' ∧ l.keeps l' := by
  unfold State.takeIn
  dsimp only
  split
  · exact parkLaunch_keeps e ..
  · exact ⟨_, setLaunch_get? (hold_get? e ..) _, rfl⟩

end Admission

@[simp] theorem State.journal_launches (s : State) (lid : W64) (ty flags die : Nat) :
    (s.journal lid ty flags die).launches = s.launches := by
  unfold State.journal
  split
  · rfl
  · dsimp only
    rw [State.putBytes_launches]

section Accept
variable (s : State) (ctx q : Nat) (i : W64) (p : BitVec 1024)

/-- R352: a packet of another kind only leaves a record. -/
theorem accept_invalid (hp : bits p 8 24 ≠ 0 ∨ bits p 0 8 ≠ 1 ∧ bits p 0 8 ≠ 2) :
    ∃ d r, (s.accept ctx q i p).detached = d ++ [r] ∧ r.work = .packet ctx q ∧ r.report.causes = cLAUNCH ∧
      (s.accept ctx q i p).launches = s.launches := by
  rw [State.accept]
  dsimp only
  rw [if_pos hp]
  refine ⟨(s.journal (lidOf ctx q i) 4 16 (s.queue ctx q).die).detached, _, rfl, ?_⟩
  exact ⟨rfl, rfl, State.journal_launches ..⟩

/-- R352: a launch or a marker becomes an object that keeps the packet. -/
theorem accept_object (hz : bits p 8 24 = 0) (hkind : bits p 0 8 = 1 ∨ bits p 0 8 = 2) :
    ∃ l, (s.accept ctx q i p).launches.get? s.launches.nextKey = some l ∧ l.ctx = ctx ∧ l.packet = p ∧ l.q = q ∧ l.idx = i ∧
      l.lid = lidOf ctx q i ∧ l.marker = (bits p 0 8 == 2) := by
  rw [State.accept]
  dsimp only
  rw [if_neg fun hp => hp.elim (fun hne => hne hz) fun hno => hkind.elim hno.1 hno.2]
  generalize hl : ({ ctx, q, idx := i, die := _, lid := _, packet := p, marker := _, age := _, prio := _, deadline := _ } : Launch) = l
  have hput : (({ s with launches := s.launches.put s.launches.nextKey l }).journalOf l 1).launches.get? s.launches.nextKey =
      some l := by rw [State.journalOf_launches, Table.get?_put_same]
  have hkept : ∃ l', (if bits p 0 8 = 2 then
      (({ s with launches := s.launches.put s.launches.nextKey l }).journalOf l 1).admitMarker s.launches.nextKey else
      (({ s with launches := s.launches.put s.launches.nextKey l }).journalOf l 1).takeIn s.launches.nextKey).launches.get?
        s.launches.nextKey = some l' ∧ l.keeps l' := by
    split
    · exact admitMarker_keeps hput
    · exact takeIn_keeps hput
  obtain ⟨l', hget, hkeep⟩ := hkept
  refine ⟨l', hget, ?_⟩
  rw [hkeep, ← hl]
  exact ⟨rfl, rfl, rfl, rfl, rfl, rfl⟩

end Accept

section Marker
variable {s : State} {k : Nat} {l : Launch} (e : s.launches.get? k = some l) (hdue : s.markerDue k l = true)
include e hdue

/-- R347: a marker that is due and has no word. -/
theorem exec_markerComplete_plain (h0 : l.compAddr = 0) : exec (.markerComplete k) s = .next (s.endMarker k false) := by
  have hexec : exec (.markerComplete k) s = execMarkerComplete k s := rfl
  rw [hexec, execMarkerComplete, e]
  dsimp only
  rw [hdue, if_pos h0]
  rfl

/-- R347, R367: one whose word can be written. -/
theorem exec_markerComplete_writes {s1 : State} {pa : Nat} (h0 : l.compAddr ≠ 0)
    (hacc : s.dispAccess l.die l.ctx l.compAddr .write = (s1, .ok pa)) :
    exec (.markerComplete k) s = .next (((s1.put64 pa l.compVal).noteWrite none pa 8).endMarker k false) := by
  have hexec : exec (.markerComplete k) s = execMarkerComplete k s := rfl
  rw [hexec, execMarkerComplete, e]
  dsimp only
  rw [hdue, if_neg h0, dispWrite_ok _ _ hacc]
  rfl

end Marker

section States
variable {s : State} {ctx q : Nat}

theorem exec_tailWrite_disabled (t : W64) (hst : (s.queue ctx q).st = .disabled) :
    exec (.tailWrite ctx q t) s = .next s := by
  have e : exec (.tailWrite ctx q t) s = .next (s.tailWrite ctx q t) := rfl
  rw [e, State.tailWrite, if_pos hst]

theorem exec_doorbell_disabled (t : W64) (hst : (s.queue ctx q).st = .disabled) :
    exec (.doorbell ctx q t) s = .next (s.refuse (queueReg ctx q 0)) := if_pos hst

/-- R353, R473: a tail write and a doorbell at a queue that is not disabled. -/
theorem exec_tail_arrives {t : W64} (hst : (s.queue ctx q).st ≠ .disabled) {i : Instr}
    (hi : i ∈ [Instr.tailWrite ctx q t, .doorbell ctx q t]) :
    exec i s = .next (s.setQueue ctx q fun Q => Q.tailWrite t) := by
  simp only [List.mem_cons, List.not_mem_nil, or_false] at hi
  rw [← State.tailWrite_enabled t hst]
  rcases hi with rfl | rfl
  · rfl
  · exact if_neg hst

/-- R349: the queue as its descriptor gives it. -/
def State.queueRead (s : State) (ctx q : Nat) : Queue :=
  { desc := BitVec.ofNat 512 (s.getNat ((s.ctx ctx).qtab + 64 * q) 64) }

theorem exec_queueEnable_again (hst : (s.queue ctx q).st ≠ .disabled) : exec (.queueEnable ctx q) s = .next s := if_pos hst

theorem exec_queueEnable_refused (hst : (s.queue ctx q).st = .disabled)
    (hno : (s.ctx ctx).st = .free ∨ (s.ctx ctx).st = .destroying ∨ (s.ctx ctx).desc = 0 ∨ (s.queueRead ctx q).descOk = false) :
    exec (.queueEnable ctx q) s = .next (s.refuse (queueReg ctx q 0x20)) := by
  refine (if_neg (not_not.mpr hst)).trans (if_pos ?_)
  rwa [Bool.not_eq_true']

/-- R349, R354: an enabled queue starts at START, and HEADM receives it. -/
theorem exec_queueEnable {s1 : State} {pa : Nat} {N : Queue} {v : W64} (hN : s.queueRead ctx q = N)
    (hv : BitVec.ofNat 64 (N.field 0x20 8) = v) (hst : (s.queue ctx q).st = .disabled) (hfree : (s.ctx ctx).st ≠ .free)
    (hdest : (s.ctx ctx).st ≠ .destroying) (hdesc : (s.ctx ctx).desc ≠ 0) (hok : N.descOk = true)
    (hacc : (s.setQueue ctx q fun _ => { N with st := .ready, head := v, tail := v, due := true }).dispAccess N.die ctx N.headm
      .write = (s1, .ok pa)) :
    exec (.queueEnable ctx q) s = .next (((s1.put64 pa v).noteWrite none pa 8).setQueue ctx q fun Q => { Q with redo := false }) := by
  subst hN hv
  have hgo : ¬ ((s.ctx ctx).st = .free ∨ (s.ctx ctx).st = .destroying ∨ (s.ctx ctx).desc = 0 ∨
      (!(s.queueRead ctx q).descOk) = true) := by
    rw [hok]
    exact fun h => h.elim hfree fun h => h.elim hdest fun h => h.elim hdesc Bool.false_ne_true
  have hround : exec (.queueEnable ctx q) s = (s.setQueue ctx q fun _ => { s.queueRead ctx q with
      st := .ready, head := BitVec.ofNat 64 ((s.queueRead ctx q).field 0x20 8),
      tail := BitVec.ofNat 64 ((s.queueRead ctx q).field 0x20 8), due := true }).writeHeadm ctx q :=
    (if_neg (not_not.mpr hst)).trans (if_neg hgo)
  rw [hround, writeHeadm_ok (s1 := s1) (pa := pa)]
  · rw [State.queue_setQueue_same]
  · rw [State.queue_setQueue_same]
    exact hacc

theorem exec_queueDisable_again (hst : (s.queue ctx q).st = .disabled) : exec (.queueDisable ctx q) s = .next s := if_pos hst

theorem exec_queueDisable (hst : (s.queue ctx q).st ≠ .disabled) : exec (.queueDisable ctx q) s =
    .next (s.leaveReady ctx q fun Q => { Q with st := .disabled, redo := false }) := if_neg hst

theorem exec_queueStop : exec (.queueStop ctx q) s =
    .next (if (s.queue ctx q).st = .ready then s.leaveReady ctx q fun Q => { Q with st := .stopped } else s) :=
  (apply_ite Host.Outcome.next _ _ _).symm

theorem exec_queueStart : exec (.queueStart ctx q) s =
    .next (if (s.queue ctx q).st = .stopped then s.setQueue ctx q fun Q => { Q with st := .ready, due := true } else s) :=
  (apply_ite Host.Outcome.next _ _ _).symm

end States

/-- Settles O47: a round at the head, the acceptance of a packet, the end of a marker, and the moves between a queue's states. -/
theorem queueEvents : Obligations.QueueEvents := by
  unfold Obligations.QueueEvents
  refine ⟨fun ctx q t s => ⟨fun hst => ⟨?dropped, exec_doorbell_disabled t hst⟩, fun i hi hst => exec_tail_arrives hst hi⟩,
    fun ctx q s e he => ?serve, fun s ctx q i p => ⟨accept_invalid s ctx q i p, accept_object s ctx q i p⟩,
    fun k s l e hdue => ⟨exec_markerComplete_plain e hdue, fun s1 pa => exec_markerComplete_writes e hdue⟩,
    fun ctx q s => ⟨fun hst => ⟨exec_queueEnable_again hst, exec_queueDisable hst⟩, fun hst => ⟨exec_queueDisable_again hst,
      exec_queueEnable_refused hst, fun s1 pa => exec_queueEnable rfl rfl hst⟩, exec_queueStop, exec_queueStart⟩⟩
  case dropped => exact exec_tailWrite_disabled t hst
  case serve =>
    rw [exec_slotEvent he]
    refine ⟨fun hno => serve_unserved fun hyes => ?_, fun hst hctx hredo => ?_⟩
    · exact hno.elim (fun hne => hne hyes.1) fun hne => hyes.2.elim hne.1 hne.2
    · have hs := State.served_iff.mpr ⟨hst, hctx⟩
      refine ⟨serve_empty hs hredo, fun s1 pa hlt hacc => ⟨serve_unready hs hredo hlt hacc rfl, fun s3 pb hkind hlap hw => ?_⟩⟩
      exact (serve_consumes hs hredo hlt hacc rfl hkind hlap).trans (writeHeadm_ok hw)

end Sys2Proof.Machine

/-! Records: the forms on a handle, dispositions, the Arbiter's filing, and messages between X8s (R423 to R447). -/
namespace Sys2Proof.Machine

section Checks
variable {s : State} {h : Here} {o : W64} (hal : o.toNat % 8 = 0)
include hal

theorem Here.pkAt_stale {cur : Option (Nat × Record)} (hcur : cur = none) : h.pkAt s o cur = .ok none := by
  subst hcur
  exact if_neg (not_not.mpr hal)

theorem Here.pkAt_current {cur : Option (Nat × Record)} {key pa : Nat} {r : Record} (hcur : cur = some (key, r))
    (hpa : s.pkAddr key r o.toNat = some pa) : h.pkAt s o cur = .ok (some (key, r, pa)) := by
  subst hcur
  refine (if_neg (not_not.mpr hal)).trans ?_
  dsimp only
  rw [hpa]

end Checks

section Forms
variable {s : State} {h : Here} (c : Clear s h []) {d a b e : BitVec 6} {imm : W32}
include c

/-- R442: a handle that fails its first two checks. -/
theorem Clear.onRecord_unnamed (hno : h.pkNamed s (h.s a) = false) (hw : h.w.mustWait s h.key = false) (sr : List Nat)
    (k : Here → Option (Nat × Record) → Except Abort State) :
    onRecord a sr s k = .next (s.adjourn h.key h.side (h.report cPROT)) :=
  c.scalars_adjourns _ hw (if_pos (by rw [hno]; rfl))

theorem Clear.onDisposition_unnamed (hno : h.pkNamed s (h.s a) = false) (hw : h.w.mustWait s h.key = false) (sr : List Nat)
    (disp : Here → Disp) : onDisposition d a sr disp s = .next (s.adjourn h.key h.side (h.report cPROT)) := by
  have hchk := c.check h.f.mask { sr := a.toNat :: sr } (by simp) (.inl rfl)
  have hbad : (!h.pkNamed s (h.s a)) = true := by rw [hno]; rfl
  have hset : h.settle s (.error (.trap (h.report cPROT) s)) = .error (.trap (h.report cPROT) s) :=
    if_neg (by rw [hw]; exact Bool.false_ne_true)
  rw [onDisposition, c.here]
  dsimp only
  rw [bind_of_ok hchk, if_pos hbad, hset]
  rfl

theorem Clear.recordForm_unnamed (hno : h.pkNamed s (h.s a) = false) (hw : h.w.mustWait s h.key = false) :
    ∀ i ∈ [Instr.pkrd d a b imm, .pkwr d a b e imm, .pkclr d a b, .pkres d a, .pkret d a, .pkredir d a b, .pkkill d a],
      exec i s = .next (s.adjourn h.key h.side (h.report cPROT)) := by
  have erd : exec (.pkrd d a b imm) s = execPkrd d a b imm s := rfl
  have ewr : exec (.pkwr d a b e imm) s = execPkwr d a b e imm s := rfl
  have eclr : exec (.pkclr d a b) s = execPkclr d a b s := rfl
  simp only [List.forall_mem_cons, List.not_mem_nil, false_imp_iff, implies_true, and_true]
  exact ⟨erd.trans (c.onRecord_unnamed hno hw _ _), ewr.trans (c.onRecord_unnamed hno hw _ _),
    eclr.trans (c.onRecord_unnamed hno hw _ _), c.onDisposition_unnamed hno hw _ _, c.onDisposition_unnamed hno hw _ _, c.onDisposition_unnamed hno hw _ _,
    c.onDisposition_unnamed hno hw _ _⟩

variable (hnamed : h.pkNamed s (h.s a) = true)
include hnamed

theorem Clear.onRecord_next {sr : List Nat} {k : Here → Option (Nat × Record) → Except Abort State} {t : State}
    (hk : k h (s.pkCurrent (h.s a)) = .ok t) : onRecord a sr s k = .next t :=
  c.scalars_next _ ((if_neg (by rw [hnamed]; exact Bool.false_ne_true)).trans hk)

section Stale
variable (hcur : s.pkCurrent (h.s a) = none) (hal : (h.pkOff b imm).toNat % 8 = 0)
include hcur hal

/-- R443: pkrd of a handle that is not current shows its generation, with state 2. -/
theorem Clear.pkrd_stale : exec (.pkrd d a b imm) s = .next (h.done s fun w => w.writeS h.side d.toNat
    (if h.pkOff b imm = 0 then (h.s a).extractLsb' 32 32 ++ 0x200#32 else 0)) := by
  have hexec : exec (.pkrd d a b imm) s = execPkrd d a b imm s := rfl
  rw [hexec, execPkrd]
  exact c.onRecord_next hnamed ((bind_of_ok (Here.pkAt_stale hal hcur) _).trans rfl)

theorem Clear.pkwr_stale : exec (.pkwr d a b e imm) s = .next (h.status s d 1) := by
  have hexec : exec (.pkwr d a b e imm) s = execPkwr d a b e imm s := rfl
  rw [hexec, execPkwr]
  exact c.onRecord_next hnamed ((bind_of_ok (Here.pkAt_stale hal hcur) _).trans rfl)

end Stale

section Current
variable {key pa : Nat} {r : Record} (hcur : s.pkCurrent (h.s a) = some (key, r)) (hal : (h.pkOff b imm).toNat % 8 = 0)
  (hpa : s.pkAddr key r (h.pkOff b imm).toNat = some pa)
include hcur hal hpa

theorem Clear.pkrd_current : exec (.pkrd d a b imm) s = .next (h.done s fun w => w.writeS h.side d.toNat (s.get64 pa)) := by
  have hexec : exec (.pkrd d a b imm) s = execPkrd d a b imm s := rfl
  rw [hexec, execPkrd]
  exact c.onRecord_next hnamed ((bind_of_ok (Here.pkAt_current hal hcur hpa) _).trans rfl)

/-- R444: pkwr writes what may be patched. -/
theorem Clear.pkwr_current : exec (.pkwr d a b e imm) s =
    .next (if s.patchable key r (h.pkOff b imm).toNat (h.s e) = true
      then h.status (if 0x1000 ≤ (h.pkOff b imm).toNat
        then (s.put64 pa (h.s e)).mended ((h.pkOff b imm).toNat - 0x1000) r.work else s.put64 pa (h.s e)) d 0
      else h.status s d 2) := by
  have hexec : exec (.pkwr d a b e imm) s = execPkwr d a b e imm s := rfl
  rw [hexec, execPkwr]
  refine c.onRecord_next hnamed ((bind_of_ok (Here.pkAt_current hal hcur hpa) _).trans ?_)
  dsimp only
  cases s.patchable key r (h.pkOff b imm).toNat (h.s e) <;> rfl

end Current

theorem Clear.exec_pkclr : exec (.pkclr d a b) s = .next (match s.pkCurrent (h.s a) with
    | none => h.status s d 1
    | some (key, _) => if (h.s b).getLsbD 26 = true ∧ (s.recCause key).getLsbD 26 = true then h.status s d 4
      else h.status (s.put64 (s.recPa key + 8) (s.recCause key &&& ~~~(h.s b &&& 0x7FFFFFF#64))) d 0) := by
  have hexec : exec (.pkclr d a b) s = execPkclr d a b s := rfl
  rw [hexec, execPkclr]
  refine c.onRecord_next hnamed ?_
  cases s.pkCurrent (h.s a) with
  | none => rfl
  | some x =>
    simp only [Bool.and_eq_true]
    split <;> rfl

/-- R446: a disposition, once its release has been made. -/
theorem Clear.onDisposition_released {sr : List Nat} {disp : Here → Disp} {s1 : State} (hrel : h.release s .sys = .ok s1) :
    onDisposition d a sr disp s = match s1.pkCurrent (h.s a) with
      | none => .next (h.status s1 d 1)
      | some (key, r) => if s1.pkStatus key r (disp h) = 0 then (h.status s1 d 0).dispose key r (disp h)
        else .next (h.status s1 d (s1.pkStatus key r (disp h))) := by
  have hchk := c.check h.f.mask { sr := a.toNat :: sr } (by simp) (.inl rfl)
  have hgo : ¬ (!h.pkNamed s (h.s a)) = true := by rw [hnamed]; exact Bool.false_ne_true
  rw [onDisposition, c.here]
  dsimp only
  rw [bind_of_ok hchk, if_neg hgo, hrel]
  rfl

end Forms

/-- The disposition that a form asks for. -/
theorem exec_dispositionForm {d a b : BitVec 6} {h : Here} {p : Instr × Disp}
    (hp : p ∈ [(Instr.pkres d a, Disp.resume), (.pkret d a, .retry), (.pkredir d a b, .redirect (h.s b)), (.pkkill d a, .kill)])
    (s : State) : ∃ sr disp, disp h = p.2 ∧ exec p.1 s = onDisposition d a sr disp s := by
  simp only [List.mem_cons, List.not_mem_nil, or_false] at hp
  rcases hp with rfl | rfl | rfl | rfl
  · exact ⟨[], fun _ => .resume, rfl, rfl⟩
  · exact ⟨[], fun _ => .retry, rfl, rfl⟩
  · exact ⟨[b.toNat], fun h => .redirect (h.s b), rfl, rfl⟩
  · exact ⟨[], fun _ => .kill, rfl, rfl⟩

section Dispose
variable {s : State} {key : Nat} {r : Record} {d : Disp} (hr : r.remote = false) (hn : r.nest = false)
include hr hn

/-- R428, R446: a record of this device is closed, and the disposition reaches its work. -/
theorem dispose_home : s.dispose key r d = (s.closeRecord key).disposeWork key r.work d := by
  rw [State.dispose, hr, hn]
  rfl

theorem dispose_kill : s.dispose key r .kill = .next ((s.closeRecord key).killWork r.work) := by
  rw [dispose_home hr hn]
  exact if_pos rfl

variable (hd : d ≠ .kill)
include hd

theorem dispose_wave {k : Nat} (hwork : r.work = .wave k) :
    s.dispose key r d = .next ((s.closeRecord key).restartWave key k d) := by
  rw [dispose_home hr hn, hwork]
  exact if_neg hd

theorem dispose_inst {k : Nat} (hwork : r.work = .inst k) :
    s.dispose key r d = .next ((s.closeRecord key).restartInst key k d) := by
  rw [dispose_home hr hn, hwork]
  exact if_neg hd

theorem dispose_seg {k i : Nat} (hwork : r.work = .seg k i) :
    s.dispose key r d = .next ((s.closeRecord key).restartSeg key k i d) := by
  rw [dispose_home hr hn, hwork]
  exact if_neg hd

theorem dispose_launch {k : Nat} (hwork : r.work = .launch k) :
    s.dispose key r d = .next ((s.closeRecord key).restartLaunch key k d) := by
  rw [dispose_home hr hn, hwork]
  exact if_neg hd

end Dispose

section Arbiter
variable {s : State} {n : Nat}

theorem exec_adjournmentRecord_none (hn : s.detached[n]? = none) : exec (.adjournmentRecord n) s = .next s := by
  have e : exec (.adjournmentRecord n) s = execAdjournmentRecord n s := rfl
  rw [e, execAdjournmentRecord, hn]

theorem exec_adjournmentRecord {d : Detached} (hn : s.detached[n]? = some d) : exec (.adjournmentRecord n) s =
    State.arbitrate { s.classify d with detached := s.detached.eraseIdx n } d := by
  have e : exec (.adjournmentRecord n) s = execAdjournmentRecord n s := rfl
  rw [e, execAdjournmentRecord, hn]

/-- R423: detached work that its own context can hold becomes a record there, and its fault task is enqueued on this device. -/
theorem arbitrate_files {d : Detached} {s1 : State} {key : Nat} {r : Route} (hctx : (s.ctx d.ctx).st ≠ .destroying)
    (hdepth : (s.filing d).rcd.depth ≤ 3) (hcon : s.consumedBy d = none)
    (hfile : s.fileIn (s.filing d) d.die (lowBit (s.filing d).causes) = (s1, some (key, r))) (hk : r.tkind ≠ 3) :
    s.arbitrate d = .next (s1.enqueueTask key r (if r.tkind = 2 then r.tdie else d.die) (s1.taskArgs key)) := by
  have hctx' : (s.ctx (s.filing d).rcd.owner).st ≠ .destroying := hctx
  rw [State.arbitrate]
  dsimp only
  rw [if_neg hctx', if_neg hdepth.not_gt, hcon]
  dsimp only
  rw [hfile]
  dsimp only
  rw [State.afterFiling, State.launchTask, if_pos hk]

end Arbiter

/-- What a write of an engine to memory changes: memory, the words of windows, and the events that it reports. -/
def EngineOnly (s t : State) : Prop := t = { s with mem := t.mem, crews := t.crews, detached := t.detached }

namespace EngineOnly

theorem trans {s t u : State} (a : EngineOnly s t) (b : EngineOnly t u) : EngineOnly s u := by
  rw [EngineOnly] at *
  rw [b, a]

theorem foldl {α : Type} {f : State → α → State} (hf : ∀ s x, EngineOnly s (f s x)) :
    ∀ (l : List α) (s : State), EngineOnly s (l.foldl f s)
  | [], _ => rfl
  | x :: l, s => (hf s x).trans (foldl hf l (f s x))

theorem recoverLine (s : State) (l : Nat) : EngineOnly s (s.recoverLine l) := by
  unfold State.recoverLine
  split <;> rfl

theorem probe (s : State) (l : Nat) (ts : List Nat) : EngineOnly s (s.probe l ts).1 :=
  foldl (f := fun s d => s.probeDrop l d) (fun _ _ => rfl) _ s

theorem recallLine (s : State) (l : Nat) : EngineOnly s (s.recall l) := by
  unfold State.recall
  dsimp only
  split
  · exact recoverLine s l
  · exact ((recoverLine s l).trans (probe _ l _)).trans rfl

theorem putBytes (s : State) (pa : Nat) (l : List Byte) : EngineOnly s (s.putBytes pa l) :=
  (foldl (fun s l => recallLine s l) (linesOf pa l.length) s).trans rfl

variable {s t : State} (a : EngineOnly s t)
include a

theorem records : t.records = s.records := by rw [show t = _ from a]

theorem ctxs : t.ctxs = s.ctxs := by rw [show t = _ from a]

end EngineOnly

/-- R379: a hold is a write to the scope table, or nothing. -/
theorem EngineOnly.hold (s : State) (ctx n : Nat) : EngineOnly s (s.hold ctx n) := by
  unfold State.hold
  split
  · rfl
  · exact putBytes ..

theorem State.recGen_of_ctxs {s t : State} (e : t.ctxs = s.ctxs) (key : Nat) : t.recGen key = s.recGen key := by
  rw [State.recGen, State.ctx, e]
  rfl

/-- R423, R427: the record that is filed stands under its key, with the next generation of its slot. -/
theorem putRecord_spec (s : State) (f : Filing) {slot : Nat} (hslot : slot < 4096) :
    (s.putRecord f slot).records.get? (recKey f.rcd.owner slot) = some f.rcd ∧
      (s.putRecord f slot).recGen (recKey f.rcd.owner slot) = s.recGen (recKey f.rcd.owner slot) + 1 := by
  have howner : recKey f.rcd.owner slot / 4096 = f.rcd.owner := by unfold recKey; omega
  have hmod : recKey f.rcd.owner slot % 4096 = slot := by unfold recKey; omega
  unfold State.putRecord
  dsimp only
  refine ⟨?_, ?_⟩
  · rw [(EngineOnly.hold ..).records]
    exact Table.get?_put_same ..
  · refine (State.recGen_of_ctxs (EngineOnly.hold ..).ctxs _).trans
      ((State.recGen_of_ctxs (EngineOnly.putBytes ..).ctxs _).trans ?_)
    rw [State.recGen, howner, hmod, State.ctx_setCtx_same]
    exact (Cells.read_write _ _ _ _).trans (if_pos rfl)

section Messages
variable {s s1 : State} {qk ctx : Nat} {n : W32} {m : List Byte}

theorem exec_messages_none (h : s.takeMessage qk n = none) :
    exec (.taskMessage qk n) s = .next s ∧ exec (.dispositionMessage qk n) s = .next s := by
  have e1 : exec (.taskMessage qk n) s = execTaskMessage qk n s := rfl
  have e2 : exec (.dispositionMessage qk n) s = execDispositionMessage qk n s := rfl
  rw [e1, e2, execTaskMessage, execDispositionMessage, h]
  exact ⟨rfl, rfl⟩

variable (h : s.takeMessage qk n = some (ctx, s1, .ok m))
include h

/-- R439: a task message becomes a proxy. -/
theorem exec_taskMessage (hm : m.take 1 = [1]) :
    exec (.taskMessage qk n) s = s1.fileProxy (proxyOf m qk ctx (s1.qp qk).die) (routeIn m) := by
  have e : exec (.taskMessage qk n) s = execTaskMessage qk n s := rfl
  rw [e, execTaskMessage, h]
  exact if_pos hm

theorem exec_dispositionMessage (hm : m.take 1 = [2]) : exec (.dispositionMessage qk n) s = s1.remoteDisposition qk m := by
  have e : exec (.dispositionMessage qk n) s = execDispositionMessage qk n s := rfl
  rw [e, execDispositionMessage, h]
  exact if_pos hm

end Messages

section Proxy
variable {s : State} {f : Filing} (r : Route)

theorem fileProxy_holds {slot : Nat} (hslot : s.freeRecSlot f.rcd.owner f.rcd.depth = some slot) : s.fileProxy f r =
    .next ((s.putRecord f slot).enqueueTask (recKey f.rcd.owner slot) r f.rcd.home
      ((s.putRecord f slot).taskArgs (recKey f.rcd.owner slot))) := by
  rw [State.fileProxy, hslot]

theorem fileProxy_lost (hslot : s.freeRecSlot f.rcd.owner f.rcd.depth = none) (h0 : f.rcd.owner = 0) :
    s.fileProxy f r = .next (s.count 11) := by
  rw [State.fileProxy, hslot]
  exact if_pos h0

end Proxy

section Remote
variable {s : State} {qk : Nat} {m : List Byte} {x : Option (Nat × Record)}
  (hx : (s.pkCurrent (BitVec.ofNat 64 (leNat ((m.drop 8).take 8)))).filter (fun x => x.2.sent == some qk && !x.2.remote) = x)
include hx

/-- R439: a disposition for a handle that is stale. -/
theorem remoteDisposition_stale (hnone : x = none) : s.remoteDisposition qk m = .next (s.count 10) := by
  rw [State.remoteDisposition]
  dsimp only
  rw [hx, hnone]

/-- R439: at its home a disposition that the message names acts on the record as the image leaves it. -/
theorem remoteDisposition_acts {key : Nat} {r : Record} {d : Disp} (hsome : x = some (key, r))
    (hd : dispOf (leNat ((m.drop 1).take 1)) (BitVec.ofNat 64 (leNat ((m.drop 0x20).take 8))) = some d) :
    s.remoteDisposition qk m = if (s.applyImage key r (m.drop 0x40)).pkStatus key r d = 0
      then (s.applyImage key r (m.drop 0x40)).dispose key r d else .next (s.applyImage key r (m.drop 0x40)) := by
  rw [State.remoteDisposition]
  dsimp only
  rw [hx, hsome]
  dsimp only
  rw [hd]

end Remote

/-- Settles O49: the forms by what the handle names, a disposition by its work, a record by its slot, a message by its type. -/
theorem recordInstructions : Obligations.RecordInstructions := by
  unfold Obligations.RecordInstructions
  refine ⟨fun s h a c hno hw d b e imm => c.recordForm_unnamed hno hw, ?forms, ?dispositions,
    fun s key r d hr hn => ⟨dispose_kill hr hn, fun hd k => dispose_wave hr hn hd, fun hd k => dispose_inst hr hn hd,
      fun hd k i => dispose_seg hr hn hd, fun hd k => dispose_launch hr hn hd⟩, fun n s => exec_adjournmentRecord_none, ?files,
    fun s f slot => putRecord_spec s f, fun qk n s => ⟨exec_messages_none, ?messages⟩⟩
  case forms =>
    intro s h d a b e imm c hnamed o
    refine ⟨fun hcur => ⟨fun hal => ⟨c.pkrd_stale hnamed hcur hal, c.pkwr_stale hnamed hcur hal⟩, ?_⟩, fun key r hcur =>
      ⟨fun pa hal hpa => ⟨c.pkrd_current hnamed hcur hal hpa, c.pkwr_current hnamed hcur hal hpa⟩, ?_⟩⟩
    all_goals rw [c.exec_pkclr hnamed, hcur]
  case dispositions =>
    intro s h d a b s1 c hnamed hrel p hp
    obtain ⟨sr, disp, hdisp, e⟩ := exec_dispositionForm hp s
    rw [e, c.onDisposition_released hnamed hrel, hdisp]
    refine ⟨fun hcur => by rw [hcur], fun key r hcur => ?_⟩
    rw [hcur]
    exact ⟨fun hne => if_neg hne, fun t hst ht => (if_pos hst).trans ht⟩
  case files =>
    intro n s d hn s0 f s1 key r hctx hdepth hcon hfile hk
    exact (exec_adjournmentRecord hn).trans (arbitrate_files hctx hdepth hcon hfile hk)
  case messages =>
    intro ctx s1 m hmsg
    refine ⟨fun hm => ⟨fun slot hslot => ?_, fun hslot h0 => ?_⟩, fun hm => ⟨fun hnone => ?_, fun key r d t hsome hd => ⟨fun hst => ?_, fun hst ht => ?_⟩⟩⟩
    · exact (exec_taskMessage hmsg hm).trans (fileProxy_holds _ hslot)
    · exact (exec_taskMessage hmsg hm).trans (fileProxy_lost _ hslot h0)
    · exact (exec_dispositionMessage hmsg hm).trans (remoteDisposition_stale rfl hnone)
    · exact (exec_dispositionMessage hmsg hm).trans ((remoteDisposition_acts rfl hsome hd).trans (if_neg hst))
    · exact (exec_dispositionMessage hmsg hm).trans ((remoteDisposition_acts rfl hsome hd).trans ((if_pos hst).trans ht))

end Sys2Proof.Machine

/-! The link: instructions, packets and time-outs (R450 to R466). -/
namespace Sys2Proof.Machine

/-! What stores performed leave of the link: all of it. -/

theorem EngineOnly.doGetM (s : State) (d l : Nat) : EngineOnly s (s.doGetM d l) := by
  have hprobe (ts : List Nat) := (recoverLine s l).trans (probe (s.recoverLine l) l ts)
  unfold State.doGetM
  dsimp only
  split
  · split
    · exact (recoverLine s l).trans rfl
    · exact (hprobe _).trans rfl
  · split
    · exact (hprobe _).trans rfl
    · exact (hprobe _).trans rfl

theorem EngineOnly.coreWrite (s : State) (core pa n : Nat) (f : Nat → Byte) : EngineOnly s (s.coreWrite core pa n f) := by
  refine (foldl (fun s l => ?_) (linesOf pa n) s).trans rfl
  dsimp only
  split
  · exact (foldl (fun s l => recallLine s l) _ s).trans rfl
  · exact (doGetM s _ l).trans rfl

theorem EngineOnly.link {s t : State} (a : EngineOnly s t) : t.link = s.link := by rw [show t = _ from a]

@[simp] theorem State.storePieces_link (core : Nat) (who : Option Nat) : ∀ (ps : List Piece) (bs : List Byte) (s : State),
    (s.storePieces core who ps bs).link = s.link
  | [], _, _ => rfl
  | p :: ps, _, s => (State.storePieces_link core who ps _ _).trans (EngineOnly.coreWrite s core p.pa p.len _).link

@[simp] theorem State.performed_link (s : State) (p : Post) : (s.performed p).link = s.link :=
  State.storePieces_link p.core p.who p.parts p.data s

@[simp] theorem State.settle_link (s : State) (p : Post → Bool) : (s.settle p).link = s.link :=
  List.foldlRecOn (motive := fun t : State => t.link = s.link) _ _ rfl fun t ht x _ => (t.performed_link x).trans ht

theorem State.qp_of_link {s t : State} (e : t.link = s.link) (k : Nat) : t.qp k = s.qp k := by
  rw [State.qp, e]
  rfl

@[simp] theorem State.qp_setQp_same (s : State) (k : Nat) (f : Qp → Qp) : (s.setQp k f).qp k = f (s.qp k) := by
  rw [State.qp, State.setQp, Table.get?_put_same]
  rfl

/-! lpost and lsend (R455, R456, R464). -/

section Post
variable {s s1 : State} {h : Here} (c : Clear s h []) {o : LinkOp} {post : Bool}
include c

theorem Clear.onLink_idle (post : Bool) (o : LinkOp) (hm : h.f.mask = 0) : onLink post o s = .next (h.done s id) := by
  rw [onLink, c.here]
  dsimp only
  rw [c.check h.f.mask _ (by simp) (.inl rfl)]
  exact if_pos hm

variable (hm : h.f.mask ≠ 0) (hchk : h.linkCheck s post o = (s1, none))
include hm hchk

/-- R464: a status that is not 0 is written in bits 63:32 of s_D. -/
theorem Clear.onLink_status {st : Nat} (hst : s1.linkStatus post o (h.s o.a) (h.s o.b) = st) (hne : st ≠ 0) :
    onLink post o s = .next (h.done s1 fun w => w.writeS h.side o.d.toNat (BitVec.ofNat 64 (st * 2 ^ 32))) := by
  rw [onLink, c.here]
  dsimp only
  rw [c.check h.f.mask _ (by simp) (.inl rfl), hchk]
  dsimp only
  rw [if_neg hm, hst, if_neg hne, if_pos hne]

/-- R455: a receive is posted once the stores of the fragment are performed. -/
theorem Clear.onLink_posts (hst : s1.linkStatus true o (h.s o.a) (h.s o.b) = 0) (hpost : post = true) : onLink post o s =
    .next ((h.done ((h.marked s1).settle (·.seenBy h.f.id)) fun w => w.writeS h.side o.d.toNat
      (BitVec.ofNat 64 (s1.qp (bits (h.s o.a) 0 12)).nrecv.toNat)).setQp (bits (h.s o.a) 0 12) fun q =>
        { q with nrecv := q.nrecv + 1, recvs := q.recvs ++ [{ h.linkOpn s1 o with n := q.nrecv }] }) := by
  subst hpost
  rw [onLink, c.here]
  dsimp only
  rw [c.check h.f.mask _ (by simp) (.inl rfl), hchk]
  dsimp only
  rw [if_neg hm, hst]
  rfl

/-- R456: a send starts once the stores of the fragment are performed. -/
theorem Clear.onLink_sends (hst : s1.linkStatus false o (h.s o.a) (h.s o.b) = 0) (hpost : post = false) : onLink post o s =
    (h.done ((h.marked s1).settle (·.seenBy h.f.id)) fun w => w.writeS h.side o.d.toNat
      (BitVec.ofNat 64 (s1.qp (bits (h.s o.a) 0 12)).nsend.toNat)).startSend (bits (h.s o.a) 0 12) (h.linkOpn s1 o) := by
  subst hpost
  rw [onLink, c.here]
  dsimp only
  rw [c.check h.f.mask _ (by simp) (.inl rfl), hchk]
  dsimp only
  rw [if_neg hm, hst]
  rfl

end Post

/-! R464: the status of a form. -/

section Status
variable (s : State) (post : Bool) (o : LinkOp) (a b : W64)

/-- The queue pair is in a state that takes the operation. -/
def Qp.takes (q : Qp) (post : Bool) : Prop := q.st = .ready ∨ post = true ∧ q.st = .init

theorem Qp.takes_iff (q : Qp) :
    (if post then q.st == .init || q.st == .ready else q.st == .ready) = true ↔ q.takes post := by
  cases post <;> simp [Qp.takes, or_comm]

variable {s post o a b} (hgood : ¬ linkBad post o.kind.toNat o.sp a b = true)

theorem State.linkStatus_bad (hbad : linkBad post o.kind.toNat o.sp a b = true) : s.linkStatus post o a b = 3 := if_pos hbad

include hgood

theorem State.linkStatus_down (hup : ¬ (s.qp (bits a 0 12)).takes post) : s.linkStatus post o a b = 1 :=
  (if_neg hgood).trans (if_neg (mt (Qp.takes_iff post _).mp hup))

variable (hup : (s.qp (bits a 0 12)).takes post)
include hup

theorem State.linkStatus_full (hfull : 1024 ≤ (if post then (s.qp (bits a 0 12)).recvs else (s.qp (bits a 0 12)).sends).length) :
    s.linkStatus post o a b = 2 :=
  (if_neg hgood).trans ((if_pos ((Qp.takes_iff post _).mpr hup)).trans (if_pos hfull))

theorem State.linkStatus_free (hfree : ¬ 1024 ≤ (if post then (s.qp (bits a 0 12)).recvs else (s.qp (bits a 0 12)).sends).length) :
    s.linkStatus post o a b = 0 :=
  (if_neg hgood).trans ((if_pos ((Qp.takes_iff post _).mpr hup)).trans (if_neg hfree))

end Status

/-- R456: the number of a send is the queue pair's next one, in the record and in the attempt. -/
theorem State.startSend_of_link {s s1 : State} (e : s.link = s1.link) (k : Nat) (o : LinkOpn) : s.startSend k o =
    (s.setQp k fun q => { q with nsend := q.nsend + 1, sends := q.sends ++ [{ o with n := q.nsend }] }).sendMessage k
      (s1.qp k).nsend := by
  rw [State.startSend, State.qp_of_link e.symm k]
  rfl

theorem exec_linkForm (post : Bool) (o : LinkOp) (s : State) :
    exec (if post then .lpost o else .lsend o) s = onLink post o s := by
  cases post <;> rfl

/-- R456: an attempt whose packets all leave starts its timer. -/
theorem State.sendMessage_sent {s s1 : State} {k : Nat} {n : W32} {o : LinkOpn} (hop : (s.qp k).op true n = some o)
    (hsent : State.sendPackets k o s (if o.len = 0 then [0] else
      (List.range ((o.len + (s.qp k).packet - 1) / (s.qp k).packet)).map ((s.qp k).packet * ·)) = (s1, none)) :
    s.sendMessage k n = .next (s1.setQp k fun q => q.setOp true n fun o => { o with sentAt := s.clk, spared := false }) := by
  rw [State.sendMessage]
  dsimp only
  rw [hop]
  dsimp only
  rw [hsent]

/-! lpoll and lqp (R452, R465, R466). -/

section Poll
variable {s : State} {h : Here} (c : Clear s h []) (d a : BitVec 6)
include c

theorem Clear.onQp_idle (op : Nat) (hm : h.f.mask = 0) : onQp op d a s = .next (h.done s id) :=
  c.scalars_next [a.toNat] (if_pos hm)

theorem Clear.lpoll_idle (r : Bool) (hm : h.f.mask = 0) : exec (.lpoll d a r) s = .next (h.done s id) :=
  c.scalars_next [a.toNat] (if_pos hm)

variable (hm : h.f.mask ≠ 0) (hown : h.ownsQp s (h.s a) = true)
include hm hown

theorem Clear.lpoll_reads (r : Bool) : exec (.lpoll d a r) s = .next (h.done
    (if r = true ∧ bits ((s.qp (bits (h.s a) 0 12)).poll r (BitVec.ofNat 32 (bits (h.s a) 32 32))) 0 8 = 1
      then h.acquire s .pkg else s) fun w => w.writeS h.side d.toNat
        ((s.qp (bits (h.s a) 0 12)).poll r (BitVec.ofNat 32 (bits (h.s a) 32 32)))) :=
  c.scalars_next [a.toNat] ((if_neg hm).trans (if_neg (by rw [hown]; exact Bool.false_ne_true)))

/-- R466: a refused operation writes the word of the queue pair as it is, and that it refused. -/
theorem Clear.onQp_refuses {op : Nat} (hno : (if bits (h.s a) 12 52 = 0 then s.moveQp (bits (h.s a) 0 12) op else none) = none) :
    onQp op d a s = .next (h.done s fun w => w.writeS h.side d.toNat ((s.qp (bits (h.s a) 0 12)).word true)) := by
  refine c.scalars_next [a.toNat] ((if_neg hm).trans ((if_neg (by rw [hown]; exact Bool.false_ne_true)).trans ?_))
  dsimp only
  rw [hno]
  rfl

theorem Clear.onQp_moves {op : Nat} {s1 : State} (hz : bits (h.s a) 12 52 = 0) (hmove : s.moveQp (bits (h.s a) 0 12) op = some s1) :
    onQp op d a s = .next ((h.again s1).done s1 fun w => w.writeS h.side d.toNat ((s1.qp (bits (h.s a) 0 12)).word false)) := by
  refine c.scalars_next [a.toNat] ((if_neg hm).trans ((if_neg (by rw [hown]; exact Bool.false_ne_true)).trans ?_))
  dsimp only
  rw [if_pos hz, hmove]

/-- The same where the move leaves the waves alone. -/
theorem Clear.onQp_moves_alone {op : Nat} {s1 : State} (hz : bits (h.s a) 12 52 = 0)
    (hmove : s.moveQp (bits (h.s a) 0 12) op = some s1) (hwaves : s1.waves = s.waves) :
    onQp op d a s = .next (h.done s1 fun w => w.writeS h.side d.toNat ((s1.qp (bits (h.s a) 0 12)).word false)) := by
  rw [c.onQp_moves d a hm hown hz hmove]
  have hagain : h.again s1 = h := by
    obtain ⟨hwave, -, hfrag, -⟩ := here_spec c.here
    rw [Here.again, hwaves, hwave]
    dsimp only
    rw [hfrag]
    rfl
  rw [hagain]

section Moves
variable (hz : bits (h.s a) 12 52 = 0)
include hz

theorem Clear.lqpQuery_reads : exec (.lqpQuery d a) s =
    .next (h.done s fun w => w.writeS h.side d.toNat ((s.qp (bits (h.s a) 0 12)).word false)) :=
  c.onQp_moves_alone d a hm hown hz rfl rfl

/-- R452, R453: a reset flushes the queue pair. -/
theorem Clear.lqpReset_flushes : exec (.lqpReset d a) s = .next (if (s.qp (bits (h.s a) 0 12)).st = .reset
    then h.done s fun w => w.writeS h.side d.toNat ((s.qp (bits (h.s a) 0 12)).word true)
    else (h.again (s.flush (bits (h.s a) 0 12) .reset)).done (s.flush (bits (h.s a) 0 12) .reset) fun w =>
      w.writeS h.side d.toNat (((s.flush (bits (h.s a) 0 12) .reset).qp (bits (h.s a) 0 12)).word false)) := by
  split
  next hst => exact c.onQp_refuses d a hm hown ((if_pos hz).trans (if_pos hst))
  next hst => exact c.onQp_moves d a hm hown hz (if_neg hst)

/-- R452: a queue pair in reset starts anew with the descriptor of the table. -/
theorem Clear.lqpInit_starts : exec (.lqpInit d a) s = .next
    (if (s.qp (bits (h.s a) 0 12)).st = .reset ∧ s.health.qptab ≠ 0 ∧ qpDescOk (s.qpDesc (bits (h.s a) 0 12)) = true ∧
        (s.ctx (qpField (s.qpDesc (bits (h.s a) 0 12)) 0 1)).st = .active
      then h.done (s.setQp (bits (h.s a) 0 12) fun _ =>
          { st := .init, desc := s.qpDesc (bits (h.s a) 0 12), inbox := (s.qp (bits (h.s a) 0 12)).inbox }) fun w =>
        w.writeS h.side d.toNat (({ st := .init, desc := s.qpDesc (bits (h.s a) 0 12), inbox := (s.qp (bits (h.s a) 0 12)).inbox } :
          Qp).word false)
      else h.done s fun w => w.writeS h.side d.toNat ((s.qp (bits (h.s a) 0 12)).word true)) := by
  split
  next hst =>
    refine (c.onQp_moves_alone (op := 2) d a hm hown hz (if_pos hst) rfl).trans ?_
    rw [State.qp_setQp_same]
    rfl
  next hst => exact c.onQp_refuses (op := 2) d a hm hown ((if_pos hz).trans (if_neg hst))

theorem Clear.lqpReady_opens : exec (.lqpReady d a) s = .next (if (s.qp (bits (h.s a) 0 12)).st = .init
    then h.done (s.setQp (bits (h.s a) 0 12) fun q => { q with st := .ready }) fun w =>
      w.writeS h.side d.toNat ({ s.qp (bits (h.s a) 0 12) with st := .ready }.word false)
    else h.done s fun w => w.writeS h.side d.toNat ((s.qp (bits (h.s a) 0 12)).word true)) := by
  split
  next hst =>
    refine (c.onQp_moves_alone (op := 3) d a hm hown hz (if_pos hst) rfl).trans ?_
    rw [State.qp_setQp_same]
  next hst => exact c.onQp_refuses (op := 3) d a hm hown ((if_pos hz).trans (if_neg hst))

end Moves

end Poll

/-- R466: the four operations of lqp. -/
theorem exec_lqpForm {i : Instr} {d a : BitVec 6} (hi : i ∈ [Instr.lqpQuery d a, .lqpReset d a, .lqpInit d a, .lqpReady d a])
    (s : State) : ∃ op, exec i s = onQp op d a s := by
  simp only [List.mem_cons, List.not_mem_nil, or_false] at hi
  rcases hi with rfl | rfl | rfl | rfl
  · exact ⟨0, rfl⟩
  · exact ⟨1, rfl⟩
  · exact ⟨2, rfl⟩
  · exact ⟨3, rfl⟩

/-! Packets (R450, R455, R457, R458). -/

section Packets
variable {f : Frame} {s : State}

section Frames
variable {k : Nat → Qp → Host.Outcome State Fault Refusal}

/-- R450: a frame that breaks a rule of the header, or finds no ready queue pair. -/
theorem State.frameIn_dropped (hno : ¬ (frameOk f (s.qp f.dqp.toNat) = true ∧ (s.qp f.dqp.toNat).st = .ready)) :
    s.frameIn f k = .next (s.count 6) := if_neg (by simpa using hno)

theorem State.frameIn_taken (hok : frameOk f (s.qp f.dqp.toNat) = true) (hup : (s.qp f.dqp.toNat).st = .ready) :
    s.frameIn f k = k f.dqp.toNat (s.qp f.dqp.toNat) := if_pos (by simp [hok, hup])

end Frames

theorem exec_frame_dropped (hno : ¬ (frameOk f (s.qp f.dqp.toNat) = true ∧ (s.qp f.dqp.toNat).st = .ready)) :
    exec (if f.typ = 2 then .acknowledgementReceive f else if f.typ = 3 then .holdReceive f else .dataPacketReceive f) s =
      .next (s.count 6) := by
  split
  next h2 => exact (if_neg (not_not.mpr h2)).trans (State.frameIn_dropped hno)
  next h2 =>
    split
    next h3 => exact (if_neg (not_not.mpr h3)).trans (State.frameIn_dropped hno)
    next h3 => exact (if_neg (not_or.mpr ⟨h2, h3⟩)).trans (State.frameIn_dropped hno)

variable (hok : frameOk f (s.qp f.dqp.toNat) = true) (hup : (s.qp f.dqp.toNat).st = .ready)
include hok hup

/-- R458: a hold restarts the timer of its send and spares the attempt. -/
theorem exec_holdReceive (ht : f.typ = 3) : exec (.holdReceive f) s = .next (s.setQp f.dqp.toNat fun q =>
    q.setOp true f.msn fun o => { o with sentAt := s.clk, spared := true }) :=
  (if_neg (not_not.mpr ht)).trans (State.frameIn_taken hok hup)

section Acknowledged
variable (ht : f.typ = 2)
include ht

theorem exec_acknowledgementReceive_none (hop : (s.qp f.dqp.toNat).op true f.msn = none) :
    exec (.acknowledgementReceive f) s = .next s := by
  refine (if_neg (not_not.mpr ht)).trans ((State.frameIn_taken hok hup).trans ?_)
  rw [hop]

/-- R458: an acknowledgement completes its send. -/
theorem exec_acknowledgementReceive_some {o : LinkOpn} (hop : (s.qp f.dqp.toNat).op true f.msn = some o) :
    exec (.acknowledgementReceive f) s = .next (s.linkEnd f.dqp.toNat true o f.sts.toNat 0 o.len) := by
  refine (if_neg (not_not.mpr ht)).trans ((State.frameIn_taken hok hup).trans ?_)
  rw [hop]

end Acknowledged

section Data
variable (h2 : f.typ ≠ 2) (h3 : f.typ ≠ 3)
include h2 h3

/-- R457: a number outside the window. -/
theorem exec_dataPacketReceive_outside (hwin : 2048 ≤ (f.msn - (s.qp f.dqp.toNat).low + 1024).toNat) :
    exec (.dataPacketReceive f) s = .next (s.count 6) :=
  (if_neg (not_or.mpr ⟨h2, h3⟩)).trans ((State.frameIn_taken hok hup).trans (if_pos hwin))

variable (hwin : (f.msn - (s.qp f.dqp.toNat).low + 1024).toNat < 2048)
include hwin

/-- R457: a message that is complete is acknowledged again. -/
theorem exec_dataPacketReceive_done {st : Nat} (hdone : (s.qp f.dqp.toNat).doneStatus f.msn = some st) :
    exec (.dataPacketReceive f) s = .next (s.answer f.dqp.toNat 2 f.msn st) := by
  refine (if_neg (not_or.mpr ⟨h2, h3⟩)).trans ((State.frameIn_taken hok hup).trans ((if_neg hwin.not_ge).trans ?_))
  rw [hdone]

variable (hdone : (s.qp f.dqp.toNat).doneStatus f.msn = none)
include hdone

theorem exec_dataPacketReceive_none (hop : (s.qp f.dqp.toNat).op false f.msn = none) :
    exec (.dataPacketReceive f) s = .next s := by
  refine (if_neg (not_or.mpr ⟨h2, h3⟩)).trans ((State.frameIn_taken hok hup).trans ((if_neg hwin.not_ge).trans ?_))
  rw [hdone]
  dsimp only
  rw [hop]

variable {o : LinkOpn} (hop : (s.qp f.dqp.toNat).op false f.msn = some o)
include hop

/-- R457: a packet for a posted receive: held, ignored or placed. -/
theorem exec_dataPacketReceive_some : exec (.dataPacketReceive f) s =
    if o.parked = true then .next (s.answer f.dqp.toNat 3 f.msn 0)
    else if (o.got.any fun g => g.1 == f.off.toNat) = true then .next s
    else s.recvPacket f.dqp.toNat (s.qp f.dqp.toNat) o f := by
  refine (if_neg (not_or.mpr ⟨h2, h3⟩)).trans ((State.frameIn_taken hok hup).trans ((if_neg hwin.not_ge).trans ?_))
  rw [hdone]
  dsimp only
  rw [hop]

theorem exec_dataPacketReceive_parked (hp : o.parked = true) :
    exec (.dataPacketReceive f) s = .next (s.answer f.dqp.toNat 3 f.msn 0) := by
  rw [exec_dataPacketReceive_some hok hup h2 h3 hwin hdone hop, if_pos hp]

variable (hp : o.parked = false)
include hp

theorem exec_dataPacketReceive_again (hgot : ∃ g ∈ o.got, g.1 = f.off.toNat) : exec (.dataPacketReceive f) s = .next s := by
  rw [exec_dataPacketReceive_some hok hup h2 h3 hwin hdone hop, if_neg (by simp [hp]), if_pos (by simpa using hgot)]

theorem exec_dataPacketReceive_new (hgot : ∀ g ∈ o.got, g.1 ≠ f.off.toNat) :
    exec (.dataPacketReceive f) s = s.recvPacket f.dqp.toNat (s.qp f.dqp.toNat) o f := by
  have hnew : ¬ (o.got.any fun g => g.1 == f.off.toNat) = true := fun hany =>
    let ⟨g, hg, heq⟩ := List.any_eq_true.mp hany
    hgot g hg (eq_of_beq heq)
  rw [exec_dataPacketReceive_some hok hup h2 h3 hwin hdone hop, if_neg (by simp [hp]), if_neg hnew]

end Data

end Packets

section Received
variable {s : State} {qk : Nat} {q : Qp} {o : LinkOpn} {f : Frame}

/-- R455: the first packet of a message that the receive cannot take ends it with status 3. -/
theorem State.recvPacket_unfit (hfirst : o.tlen = none) (hbad : f.kind.toNat ≠ o.kind ∨ o.len < f.tlen.toNat) :
    s.recvPacket qk q o f = .next (s.recvDone qk o 3 f.tlen) := if_pos ⟨hfirst, hbad⟩

theorem State.recvPacket_otherLength (hlater : o.tlen ≠ none) (hlen : o.tlen ≠ some f.tlen) :
    s.recvPacket qk q o f = .next (s.count 6) := (if_neg fun h => hlater h.1).trans (if_pos ⟨hlater, hlen⟩)

/-- R455, R457: a packet is placed; the one that fills the message completes the receive. -/
theorem State.recvPacket_placed {s1 : State}
    (hfit : o.tlen = none ∧ f.kind.toNat = o.kind ∧ f.tlen.toNat ≤ o.len ∨ o.tlen = some f.tlen)
    (hplace : s.place q { o with tlen := some f.tlen } f.off.toNat f.payload = (s1, none)) :
    let o2 := { o with tlen := some f.tlen, got := o.got ++ [(f.off.toNat, f.payload.length)] }
    let s2 := s1.setQp qk fun q => q.setOp false o.n fun _ => o2
    s.recvPacket qk q o f = .next (if o2.bytes = f.tlen.toNat then s2.recvDone qk o2 1 f.tlen else s2) := by
  have hkind : ¬ (o.tlen = none ∧ (f.kind.toNat ≠ o.kind ∨ o.len < f.tlen.toNat)) := by
    rintro ⟨hfirst, hbad⟩
    rcases hfit with ⟨-, hk, hl⟩ | hsame
    · exact hbad.elim (· hk) (·.not_ge hl)
    · rw [hfirst] at hsame
      cases hsame
  have hlen : ¬ (o.tlen ≠ none ∧ o.tlen ≠ some f.tlen) := fun h => hfit.elim (fun hf => h.1 hf.1) h.2
  refine (if_neg hkind).trans ((if_neg hlen).trans ?_)
  dsimp only
  rw [hplace]

end Received

/-! Time-outs (R458). -/

section Timeout
variable {s : State} {k : Nat} {n : W32} {o : LinkOpn} (hop : (s.qp k).op true n = some o)
include hop

theorem exec_sendTimeout : exec (.sendTimeout k n) s =
    if (s.qp k).st ≠ .ready ∨ o.parked = true ∨ (s.clk - o.sentAt).toNat < 100000 then .next s
    else if o.spared = true then s.sendMessage k n
    else if o.att < 7 then (s.setQp k fun q => q.setOp true n fun o => { o with att := o.att + 1 }).sendMessage k n
    else .next (s.sendFails k n o) := by
  have hexec : exec (.sendTimeout k n) s = execSendTimeout k n s := rfl
  rw [hexec, execSendTimeout, hop]

theorem exec_sendTimeout_early (hno : (s.qp k).st ≠ .ready ∨ o.parked = true ∨ (s.clk - o.sentAt).toNat < 100000) :
    exec (.sendTimeout k n) s = .next s := by
  rw [exec_sendTimeout hop, if_pos hno]

theorem exec_sendTimeout_due (hup : (s.qp k).st = .ready) (hp : o.parked = false) (hlate : 100000 ≤ (s.clk - o.sentAt).toNat) :
    exec (.sendTimeout k n) s = if o.spared = true then s.sendMessage k n
      else if o.att < 7 then (s.setQp k fun q => q.setOp true n fun o => { o with att := o.att + 1 }).sendMessage k n
      else .next (s.sendFails k n o) := by
  rw [exec_sendTimeout hop, if_neg (by simpa [hup, hp] using hlate)]

end Timeout

/-- R455, R457: what a new packet of a receive that is not held does. -/
theorem exec_dataPacketReceive_cases {f : Frame} {s : State} (hok : frameOk f (s.qp f.dqp.toNat) = true)
    (hup : (s.qp f.dqp.toNat).st = .ready) (h2 : f.typ ≠ 2) (h3 : f.typ ≠ 3)
    (hwin : (f.msn - (s.qp f.dqp.toNat).low + 1024).toNat < 2048) {o : LinkOpn}
    (hdone : (s.qp f.dqp.toNat).doneStatus f.msn = none) (hop : (s.qp f.dqp.toNat).op false f.msn = some o)
    (hp : o.parked = false) (hgot : ∀ g ∈ o.got, g.1 ≠ f.off.toNat) :
    (o.tlen = none → (f.kind.toNat ≠ o.kind ∨ o.len < f.tlen.toNat) →
      exec (.dataPacketReceive f) s = .next (s.recvDone f.dqp.toNat o 3 f.tlen)) ∧
    (o.tlen ≠ none → o.tlen ≠ some f.tlen → exec (.dataPacketReceive f) s = .next (s.count 6)) ∧
    ∀ s1, (o.tlen = none ∧ f.kind.toNat = o.kind ∧ f.tlen.toNat ≤ o.len ∨ o.tlen = some f.tlen) →
      s.place (s.qp f.dqp.toNat) { o with tlen := some f.tlen } f.off.toNat f.payload = (s1, none) →
      let o2 := { o with tlen := some f.tlen, got := o.got ++ [(f.off.toNat, f.payload.length)] }
      let s2 := s1.setQp f.dqp.toNat fun q => q.setOp false o.n fun _ => o2
      exec (.dataPacketReceive f) s = .next (if o2.bytes = f.tlen.toNat then s2.recvDone f.dqp.toNat o2 1 f.tlen else s2) := by
  rw [exec_dataPacketReceive_new hok hup h2 h3 hwin hdone hop hp hgot]
  exact ⟨State.recvPacket_unfit, State.recvPacket_otherLength, fun s1 => State.recvPacket_placed⟩

/-- Settles O48: the status decides what an instruction does, the frame's type and the receive's state what a packet does. -/
theorem linkOperations : Obligations.LinkOperations := by
  unfold Obligations.LinkOperations
  refine ⟨fun s h c hm => ⟨fun o => ⟨c.onLink_idle true o hm, c.onLink_idle false o hm⟩, fun d a => ⟨fun r => c.lpoll_idle d a r hm,
    fun i hi => ?idle⟩⟩, ?post, fun s s1 k n o => State.sendMessage_sent, ?poll, ?packets, ?timeouts⟩
  case idle =>
    obtain ⟨op, e⟩ := exec_lqpForm hi s
    rw [e, c.onQp_idle d a op hm]
  case post =>
    intro s h o s1 post c hm hchk k q i out bad up full
    have hexec : exec i s = onLink post o s := exec_linkForm post o s
    rw [hexec]
    refine ⟨fun hbad => c.onLink_status hm hchk (State.linkStatus_bad hbad) (by decide), fun hgood hup => ?_,
      fun hgood hup hfull => ?_, fun hgood hup hfree => ⟨fun hpost => ?_, fun t hpost hsend => ?_⟩⟩
    · exact (c.onLink_status hm hchk (State.linkStatus_down hgood hup) (by decide)).trans rfl
    · exact c.onLink_status hm hchk (State.linkStatus_full hgood hup hfull) (by decide)
    · exact c.onLink_posts hm hchk (hpost ▸ State.linkStatus_free hgood hup hfree) hpost
    · rw [c.onLink_sends hm hchk (hpost ▸ State.linkStatus_free hgood hup hfree) hpost, ← hsend]
      exact State.startSend_of_link (s := out _ q.nsend.toNat) (s1 := s1) (State.settle_link (h.marked s1) _) k _
  case poll =>
    intro s h d a c hm hctx
    have hown : h.ownsQp s (h.s a) = true := by simpa [Here.ownsQp] using hctx
    refine ⟨c.lpoll_reads d a hm hown, fun hz i hi => ?_, fun hz => ⟨c.lqpQuery_reads d a hm hown hz, c.lqpReset_flushes d a hm hown hz,
      c.lqpInit_starts d a hm hown hz, c.lqpReady_opens d a hm hown hz⟩⟩
    obtain ⟨op, e⟩ := exec_lqpForm hi s
    rw [e, c.onQp_refuses d a hm hown (if_neg hz)]
  case packets =>
    intro f s k q i
    refine ⟨exec_frame_dropped, fun hok hup => ⟨fun ht => ?hold, fun ht => ?ack, fun ht => ?data⟩⟩
    case hold =>
      have hi : i = .holdReceive f := (if_neg (by rw [ht]; decide)).trans (if_pos ht)
      rw [hi]
      exact exec_holdReceive hok hup ht
    case ack =>
      rw [show i = .acknowledgementReceive f from if_pos ht]
      exact ⟨exec_acknowledgementReceive_none hok hup ht, fun o => exec_acknowledgementReceive_some hok hup ht⟩
    case data =>
      have h2 : f.typ ≠ 2 := by rw [ht]; decide
      have h3 : f.typ ≠ 3 := by rw [ht]; decide
      rw [show i = .dataPacketReceive f from (if_neg h2).trans (if_neg h3)]
      refine ⟨exec_dataPacketReceive_outside hok hup h2 h3, fun hwin => ⟨fun st => exec_dataPacketReceive_done hok hup h2 h3 hwin,
        exec_dataPacketReceive_none hok hup h2 h3 hwin, fun o hdone hop => ⟨exec_dataPacketReceive_parked hok hup h2 h3 hwin hdone hop,
          exec_dataPacketReceive_again hok hup h2 h3 hwin hdone hop, exec_dataPacketReceive_cases hok hup h2 h3 hwin hdone hop⟩⟩⟩
  case timeouts =>
    intro k n s o hop
    refine ⟨exec_sendTimeout_early hop, fun hup hp hlate => ?_⟩
    rw [exec_sendTimeout_due hop hup hp hlate]
    refine ⟨fun hatt hsp => ?_, fun t hsp hsend => ?_, fun t hatt hsp hsend => ?_⟩
    · rw [if_neg (by simp [hsp]), if_neg hatt.not_gt]
    · rw [if_pos hsp, hsend]
    · rw [if_neg (by simp [hsp]), if_pos hatt, hsend]

end Sys2Proof.Machine

/-! Registers, counters, ageing, power, quarantine and reset (R468 to R482). -/
namespace Sys2Proof.Machine

/-! Instructions that read and write registers (R343, R481). -/

section Reads
variable {s : State} {h : Here} (c : Clear s h []) (d : BitVec 6)
include c

theorem Clear.mdrd_assigned (e : BitVec 16) (v : W64) (hreg : s.bar0 e.toNat = some v) :
    exec (.mdrd d e) s = .next (h.done s fun w => w.writeS h.side d.toNat v) := by
  refine c.scalars_next [] ?_
  rw [hreg]
  rfl

theorem Clear.mdrd_unassigned (e : BitVec 16) (hreg : s.bar0 e.toNat = none) :
    exec (.mdrd d e) s = .next (h.done (s.refuse e.toNat) fun w => w.writeS h.side d.toNat 0) := by
  refine c.scalars_next [] ?_
  rw [hreg]
  rfl

theorem Clear.flrd_reads (e : BitVec 8) :
    exec (.flrd d e) s = .next (h.done s fun w => w.writeS h.side d.toNat (s.health.counters.read e.toNat)) :=
  c.scalars_next [] rfl

theorem Clear.clkrd_reads : exec (.clkrd d) s = .next (h.done s fun w => w.writeS h.side d.toNat
    (BitVec.ofNat 64 ((s.island (s.islandOf h.w.core)).present + s.islandOf h.w.core * 2 ^ 16))) :=
  c.scalars_next [] rfl

theorem Clear.ctxrd_own (sel : BitVec 8) : exec (.ctxrd d sel none) s = .next (h.done s fun w =>
    w.writeS h.side d.toNat (BitVec.ofNat 64 (s.ctxValue (s.ctxOf h.w) sel.toNat))) :=
  c.scalars_next [] rfl

/-- R481: a context other than 0. -/
theorem Clear.privileged_adjourns (hctx : s.ctxOf h.w ≠ 0) (hw : h.w.mustWait s h.key = false) (a : BitVec 6) (e : BitVec 16)
    (g : BitVec 8) (sel : BitVec 8) (x : BitVec 6) : ∀ i ∈ [Instr.mdwr a e, .flclr d g, .ctxrd d sel (some x)],
      exec i s = .next (s.adjourn h.key h.side (h.report cPROT)) := by
  simp only [List.forall_mem_cons, List.not_mem_nil, false_imp_iff, implies_true, and_true]
  exact ⟨c.scalars_adjourns [a.toNat] hw (if_pos hctx), c.scalars_adjourns [] hw (if_pos hctx),
    c.scalars_adjourns [] hw (if_pos ⟨rfl, hctx⟩)⟩

variable (hctx : s.ctxOf h.w = 0)
include hctx

theorem Clear.mdwr_writes (a : BitVec 6) (e : BitVec 16) :
    exec (.mdwr a e) s = .next (h.done ((h.marked s).writeControl e.toNat (h.s a)) id) :=
  c.scalars_next [a.toNat] (if_neg (not_not.mpr hctx))

theorem Clear.flclr_clears (e : BitVec 8) : exec (.flclr d e) s =
    .next (h.done ((h.marked s).setHealth fun x => { x with counters := x.counters.write e.toNat 0 }) fun w =>
      w.writeS h.side d.toNat (s.health.counters.read e.toNat)) :=
  c.scalars_next [] (if_neg (not_not.mpr hctx))

theorem Clear.ctxrd_named (sel : BitVec 8) (x : BitVec 6) : exec (.ctxrd d sel (some x)) s = .next (h.done s fun w =>
    w.writeS h.side d.toNat (BitVec.ofNat 64 (s.ctxValue x.toNat sel.toNat))) :=
  c.scalars_next [] (if_neg fun hp => hp.2 hctx)

end Reads

/-! The host's writes (R468, R470 to R473). -/

section Writes
variable (s : State) (v : W64)

theorem exec_controlRegisterWrite_unaligned {off size : Nat} (h : size ≠ 8 ∨ off % 8 ≠ 0) :
    exec (.controlRegisterWrite off size v) s = .next (s.refuse off) := if_pos h

theorem exec_controlRegisterWrite_control {e : Nat} (hal : e % 8 = 0) (he : e < 0x100) (hc0 : e ≠ 0x30) :
    exec (.controlRegisterWrite (0x3000 + e) 8 v) s = .next (s.writeControl e v) := by
  have hexec : exec (.controlRegisterWrite (0x3000 + e) 8 v) s = execControlRegisterWrite (0x3000 + e) 8 v s := rfl
  rw [hexec, execControlRegisterWrite, if_neg (by omega), if_neg (by omega), if_pos (by omega), Nat.add_sub_cancel_left]

theorem exec_controlRegisterWrite_partition {p off : Nat} (hp : p < 8) (hoff : off < 512) (hal : off % 8 = 0) :
    exec (.controlRegisterWrite (0x4000 + 512 * p + off) 8 v) s = exec (.partitionWrite p off v) s := by
  have hexec : exec (.controlRegisterWrite (0x4000 + 512 * p + off) 8 v) s =
    execControlRegisterWrite (0x4000 + 512 * p + off) 8 v s := rfl
  rw [hexec, execControlRegisterWrite, if_neg (by omega), if_neg (by omega), if_neg (by omega), if_pos (by omega),
    show (0x4000 + 512 * p + off - 0x4000) / 512 = p by omega, show (0x4000 + 512 * p + off) % 512 = off by omega]
  rfl

theorem exec_controlRegisterWrite_desc {c : Nat} (hc : c < 64) :
    exec (.controlRegisterWrite (0x10008 + 256 * c) 8 v) s = .next (s.writeDesc c v) := by
  have hexec : exec (.controlRegisterWrite (0x10008 + 256 * c) 8 v) s = execControlRegisterWrite (0x10008 + 256 * c) 8 v s := rfl
  rw [hexec, execControlRegisterWrite, if_neg (by omega), if_neg (by omega), if_neg (by omega), if_neg (by omega),
    if_pos (by omega), show (0x10008 + 256 * c - 0x10000) / 256 = c by omega]

theorem exec_controlRegisterWrite_command {c : Nat} (hc : c < 64) :
    exec (.controlRegisterWrite (0x10000 + 256 * c) 8 v) s = contextCommand c v.toNat s := by
  have hexec : exec (.controlRegisterWrite (0x10000 + 256 * c) 8 v) s = execControlRegisterWrite (0x10000 + 256 * c) 8 v s := rfl
  rw [hexec, execControlRegisterWrite, if_neg (by omega), if_neg (by omega), if_neg (by omega), if_neg (by omega),
    if_neg (by omega), if_pos (by omega), show (0x10000 + 256 * c - 0x10000) / 256 = c by omega]

theorem exec_controlRegisterWrite_queue {c q r : Nat} (hc : c < 64) (hq : q < 64) (hr : r < 64) (hal : r % 8 = 0) :
    exec (.controlRegisterWrite (0x400000 + r + 4096 * c + 64 * q) 8 v) s = queueWrite c q r v s := by
  have hexec : exec (.controlRegisterWrite (0x400000 + r + 4096 * c + 64 * q) 8 v) s =
    execControlRegisterWrite (0x400000 + r + 4096 * c + 64 * q) 8 v s := rfl
  rw [hexec, execControlRegisterWrite, if_neg (by omega), if_neg (by omega), if_neg (by omega), if_neg (by omega),
    if_neg (by omega), if_neg (by omega), if_pos (by omega),
    show (0x400000 + r + 4096 * c + 64 * q - 0x400000) / 4096 = c by omega,
    show (0x400000 + r + 4096 * c + 64 * q) % 4096 / 64 = q by omega,
    show (0x400000 + r + 4096 * c + 64 * q) % 64 = r by omega]

end Writes

/-- R470: JBASE takes 0, or an aligned address of memory where it holds none. -/
theorem State.writeJbase_cases (s : State) (v : W64) :
    (v = 0 → (s.writeJbase v).health.jbase = 0) ∧
    (v ≠ 0 → v.toNat % 65536 = 0 → memExists v.toNat = true → s.health.jbase = 0 →
      (s.writeJbase v).health.jbase = v ∧ (s.writeJbase v).health.jhead = 0) ∧
    (v ≠ 0 → (v.toNat % 65536 ≠ 0 ∨ memExists v.toNat = false ∨ s.health.jbase ≠ 0) → s.writeJbase v = s.refuse 0x3008) := by
  refine ⟨fun hv => ?_, fun hv hal hmem hold => ?_, fun hv hbad => ?_⟩
  · rw [State.writeJbase, if_pos hv]
    rfl
  · rw [State.writeJbase, if_neg hv, if_neg (by simp [hal, hmem, hold])]
    exact ⟨rfl, rfl⟩
  · have hold : s.health.jbase ≠ 0 → s.health.jbase.toNat ≠ 0 := mt fun hz => BitVec.eq_of_toNat_eq hz
    rw [State.writeJbase, if_neg hv, if_pos (by simpa using hbad.imp_right (Or.imp_right hold))]

/-- R470: QPTAB takes an aligned address of memory, or 0. -/
theorem State.writeQptab_cases (s : State) (v : W64) :
    (v.toNat % 0x40000 = 0 → memExists v.toNat = true → (s.writeQptab v).health.qptab = v) ∧
    ((v.toNat % 0x40000 ≠ 0 ∨ memExists v.toNat = false) → s.writeQptab v = s.refuse 0x3018) := by
  refine ⟨fun hal hmem => ?_, fun hbad => ?_⟩
  · rw [State.writeQptab, if_neg (by simp [hal, hmem])]
    rfl
  · rw [State.writeQptab, if_pos (by simpa using hbad)]

/-- R470: ERRST names the refused offset and counts, up to 2^32 - 1. -/
theorem State.refuse_errst (s : State) {off : Nat} (hoff : off < 2 ^ 32) : bits (s.refuse off).health.errst 32 32 = off ∧
    bits (s.refuse off).health.errst 0 32 = min (bits s.health.errst 0 32 + 1) (2 ^ 32 - 1) ∧
    s.refuse off = { s with health := { s.health with errst := (s.refuse off).health.errst } } := by
  have hcount : min (bits s.health.errst 0 32 + 1) (2 ^ 32 - 1) < 2 ^ 32 := by omega
  have herr : (s.refuse off).health.errst.toNat = off * 2 ^ 32 + min (bits s.health.errst 0 32 + 1) (2 ^ 32 - 1) := by
    refine (BitVec.toNat_ofNat _ _).trans (Nat.mod_eq_of_lt ?_)
    omega
  refine ⟨?_, ?_, rfl⟩
  · rw [bits, BitVec.extractLsb'_toNat, herr, Nat.shiftRight_eq_div_pow]
    omega
  · conv_lhs => rw [bits, BitVec.extractLsb'_toNat, herr, Nat.shiftRight_eq_div_pow]
    omega

/-- R471: an entry that no context uses takes a value by which the partitions keep their rules. -/
theorem exec_partitionWrite {p off : Nat} {v : W64} {s : State} (hp : p < 8) (hal : off % 8 = 0) (hoff : off < 0x148)
    (hfree : (s.ctxs.any fun x => x.1 != 0 && x.2.st != .free && x.2.part == p) = false) (hv : off < 0x48 ∨ v.toNat % 2 ^ 30 = 0) :
    exec (.partitionWrite p off v) s =
      .next (if State.partitionsOk { s with health := { s.health with parts := s.health.parts.write (64 * p + off / 8) v } } p = true
        then { s with health := { s.health with parts := s.health.parts.write (64 * p + off / 8) v } }
        else s.refuse (0x4000 + 512 * p + off)) := by
  have hexec : exec (.partitionWrite p off v) s = execPartitionWrite p off v s := rfl
  have hused : ¬ (8 ≤ p ∨ off % 8 ≠ 0 ∨ 0x148 ≤ off ∨
      (s.ctxs.any fun x => x.1 != 0 && x.2.st != .free && x.2.part == p) = true) := by
    rw [hfree]
    simp [hal, hp, hoff]
  rw [hexec, execPartitionWrite]
  refine (if_neg hused).trans ((if_neg (by omega)).trans ?_)
  cases hok : State.partitionsOk { s with health := { s.health with parts := s.health.parts.write (64 * p + off / 8) v } } p with
  | false => exact if_pos (by rw [State.setHealth, hok]; rfl)
  | true => exact if_neg (by rw [State.setHealth, hok]; exact Bool.false_ne_true)

/-! Attestation (R478, R480). -/

theorem State.attest_cases (s : State) : s.attest = { s with health := s.attest.health } ∧ s.attest.health.nonce = s.health.nonce ∧
    s.attest.health.sigs = s.health.sigs + (if s.health.sigs < 2 ^ 20 then 1 else 0) ∧
    (s.health.sigs < 2 ^ 20 → s.attest.health.signed.take (s.health.measure.flatten.length + 32) =
      s.health.measure.flatten ++ leBytes 32 s.health.nonce.toNat) := by
  by_cases hleft : s.health.sigs < 2 ^ 20
  · rw [State.attest, if_neg hleft.not_ge, if_pos hleft]
    refine ⟨rfl, rfl, rfl, fun _ => List.take_left' ?_⟩
    rw [List.length_append, length_leBytes]
  · rw [State.attest, if_pos (Nat.not_lt.mp hleft), if_neg hleft]
    exact ⟨rfl, rfl, rfl, fun h => absurd h hleft⟩

theorem exec_attestationRequest (nonce : BitVec 256) (v : W64) (s : State) : ∃ t, exec (.attestationRequest nonce v) s = .next t ∧
    t = { s with health := t.health } ∧ t.health.nonce = nonce ∧
    t.health.sigs = s.health.sigs + (if v = 1 ∧ s.health.sigs < 2 ^ 20 then 1 else 0) ∧
    (v = 1 → s.health.sigs < 2 ^ 20 →
      t.health.signed.take (s.health.measure.flatten.length + 32) = s.health.measure.flatten ++ leBytes 32 nonce.toNat) := by
  refine ⟨_, rfl, ?_⟩
  by_cases hv : v = 1
  · obtain ⟨hframe, hnonce, hsigs, hsigned⟩ := (s.setHealth fun h => { h with nonce }).attest_cases
    simp only [hv, true_and, true_implies]
    exact ⟨hframe, hnonce, hsigs, hsigned⟩
  · simp only [hv, false_and, if_false]
    exact ⟨rfl, rfl, rfl, fun h => h.elim⟩

/-! Ageing (R475, R476). -/

/-- R475: headroom of 20 or more changes neither voltage nor frequency; less raises the voltage, and at its bound lowers the frequency. -/
theorem Island.check_cases (i : Island) (n : Nat) : (20 ≤ n → (i.check n).freq = i.freq ∧ (i.check n).voff = i.voff) ∧
    (n < 20 → i.voff < 12 → (i.check n).voff = i.voff + 1 ∧ (i.check n).freq = i.freq) ∧
    (n < 20 → 12 ≤ i.voff → 600 < i.freq → (i.check n).freq = i.freq - 50 ∧ (i.check n).spent = true) := by
  refine ⟨fun hn => ?_, fun hn hv => ?_, fun hn hv hf => ?_⟩
  · rw [Island.check, if_pos hn]
    exact ⟨rfl, rfl⟩
  · rw [Island.check, if_neg hn.not_ge, if_pos hv]
    exact ⟨rfl, rfl⟩
  · rw [Island.check, if_neg hn.not_ge, if_neg hv.not_gt, if_pos hf]
    exact ⟨rfl, rfl⟩

/-- R476: marking clusters changes the marks alone. -/
theorem Health.foldl_mark (n : Nat) (l : List Nat) (h : Health) : (l.foldl (fun h k => h.mark (n + k)) h).islands = h.islands ∧
    (l.foldl (fun h k => h.mark (n + k)) h).slack = h.slack :=
  List.foldlRecOn (motive := fun x : Health => x.islands = h.islands ∧ x.slack = h.slack) l _ ⟨rfl, rfl⟩ fun _ e _ _ => e

/-- One island is put, and the others stay. -/
theorem State.island_put {s t : State} {k : Nat} {i : Island} (e : t.health.islands = s.health.islands.put k i) (j : Nat) :
    t.island j = if j = k then i else s.island j := by
  rw [State.island, e, Table.get?_put]
  split <;> rfl

theorem exec_ageingCheck (s : State) {k : Nat} {slack : List (BitVec 8)} (hk : k < 64) (hlen : slack.length = 8) :
    ∃ t, exec (.ageingCheck k slack) s = .next t ∧ t = { s with health := t.health } ∧
    t.island k = (s.island k).check ((slack.map (·.toNat)).foldl min 255) ∧ (∀ j, j ≠ k → t.island j = s.island j) ∧
    ∀ j, j < 8 → t.health.slack.read (8 * k + j) = slack.getD j 0 := by
  have hexec : exec (.ageingCheck k slack) s = execAgeingCheck k slack s := rfl
  rw [hexec, execAgeingCheck, if_neg (by omega)]
  refine ⟨_, rfl, rfl, (State.island_put (Health.foldl_mark ..).1 k).trans (if_pos rfl),
    fun j hj => (State.island_put (Health.foldl_mark ..).1 j).trans (if_neg hj), fun j hj => ?_⟩
  have hread := Cells.read_update s.health.slack (8 * k) 8 (fun i => slack.getD (i - 8 * k) 0) (8 * k + j)
  rw [if_pos (by omega), Nat.add_sub_cancel_left] at hread
  exact (congrArg (Cells.read · (8 * k + j)) (Health.foldl_mark ..).2).trans hread

/-! Power (R479). -/

/-- Some islands change, each by itself. -/
def State.mapIslands (f : Island → Island) (l : List Nat) (s : State) : State :=
  l.foldl (fun s k => s.setHealth fun h => { h with islands := h.islands.put k (f (s.island k)) }) s

theorem State.mapIslands_frame (f : Island → Island) (l : List Nat) (s : State) :
    s.mapIslands f l = { s with health := (s.mapIslands f l).health } ∧ (s.mapIslands f l).health.power = s.health.power :=
  List.foldlRecOn (motive := fun t : State => t = { s with health := t.health } ∧ t.health.power = s.health.power) l _ ⟨rfl, rfl⟩
    fun _ ⟨ht, hpower⟩ _ _ => ⟨by rw [ht]; rfl, hpower⟩

theorem State.island_mapIslands (f : Island → Island) (k : Nat) : ∀ (l : List Nat) (s : State), l.Nodup →
    (s.mapIslands f l).island k = if k ∈ l then f (s.island k) else s.island k
  | [], _, _ => (if_neg List.not_mem_nil).symm
  | j :: l, s, hnodup => by
    obtain ⟨hj, hl⟩ := List.nodup_cons.mp hnodup
    let s1 := s.setHealth fun h => { h with islands := h.islands.put j (f (s.island j)) }
    have hfirst : s1.island k = if k = j then f (s.island j) else s.island k := State.island_put rfl k
    have hrest : (s.mapIslands f (j :: l)).island k = if k ∈ l then f (s1.island k) else s1.island k :=
      State.island_mapIslands f k l s1 hl
    rw [hrest, hfirst]
    by_cases hk : k = j
    · subst hk
      rw [if_pos rfl, if_neg hj, if_pos List.mem_cons_self]
    · simp only [List.mem_cons, hk, false_or, if_false]

/-- R479: an island as it is capped while the power is above PLIM. -/
def Island.lowered (i : Island) : Island := { i with cap := max 50 (i.present - 50) }

/-- R479: an island as its cap is lifted. -/
def Island.lifted (i : Island) : Island := { i with cap := min 800 (i.cap + 50) }

theorem exec_powerUpdate_eq (watts : BitVec 16) (cap lift : List Nat) (s : State) : exec (.powerUpdate watts cap lift) s =
    .next (if s.health.plim.toNat < watts.toNat
      then (s.setHealth fun h => { h with power := watts.toNat }).mapIslands Island.lowered (cap.filter (· < 64))
      else (s.setHealth fun h => { h with power := watts.toNat }).mapIslands Island.lifted (lift.filter (· < 64))) := rfl

/-- The named islands that exist change, at a new average power. -/
theorem State.mapIslands_power (f : Island → Island) (n : Nat) {l : List Nat} (s : State) (hl : l.Nodup) :
    let t := (s.setHealth fun h => { h with power := n }).mapIslands f (l.filter (· < 64))
    t = { s with health := t.health } ∧ t.health.power = n ∧ ∀ k, t.island k = if k ∈ l ∧ k < 64 then f (s.island k) else s.island k := by
  obtain ⟨hframe, hpower⟩ := State.mapIslands_frame f (l.filter (· < 64)) (s.setHealth fun h => { h with power := n })
  refine ⟨hframe, hpower, fun k => (State.island_mapIslands f k _ _ (hl.filter _)).trans (if_congr ?_ rfl rfl)⟩
  rw [List.mem_filter, decide_eq_true_iff]

/-- R479: above PLIM the named islands are capped, else they are lifted. -/
theorem exec_powerUpdate (watts : BitVec 16) {cap lift : List Nat} (s : State) (hcap : cap.Nodup) (hlift : lift.Nodup) :
    ∃ t, exec (.powerUpdate watts cap lift) s = .next t ∧ t = { s with health := t.health } ∧ t.health.power = watts.toNat ∧
    ∀ k, t.island k =
      if s.health.plim.toNat < watts.toNat then
        if k ∈ cap ∧ k < 64 then { s.island k with cap := max 50 ((s.island k).present - 50) } else s.island k
      else if k ∈ lift ∧ k < 64 then { s.island k with cap := min 800 ((s.island k).cap + 50) } else s.island k := by
  refine ⟨_, exec_powerUpdate_eq watts cap lift s, ?_⟩
  split
  · exact State.mapIslands_power Island.lowered watts.toNat s hcap
  · exact State.mapIslands_power Island.lifted watts.toNat s hlift

/-! Quarantine and reset (R476, R478). -/

/-- R476: a core that is to be quarantined and is idle leaves service. -/
theorem exec_coreQuarantine (c : Nat) (s : State) : ∃ t, exec (.coreQuarantine c) s = .next t ∧ t = { s with health := t.health } ∧
    (c ∈ s.health.pendingQ → s.coreIdle c = true → c ∈ t.health.quarantined ∧ c ∉ t.health.pendingQ) ∧
    ((c ∉ s.health.pendingQ ∨ s.coreIdle c = false) → t = s) := by
  have hexec : exec (.coreQuarantine c) s = execCoreQuarantine c s := rfl
  rw [hexec, execCoreQuarantine]
  split
  next hdue =>
    obtain ⟨hpending, hidle⟩ := hdue
    refine ⟨_, rfl, rfl, fun _ _ => ⟨List.mem_append_right _ List.mem_cons_self, fun hmem => ?_⟩, fun hno => ?_⟩
    · simpa using (List.mem_filter.mp hmem).2
    · exact absurd hno (by simp [List.contains_iff_mem.mp hpending, hidle])
  next hno => exact ⟨s, rfl, rfl, fun hp hi => absurd ⟨List.contains_iff_mem.mpr hp, hi⟩ hno, fun _ => rfl⟩

/-- R478: a reset leaves no work, memory at home, and of health what the health store keeps. -/
theorem exec_reset (verified : Bool) (images : List (List Byte)) (s : State) : ∃ t, exec (.reset verified images) s = .next t ∧
    t.waves = [] ∧ t.seqs = [] ∧ t.launches = [] ∧ t.records = [] ∧ t.cur = none ∧ t.mem = { ram := s.mem.ram } ∧
    t.health.sigs = s.health.sigs ∧ t.health.marks = s.health.marks ∧ t.health.measure = measured images ∧
    t.health.inReset = !verified ∧ (verified = true → (t.ctx 0).st = .created ∧ ∀ c, c ≠ 0 → (t.ctx c).st = .free) := by
  have hctx (c : Nat) (hc : c ≠ 0) : (State.reset.ctx c).st = .free := by
    rw [State.ctx, State.reset]
    exact congrArg (fun x : Option Ctx => (x.getD {}).st) (Table.get?_put_other [] 0 c { st := .created } hc)
  cases verified with
  | true => exact ⟨_, rfl, rfl, rfl, rfl, rfl, rfl, rfl, rfl, rfl, rfl, rfl, fun _ => ⟨rfl, hctx⟩⟩
  | false => exact ⟨_, rfl, rfl, rfl, rfl, rfl, rfl, rfl, rfl, rfl, rfl, rfl, fun h => Bool.noConfusion h⟩

/-- Settles O52: each register, event and update by the lemma about it. -/
theorem registersAndHealth : Obligations.RegistersAndHealth := by
  unfold Obligations.RegistersAndHealth
  refine ⟨?instructions, fun v s => ?jbase, fun v s => ?qptab, fun s => rfl, fun off size v s => exec_controlRegisterWrite_unaligned s v,
    fun v s hlo hhi => ?plim, fun c v s hc => exec_controlRegisterWrite_desc s v hc, fun c q v s hc hq => ?queues,
    fun c s hc => ?commands, fun v s => rfl, fun p off v s hp hoff hal => exec_controlRegisterWrite_partition s v hp hoff hal,
    fun s off => State.refuse_errst s, fun p off v s hp hal hoff hfree hv => exec_partitionWrite hp hal hoff hfree hv,
    exec_attestationRequest, fun k slack s => exec_ageingCheck s, Island.check_cases,
    fun watts cap lift s => exec_powerUpdate watts s, exec_coreQuarantine, exec_reset⟩
  case instructions =>
    intro s h d c
    refine ⟨c.mdrd_assigned d, c.mdrd_unassigned d, c.flrd_reads d, c.clkrd_reads d, c.ctxrd_own d, c.privileged_adjourns d,
      fun hctx => ⟨c.mdwr_writes hctx, fun e => ⟨_, c.flclr_clears d hctx e, rfl, fun k => ?_⟩, c.ctxrd_named d hctx⟩⟩
    exact Cells.read_write _ _ _ _
  case jbase => exact ⟨_, rfl, exec_controlRegisterWrite_control s v (e := 8) rfl (by decide) (by decide), s.writeJbase_cases v⟩
  case qptab => exact ⟨_, rfl, exec_controlRegisterWrite_control s v (e := 0x18) rfl (by decide) (by decide), s.writeQptab_cases v⟩
  case plim =>
    have hwrite : s.writeControl 0x20 v = s.setHealth fun h => { h with plim := v } := if_pos ⟨hlo, hhi⟩
    rw [exec_controlRegisterWrite_control s v (e := 0x20) rfl (by decide) (by decide), hwrite]
    rfl
  case queues =>
    refine ⟨exec_controlRegisterWrite_queue s v (r := 0) hc hq (by decide) rfl, ?_⟩
    have hqueue (x : W64) := exec_controlRegisterWrite_queue s x (r := 0x20) hc hq (by decide) rfl
    simp only [List.forall_mem_cons, List.not_mem_nil, false_imp_iff, implies_true, and_true]
    exact ⟨hqueue 1, hqueue 2, hqueue 3, hqueue 4⟩
  case commands =>
    have hcommand (x : W64) := exec_controlRegisterWrite_command s x hc
    simp only [List.forall_mem_cons, List.not_mem_nil, false_imp_iff, implies_true, and_true]
    exact ⟨hcommand 1, hcommand 2, hcommand 3, hcommand 4, hcommand 5, hcommand 6⟩

end Sys2Proof.Machine

/-!
O59: every step keeps main memory canonical (`State.memWf`). Main memory is written by the functions of the coherence layer alone,
whose laws stand in `Laws/Canonical`; every other function passes on the memory that they left. So each function on which a step
depends has one law here, in the order of the model's text, and a law cites the laws of the functions that its function calls:
- `memWf_f`, where `f` answers a state, alone or beside other data;
- `endWf_f`, where `f` is part of an instruction's meaning, which may also stop in a state (a trap or a hold);
- `nextWf_f`, where `f` answers an outcome.

This first part has the two predicates on results, and the laws of the control structures: conditionals, sequences and folds.
-/
namespace Sys2Proof.Machine

/-- The state with which an instruction stops has canonical memory. -/
def Abort.memWf : Abort → Prop
  | .trap _ s => s.memWf
  | .hold s => s.memWf
  | .stop _ => True

/-- A result of an instruction's meaning: what it ends with satisfies `P`, or it stops in a state with canonical memory. -/
def endWf {α : Type} (P : α → Prop) : Except Abort α → Prop
  | .ok x => P x
  | .error a => a.memWf

/-- An outcome whose next state, if it has one, has canonical memory. -/
inductive NextWf : Host.Outcome State Fault Refusal → Prop
  | next {s : State} (h : s.memWf) : NextWf (.next s)
  | fault (r : Fault) : NextWf (.fault r)
  | refused (r : Refusal) : NextWf (.refused r)

theorem NextWf.of_eq {x : Host.Outcome State Fault Refusal} {t : State} (h : NextWf x) (e : x = .next t) : t.memWf := by
  cases e ▸ h with
  | next h => exact h

theorem nextWf_ite {c : Prop} [Decidable c] {x y : Host.Outcome State Fault Refusal} (hx : NextWf x) (hy : NextWf y) :
    NextWf (if c then x else y) :=
  iteInduction (fun _ => hx) fun _ => hy

theorem memWf_ite {c : Prop} [Decidable c] {s t : State} (hs : s.memWf) (ht : t.memWf) : (if c then s else t).memWf :=
  iteInduction (motive := State.memWf) (fun _ => hs) fun _ => ht

theorem memWf_ite_fst {α : Type} {c : Prop} [Decidable c] {p q : State × α} (hp : p.1.memWf) (hq : q.1.memWf) :
    (if c then p else q).1.memWf :=
  iteInduction (motive := fun p : State × α => p.1.memWf) (fun _ => hp) fun _ => hq

/-- The state of a pair that a case has named. -/
theorem memWf_of_fst {α : Type} {p : State × α} {t : State} {a : α} (e : p = (t, a)) (h : p.1.memWf) : t.memWf := by
  subst e; exact h

/-- A fold that carries a state beside another value. -/
theorem memWf_foldl_fst {α β : Type} {f : State × β → α → State × β} (hf : ∀ p x, p.1.memWf → (f p x).1.memWf) :
    ∀ (l : List α) (p : State × β), p.1.memWf → (l.foldl f p).1.memWf
  | [], _, h => h
  | x :: l, p, h => memWf_foldl_fst hf l (f p x) (hf p x h)

theorem endWf_return {α : Type} {P : α → Prop} {x : α} (h : P x) : endWf P (.ok x) := h

theorem endWf_error {α : Type} {P : α → Prop} {a : Abort} (h : a.memWf) : endWf P (.error a : Except Abort α) := h

/-- A sequence: what comes first ends with `P`, and what follows it needs only that. -/
theorem endWf_bind {α β : Type} {P : α → Prop} {Q : β → Prop} {x : Except Abort α} {f : α → Except Abort β}
    (hx : endWf P x) (hf : ∀ a, P a → endWf Q (f a)) : endWf Q (x >>= f) := by
  cases x with
  | ok a => exact hf a hx
  | error a => exact hx

theorem endWf_ite {α : Type} {P : α → Prop} {c : Prop} [Decidable c] {x y : Except Abort α} (hx : endWf P x)
    (hy : endWf P y) : endWf P (if c then x else y) :=
  iteInduction (motive := endWf P) (fun _ => hx) fun _ => hy

/-- A step that an instruction takes only under a condition, before it goes on. -/
theorem endWf_ite_bind {α β : Type} {P : α → Prop} {Q : β → Prop} {c : Prop} [Decidable c] {x y : Except Abort α}
    {f : α → Except Abort β} (hx : endWf P x) (hy : endWf P y) (hf : ∀ a, P a → endWf Q (f a)) :
    endWf Q (if c then x >>= f else y >>= f) :=
  endWf_ite (endWf_bind hx hf) (endWf_bind hy hf)

theorem endWf.of_eq {α : Type} {P : α → Prop} {x : Except Abort α} {a : α} (h : endWf P x) (e : x = .ok a) : P a := by
  subst e; exact h

theorem endWf.abort {α : Type} {P : α → Prop} {x : Except Abort α} {a : Abort} (h : endWf P x) (e : x = .error a) :
    a.memWf := by
  subst e; exact h

theorem MemSys.ram_foldl {α : Type} {f : MemSys → α → MemSys} (hf : ∀ m x, (f m x).ram = m.ram) :
    ∀ (l : List α) (m : MemSys), (l.foldl f m).ram = m.ram
  | [], _ => rfl
  | x :: l, m => (MemSys.ram_foldl hf l (f m x)).trans (hf m x)

theorem MemSys.ram_evictL1s {cs : List Nat} (ls : List Nat) (m : MemSys) : (ls.foldl (fun m l => m.evictL1 l cs) m).ram = m.ram :=
  MemSys.ram_foldl (f := fun m l => m.evictL1 l cs) (fun _ _ => rfl) ls m

/-! Updates of one field beside main memory. -/

section
variable {s : State}

theorem memWf_with_health {x} (h : s.memWf) : ({ s with health := x } : State).memWf := h

theorem memWf_with_samples {x} (h : s.memWf) : ({ s with samples := x } : State).memWf := h

theorem memWf_with_link {x} (h : s.memWf) : ({ s with link := x } : State).memWf := h

theorem memWf_with_detached {d} (h : s.memWf) : ({ s with detached := d } : State).memWf := h

theorem memWf_with_crews {x} (h : s.memWf) : ({ s with crews := x } : State).memWf := h

end

end Sys2Proof.Machine

/-! Translation, frames that fail, and the fetch of code lines (R81 to R91, R320 to R330). -/
namespace Sys2Proof.Machine

variable {s : State}

theorem memWf_probeDrop {line die} (h : s.memWf) : (s.probeDrop line die).memWf := h

theorem memWf_markPosts {id f} (h : s.memWf) : (s.markPosts id f).memWf := memWf_setMem h

theorem memWf_sharePosts {id id'} (h : s.memWf) : (s.sharePosts id id').memWf := memWf_markPosts h

theorem memWf_setCtx {c f} (h : s.memWf) : (s.setCtx c f).memWf := h

theorem memWf_dropTlb {p} (h : s.memWf) : (s.dropTlb p).memWf := memWf_setMem h

theorem memWf_walk {ctx va} (h : s.memWf) : (s.walk ctx va).1.memWf := by
  unfold State.walk
  split
  · exact h
  · exact memWf_ite_fst h (memWf_ite_fst (memWf_dropTlb (memWf_put64 _ _ h)) h)

theorem memWf_leafFor {u ctx va} (h : s.memWf) : (s.leafFor u ctx va).1.memWf := by
  unfold State.leafFor
  refine memWf_ite_fst h ?_
  split
  · exact h
  · split
    · next e => exact memWf_of_fst e (memWf_walk h)
    · next e =>
        have h1 := memWf_of_fst e (memWf_walk h)
        exact memWf_ite_fst (memWf_setMem h1) h1

theorem memWf_translate {u ctx va k} (h : s.memWf) : (s.translate u ctx va k).1.memWf := by
  unfold State.translate
  split
  · next e => exact memWf_of_fst e (memWf_leafFor h)
  · next e =>
      have h1 := memWf_of_fst e (memWf_leafFor h)
      split
      · exact h1
      · exact memWf_ite_fst (memWf_setMem h1) h1

theorem memWf_raise {floor} (h : s.memWf) : (s.raise floor).memWf := h

theorem memWf_countFrame {pa} (h : s.memWf) : (s.countFrame pa).memWf := by
  unfold State.countFrame
  exact memWf_ite h (memWf_ite (memWf_dropTlb h) h)

theorem memWf_consume {pa via} (h : s.memWf) : (s.consume pa via).memWf := by
  unfold State.consume
  split
  · exact memWf_countFrame (memWf_dropTlb (memWf_put64 _ _ h))
  · exact memWf_countFrame (memWf_dropTlb h)
  · exact memWf_countFrame h

theorem memWf_countWalks {ctx vas} (h : s.memWf) : (s.countWalks ctx vas).memWf :=
  memWf_foldl _ (fun _ _ => memWf_countFrame) _ _ h

theorem memWf_count {e k} (h : s.memWf) : (s.count e k).memWf := h

theorem memWf_fetchLine {core ctx addr} (h : s.memWf) : (s.fetchLine core ctx addr).1.memWf := by
  unfold State.fetchLine
  split
  · next e =>
      have h1 := memWf_of_fst e (memWf_translate h)
      exact memWf_ite_fst h1 (memWf_ite (memWf_countWalks h1) h1)
  · next e =>
      have h1 := memWf_of_fst e (memWf_translate h)
      exact memWf_ite_fst (memWf_consume h1) (memWf_ite (memWf_ite (memWf_count h1) h1) h1)

end Sys2Proof.Machine

/-! The operations on waves and instances, saving them, and the frame of their instructions. -/
namespace Sys2Proof.Machine

variable {s : State}

theorem memWf_drawn (h : s.memWf) : s.drawn.memWf := h

theorem memWf_putWave {k w} (h : s.memWf) : (s.putWave k w).memWf := h

theorem memWf_setCrew {k f} (h : s.memWf) : (s.setCrew k f).memWf := h

theorem memWf_setLaunch {k f} (h : s.memWf) : (s.setLaunch k f).memWf := h

theorem memWf_commitPreds {k} (h : s.memWf) : (s.commitPreds k).memWf := by
  unfold State.commitPreds
  split <;> exact h

theorem memWf_saveWave {s0 : State} {k side st} (h : s0.memWf) : (s0.saveWave k side st).memWf := by
  unfold State.saveWave
  dsimp only
  generalize 1024 = n
  split
  · exact memWf_of_ram rfl (memWf_homeWrite (k := none) _ _ _ (memWf_commitPreds h))
  · exact memWf_commitPreds h

theorem memWf_adjourn {k side r} (h : s.memWf) : (s.adjourn k side r).memWf := by
  unfold State.adjourn
  split
  · exact memWf_saveWave (memWf_putWave h)
  · exact h

/-- The end of an instruction of a wave: a trap adjourns it in the state that the trap carries. -/
theorem Here.nextWf_finish {hr : Here} {x} (hx : endWf State.memWf x) : NextWf (hr.finish x) := by
  rcases x with (_ | _ | _) | _
  · exact .next (memWf_adjourn hx)
  · exact .next hx
  · exact .fault _
  · exact .next hx

theorem Here.memWf_hazard {hr : Here} (h : s.memWf) : (hr.hazard s).memWf := memWf_ite (memWf_putWave h) h

theorem Here.endWf_ecc {hr : Here} {codes} (h : s.memWf) : endWf (fun _ => True) (hr.ecc s codes) := by
  unfold Here.ecc
  split
  · exact h
  · trivial

theorem Here.endWf_check {hr : Here} {m u} (h : s.memWf) : endWf (fun _ => True) (hr.check s m u) :=
  endWf_ite h (endWf_ite (Here.memWf_hazard h) (Here.endWf_ecc h))

theorem Here.endWf_settle {hr : Here} {x} (h : s.memWf) (hx : endWf State.memWf x) : endWf State.memWf (hr.settle s x) := by
  unfold Here.settle
  split
  · split
    · exact Here.memWf_hazard h
    · exact hx
  · exact hx

/-- An instruction of a wave leaves memory canonical when its meaning does: checks, hazards and traps write none. -/
theorem nextWf_onWave {g u k} (h : s.memWf) (hk : ∀ hr, endWf State.memWf (k hr)) : NextWf (onWave g u s k) := by
  unfold onWave
  split
  · exact .refused _
  · exact Here.nextWf_finish (Here.endWf_settle h (endWf_bind (Here.endWf_check h) fun _ _ => hk _))

theorem Here.memWf_done {hr : Here} {g} (h : s.memWf) : (hr.done s g).memWf := memWf_putWave h

theorem Here.endWf_ok {hr : Here} {g} (h : s.memWf) : endWf State.memWf (hr.ok s g) := Here.memWf_done h

theorem Here.memWf_goto {hr : Here} {tx g} (h : s.memWf) : (hr.goto s tx g).memWf := memWf_putWave h

theorem Here.memWf_await {hr : Here} {x g} (h : s.memWf) : (hr.await s x g).memWf := memWf_putWave h

theorem memWf_saveInst {k st} (h : s.memWf) : (s.saveInst k st).memWf := by
  unfold State.saveInst
  split
  · exact memWf_of_ram rfl (memWf_drawn (memWf_homeWrite (k := none) _ _ _ h))
  · exact h

theorem memWf_adjournInst {k r} (h : s.memWf) : (s.adjournInst k r).memWf := by
  unfold State.adjournInst
  split
  · exact memWf_saveInst h
  · exact h

/-- The end of a sequencer instruction: a trap adjourns it, a hold discards what was done. -/
theorem SeqHere.nextWf_finish {hr : SeqHere} {x} (h : s.memWf) (hx : endWf State.memWf x) : NextWf (hr.finish s x) := by
  rcases x with (_ | _ | _) | _
  · exact .next (memWf_ite (memWf_adjournInst hx) h)
  · exact .next hx
  · exact .fault _
  · exact .next hx

theorem nextWf_onSeq {k} (h : s.memWf) (hk : ∀ x, endWf State.memWf (k x)) : NextWf (onSeq s k) := by
  unfold onSeq
  split
  · exact .refused _
  · exact SeqHere.nextWf_finish h (hk _)

theorem memWf_putInst {k i} (h : s.memWf) : (s.putInst k i).memWf := h

theorem SeqHere.memWf_done {hr : SeqHere} {g} (h : s.memWf) : (hr.done s g).memWf := memWf_putInst h

end Sys2Proof.Machine

/-! Landings, splits, arrivals and the divergence stack (R85, R88, R90, R134 to R139, R491). -/
namespace Sys2Proof.Machine

variable {s : State}

theorem memWf_landing {core ctx tx} (h : s.memWf) : ∀ t, s.landing core ctx tx = .ok t → t.1.memWf := by
  intro t ht
  unfold State.landing at ht
  dsimp only at ht
  split at ht <;> rename_i e <;> have h1 := memWf_of_fst e (memWf_fetchLine h)
  · cases ht
  iterate 4 cases ht; exact h1
  split at ht <;> cases ht <;> exact h1

theorem Here.endWf_relLanding {hr : Here} {raw x} (h : s.memWf) : endWf (fun p => p.1.memWf) (hr.relLanding s x raw) := by
  unfold Here.relLanding
  split
  · exact h
  · split
    · exact memWf_landing h _ ‹_›
    · trivial

theorem Here.endWf_absLanding {hr : Here} {v} (h : s.memWf) : endWf (fun p => p.1.memWf) (hr.absLanding s v) := by
  unfold Here.absLanding
  split
  · exact h
  · split
    · exact memWf_landing h _ ‹_›
    · trivial

theorem Here.endWf_landed {hr : Here} {x} (h : s.memWf) : endWf (fun _ => True) (hr.landed s x) := by
  unfold Here.landed
  split
  · trivial
  · exact h

theorem memWf_pushFrag {w g} (h : s.memWf) : (s.pushFrag w g).1.memWf := memWf_drawn (memWf_homeWrite _ _ _ _ h)

theorem Here.endWf_split {hr : Here} {K T J pcF} (h : s.memWf) : endWf State.memWf (hr.split s K T J pcF) := by
  unfold Here.split
  refine endWf_ite h (memWf_putWave (memWf_drawn (memWf_sharePosts ?_)))
  split
  · exact memWf_pushFrag h
  · exact h

theorem Here.endWf_continueAt {hr : Here} {w side f} (h : s.memWf) : endWf State.memWf (hr.continueAt s w side f) := by
  unfold Here.continueAt
  split
  · exact memWf_putWave h
  · exact memWf_consume h
  · exact memWf_putWave h

theorem Here.endWf_arrive {hr : Here} (h : s.memWf) : endWf State.memWf (hr.arrive s) := by
  unfold Here.arrive
  split
  · exact Here.endWf_continueAt h
  · exact endWf_ite (Here.endWf_continueAt (memWf_sharePosts h)) h

theorem memWf_returnFrom {k x d v} (h : s.memWf) : (s.returnFrom k x d v).memWf := by
  unfold State.returnFrom
  split
  · exact Here.memWf_done h
  · exact h

end Sys2Proof.Machine

/-! Entering a line, ageing and budgets (R84, R87, R386, R392 to R394). -/
namespace Sys2Proof.Machine

variable {s : State}

theorem Here.memWf_checked {hr : Here} (h : s.memWf) : (hr.checked s).memWf := memWf_ite (memWf_putWave h) h

theorem Here.endWf_enterLine {hr : Here} (h : s.memWf) : endWf State.memWf (hr.enterLine s) := by
  unfold Here.enterLine
  split
  · exact h
  · exact h
  · exact h
  · split
    · next e =>
        split
        · exact Here.memWf_checked (memWf_of_fst e (memWf_fetchLine h))
        · trivial
    · next e => exact Here.memWf_checked (memWf_of_fst e (memWf_fetchLine h))
    · next e =>
        have h1 := memWf_of_fst e (memWf_fetchLine h)
        refine endWf_ite (Here.memWf_checked h1) ?_
        split
        · exact h1
        · exact memWf_putWave h1

theorem SeqHere.endWf_enterLine {hr : SeqHere} (h : s.memWf) : endWf State.memWf (hr.enterLine s) := by
  unfold SeqHere.enterLine
  dsimp only
  split
  · exact h
  · exact h
  · exact h
  · split
    · next e =>
        split
        · exact memWf_of_fst e (memWf_fetchLine h)
        · trivial
    · next e => exact memWf_of_fst e (memWf_fetchLine h)
    · next e =>
        have h1 := memWf_of_fst e (memWf_fetchLine h)
        refine endWf_ite h1 ?_
        split
        · exact h1
        · exact memWf_putInst h1

theorem nextWf_execLineFetch {w b} (h : s.memWf) : NextWf (execLineFetch w b s) := by
  unfold execLineFetch
  split
  · exact .next h
  · exact Here.nextWf_finish (Here.endWf_settle h (Here.endWf_enterLine h))

theorem nextWf_execFragmentAged {w b} (h : s.memWf) : NextWf (execFragmentAged w b s) := by
  unfold execFragmentAged
  split
  · exact .next h
  · exact nextWf_ite (.next (memWf_putWave h)) (.next h)

theorem memWf_cycle {core} (h : s.memWf) : (s.cycle core).memWf := memWf_ite h h

theorem memWf_budgetOut {k} (h : s.memWf) : (s.budgetOut k).memWf := by
  unfold State.budgetOut
  dsimp only
  split
  · refine memWf_ite ?_ h
    split
    · exact memWf_adjourn h
    · exact h
  · exact h

theorem nextWf_execBudgetExhausted {seq w} (h : s.memWf) : NextWf (execBudgetExhausted seq w s) := by
  unfold execBudgetExhausted
  refine nextWf_ite ?_ (.next (memWf_budgetOut h))
  split
  · exact nextWf_ite (.next (memWf_adjournInst h)) (.next h)
  · exact .next h

end Sys2Proof.Machine

/-! Checks of accesses, pending stores, windows and their write-back, releases and acquires (R195, R206 to R208, R228 to R235). -/
namespace Sys2Proof.Machine

variable {s : State}

theorem memWf_noteWrite {who pa n} (h : s.memWf) : (s.noteWrite who pa n).memWf := h

theorem memWf_xlate {u ctx k l} (h : s.memWf) : (s.xlate u ctx k l).1.memWf := by
  induction l generalizing s with
  | nil => exact h
  | cons _ _ ih => exact ih (memWf_translate h)

theorem memWf_checkGlobal {core l k a n} (h : s.memWf) : (s.checkGlobal core l k a n).1.memWf := memWf_xlate h

theorem memWf_checkLanes {chk ls} (hc : ∀ t l, t.memWf → (chk t l).1.memWf) (h : s.memWf) :
    (checkLanes chk s ls).1.memWf := by
  induction ls generalizing s with
  | nil => exact h
  | cons l _ ih => exact ih (hc s l h)

theorem memWf_checkGlobals {core la k n ls} {addr : Nat → Nat} (h : s.memWf) :
    (checkLanes (fun s l => s.checkGlobal core la k (addr l) n) s ls).1.memWf :=
  memWf_checkLanes (fun _ _ => memWf_checkGlobal) h

theorem Here.endWf_allPass {hr : Here} {addr rs} (h : s.memWf) : endWf (fun _ => True) (hr.allPass s addr rs) :=
  endWf_ite trivial (endWf_ite (memWf_countWalks h) (endWf_ite (Here.memWf_await h) trivial))

theorem memWf_consumeAll {u ctx ps} (h : s.memWf) : (s.consumeAll u ctx ps).memWf :=
  memWf_foldl _ (fun _ _ => memWf_consume) _ _ h

theorem Here.memWf_consumes {hr : Here} {ps r} (h : s.memWf) : (hr.consumes s ps r).memWf := by
  unfold Here.consumes
  split
  · exact Here.memWf_hazard (memWf_consumeAll h)
  · exact memWf_consumeAll h

theorem memWf_loadPieces {core alloc ps} (h : s.memWf) : (s.loadPieces core alloc ps).1.memWf := by
  induction ps generalizing s with
  | nil => exact h
  | cons _ _ ih => exact ih (memWf_coreLine _ _ _ h)

theorem memWf_storePieces {core who ps bs} (h : s.memWf) : (s.storePieces core who ps bs).memWf := by
  induction ps generalizing s bs with
  | nil => exact h
  | cons _ _ ih => exact ih (memWf_noteWrite (memWf_coreWrite _ _ _ _ h))

theorem Here.memWf_post {hr : Here} {l} (h : s.memWf) : (hr.post s l).memWf := h

/-- A pending store that is performed writes its pieces through the coherence layer; the copies in L1s are dropped after. -/
theorem memWf_performed {p} (h : s.memWf) : (s.performed p).memWf := by
  unfold State.performed
  refine memWf_setMem ?_
  rw [MemSys.ram_evictL1s]
  exact memWf_storePieces h

theorem memWf_settle {p} (h : s.memWf) : (s.settle p).memWf :=
  memWf_foldl _ (fun _ _ => memWf_performed) _ _ (memWf_setMem h)

theorem memWf_settleOver {id ps} (h : s.memWf) : (s.settleOver id ps).memWf := memWf_settle h

theorem memWf_sawPosts {id ps gs} (h : s.memWf) : (s.sawPosts id ps gs).memWf := by
  unfold State.sawPosts
  exact memWf_settle (memWf_of_ram rfl h)

theorem memWf_tagL1 {core ctx ps} (h : s.memWf) : (s.tagL1 core ctx ps).memWf := memWf_setMem h

theorem memWf_putA {clus a n f} (h : s.memWf) : (s.putA clus a n f).memWf := h

theorem memWf_fillCheck {core l va} (h : s.memWf) : (s.fillCheck core l va).1.memWf := by
  unfold State.fillCheck
  split
  · next e => exact memWf_of_fst e (memWf_translate h)
  · next e => exact memWf_of_fst e (memWf_translate h)
  · next e => exact memWf_countWalks (memWf_of_fst e (memWf_translate h))
  · next e => exact memWf_of_fst e (memWf_translate h)
  · next e =>
      have h1 := memWf_of_fst e (memWf_translate h)
      exact memWf_ite_fst (memWf_consume h1) (memWf_ite_fst (memWf_consume h1) h1)

/-- A filled block is read through the coherence layer, its L1 copies are dropped, and its words go to the A-store. -/
theorem memWf_installBlock {ck k blk pa} (h : s.memWf) : (s.installBlock ck k blk pa).memWf := by
  unfold State.installBlock
  refine memWf_setCrew (memWf_foldl _ (fun _ _ => memWf_putA) _ _ (memWf_setMem ?_))
  rw [MemSys.ram_evictL1s]
  refine memWf_ite h (memWf_foldl _ (fun t l ht => ?_) _ _ h)
  split
  · exact ht
  · exact memWf_doGetS _ _ ht

theorem nextWf_execWindowFill {ck k blk} (h : s.memWf) : NextWf (execWindowFill ck k blk s) := by
  unfold execWindowFill
  refine nextWf_ite (nextWf_ite (.next (memWf_setCrew h)) ?_) (.next h)
  split
  · next e =>
      have h1 := memWf_of_fst e (memWf_translate (memWf_setCrew h))
      exact nextWf_ite (.next h1) (.next (memWf_installBlock h1))
  · next e => exact .next (memWf_of_fst e (memWf_translate (memWf_setCrew h)))

theorem Here.endWf_needFills {hr : Here} {l} (h : s.memWf) : endWf State.memWf (hr.needFills s l) := by
  induction l generalizing s with
  | nil => exact h
  | cons x rest ih =>
    unfold Here.needFills
    dsimp only
    split
    · trivial
    · next e => exact memWf_of_fst e (memWf_fillCheck h)
    · next s1 r _ _ e =>
      have h1 : s1.memWf := memWf_of_fst e (memWf_fillCheck h)
      have h2 {ps} : endWf State.memWf (hr.needFills (s1.settleOver hr.f.id ps) rest) := ih (memWf_settleOver h1)
      split
      · next e => exact Here.memWf_await (memWf_setCrew (h2.abort e))
      · next e => exact Here.memWf_await (memWf_setCrew (h2.of_eq e))
      · next e => exact h2.abort e

theorem memWf_storeLocal {ck a n f} (h : s.memWf) : (s.storeLocal ck a n f).memWf := memWf_setCrew (memWf_putA h)

theorem memWf_wbCheck {core ck ks} (h : s.memWf) : (State.wbCheck core ck s ks).1.memWf := by
  induction ks generalizing s with
  | nil => exact h
  | cons x rest ih =>
    have h1 : (s.wbWordCheck core ck x).1.memWf := memWf_checkGlobal h
    rw [wbCheck_cons]
    refine memWf_ite_fst h ?_
    revert h1
    generalize s.wbWordCheck core ck x = r
    intro h1
    obtain ⟨s1, ⟨_ | _⟩ | _ | _ | _⟩ := r
    · exact h1
    · dsimp only
      split
      · next e => exact memWf_of_fst e (ih h1)
      · exact ih h1
    all_goals exact h1

theorem memWf_wbWrite {ck l} (h : s.memWf) : (s.wbWrite ck l).memWf := by
  induction l generalizing s with
  | nil => exact h
  | cons _ _ ih => exact ih (memWf_setMem (memWf_noteWrite (memWf_homeWrite _ _ _ _ (memWf_setCrew h))))

theorem memWf_writeBack {core ck ks} (h : s.memWf) : (s.writeBack core ck ks).1.memWf := by
  unfold State.writeBack
  split
  · next e => exact memWf_wbWrite (memWf_of_fst e (memWf_wbCheck h))
  · next e => exact memWf_of_fst e (memWf_wbCheck h)

theorem Here.endWf_writeBack {hr : Here} {s0 : State} {ks} (h : s0.memWf) : endWf State.memWf (hr.writeBack s0 ks) := by
  unfold Here.writeBack
  dsimp only
  split
  · next e => exact memWf_of_fst e (memWf_writeBack (memWf_settle h))
  · next e =>
      have h1 := memWf_of_fst e (memWf_writeBack (memWf_settle h))
      exact memWf_ite (memWf_countWalks h1) h1
  · next e => exact Here.memWf_await (memWf_of_fst e (memWf_writeBack (memWf_settle h)))
  · trivial

theorem Here.endWf_release {hr : Here} {sc} (h : s.memWf) : endWf State.memWf (hr.release s sc) := by
  cases sc with
  | wv | crw => exact h
  | _ => exact Here.endWf_writeBack h

theorem memWf_settleWords {id crew} (h : s.memWf) : (s.settleWords id crew).memWf := memWf_settle h

theorem memWf_acquire {core id crew sc} (h : s.memWf) : (s.acquire core id crew sc).memWf := by
  cases sc with
  | wv | crw => exact h
  | _ => exact memWf_setCrew (memWf_settleWords h)

theorem Here.memWf_acquire {hr : Here} {sc} (h : s.memWf) : (hr.acquire s sc).memWf := Machine.memWf_acquire h

theorem memWf_seqAcquire {i} (h : s.memWf) : (s.seqAcquire i).memWf := memWf_settle (s := s.setMem _) h

theorem memWf_wake (h : s.memWf) : s.wake.memWf :=
  memWf_foldl _ (fun _ _ => memWf_seqAcquire) _ _ (memWf_foldl _ (fun _ _ h1 => memWf_foldl _ (fun _ _ => memWf_acquire) _ _ h1)
    _ _ h)

end Sys2Proof.Machine

/-! Flags and the arithmetic trap (R41, R48 to R51). -/
namespace Sys2Proof.Machine

variable {s : State}

theorem Here.endWf_arithTo {hr : Here} {s1 : State} {m fl z g} (h : s.memWf) (hk : s1.memWf) :
    endWf State.memWf (hr.arithTo s s1 m fl z g) :=
  endWf_ite (Here.endWf_ok hk) h

theorem Here.endWf_arith {hr : Here} {m fl z g} (h : s.memWf) : endWf State.memWf (hr.arith s m fl z g) :=
  Here.endWf_arithTo h h

theorem Here.endWf_arithS {hr : Here} {fl z g} (h : s.memWf) : endWf State.memWf (hr.arithS s fl z g) :=
  endWf_ite (Here.endWf_ok h) h

end Sys2Proof.Machine

/-! Loads, stores, prefetch, L1 invalidation and windows (R192 to R208). -/
namespace Sys2Proof.Machine

variable {s : State}

theorem memWf_loadLanes {core alloc gs l} (h : s.memWf) : (s.loadLanes core alloc gs l).1.memWf := by
  induction l generalizing s with
  | nil => exact h
  | cons _ _ ih => exact ih (memWf_loadPieces h)

theorem Here.memWf_loadDone {hr : Here} {s0 : State} {ps} (h : s.memWf) : (hr.loadDone s0 s ps).memWf :=
  memWf_tagL1 (memWf_sawPosts h)

theorem Here.endWf_loadGlobal {hr : Here} {ls addr n hnt} (h : s.memWf) :
    endWf (fun p => p.1.memWf) (hr.loadGlobal s ls addr n hnt) := by
  refine endWf_bind (Here.endWf_allPass (memWf_checkGlobals h)) fun ps _ => endWf_ite ?_ ?_
  · exact Here.memWf_consumes (memWf_checkGlobals h)
  · exact Here.memWf_loadDone (memWf_loadLanes (memWf_checkGlobals h))

theorem Here.endWf_loaded {hr : Here} {tx rf d m vs} (h : s.memWf) : endWf State.memWf (hr.loaded s tx rf d m vs) :=
  Here.endWf_ok h

theorem nextWf_execStg {o} (h : s.memWf) : NextWf (execStg o s) :=
  nextWf_onWave h fun _ => endWf_bind (Here.endWf_allPass (memWf_checkGlobals h)) fun _ _ =>
    Here.endWf_arithTo (memWf_checkGlobals h) (Here.memWf_post (memWf_checkGlobals h))

theorem Here.endWf_localLanes {hr : Here} {ls addr n write full} (h : s.memWf) :
    endWf State.memWf (hr.localLanes s ls addr n write full) :=
  endWf_bind (Here.endWf_allPass h) fun _ _ => Here.endWf_needFills h

theorem Here.endWf_localEcc {hr : Here} {ls addr n} (h : s.memWf) : endWf (fun _ => True) (hr.localEcc s ls addr n) :=
  endWf_ite trivial h

theorem nextWf_execLdl {o} (h : s.memWf) : NextWf (execLdl o s) :=
  nextWf_onWave h fun _ => endWf_bind (Here.endWf_localLanes h) fun _ h1 =>
    endWf_bind (Here.endWf_localEcc h1) fun _ _ => Here.endWf_ok h1

theorem nextWf_execStl {o} (h : s.memWf) : NextWf (execStl o s) :=
  nextWf_onWave h fun _ => endWf_bind (Here.endWf_localLanes h) fun _ h1 =>
    endWf_bind (Here.endWf_arithTo h1 (memWf_foldl _ (fun _ _ => memWf_storeLocal) _ _ h1)) fun _ h2 => memWf_wake h2

theorem Here.endWf_scalarPass {hr : Here} {a r} (h : s.memWf) : endWf (fun _ => True) (hr.scalarPass s a r) := by
  cases r with
  | ok | absent => trivial
  | wait => exact Here.memWf_await h
  | bad c => unfold Here.scalarPass; dsimp only; split; exacts [memWf_countWalks h, h]

theorem nextWf_execLds {ty hnt d a imm} (h : s.memWf) : NextWf (execLds ty hnt d a imm s) := by
  refine nextWf_onWave h fun hr => endWf_ite (Here.endWf_ok h) ?_
  refine endWf_bind (Here.endWf_scalarPass (memWf_checkGlobal h)) fun ps _ => endWf_ite ?_ ?_
  · exact Here.memWf_consumes (memWf_checkGlobal h)
  · exact Here.endWf_ok (Here.memWf_loadDone (memWf_loadLanes (memWf_checkGlobal h)))

theorem nextWf_execSts {ty hnt c a imm} (h : s.memWf) : NextWf (execSts ty hnt c a imm s) := by
  refine nextWf_onWave h fun hr => ?_
  split
  · exact Here.endWf_ok h
  · exact endWf_bind (Here.endWf_scalarPass (memWf_checkGlobal h)) fun _ _ =>
      Here.endWf_ok (Here.memWf_post (memWf_checkGlobal h))

theorem Here.memWf_prefetch {hr : Here} {keep a} (h : s.memWf) : (hr.prefetch keep s a).memWf := by
  unfold Here.prefetch
  split
  · next e =>
      have h1 := memWf_of_fst e (memWf_checkGlobal h)
      exact memWf_ite (memWf_tagL1 (memWf_coreLine _ _ _ h1)) h1
  · next e => exact memWf_of_fst e (memWf_checkGlobal h)

theorem memWf_cinvRange {core ctx lo n} (h : s.memWf) : (s.cinvRange core ctx lo n).memWf := memWf_setMem h

theorem nextWf_execCinv {a b imm} (h : s.memWf) : NextWf (execCinv a b imm s) := by
  refine nextWf_onWave h fun hr => ?_
  dsimp only
  split
  · exact Here.endWf_ok (memWf_setMem h)
  · exact Here.endWf_ok (memWf_cinvRange h)

theorem nextWf_onWindow {k f} (h : s.memWf) (hk : ∀ x, endWf State.memWf (f x)) : NextWf (onWindow k s f) :=
  nextWf_onWave h fun _ => endWf_ite (hk _) h

theorem nextWf_execWclose {k} (h : s.memWf) : NextWf (execWclose k s) := by
  refine nextWf_onWindow h fun hr => ?_
  split
  · exact endWf_bind (Here.endWf_writeBack h) fun _ h1 => Here.endWf_ok (memWf_setCrew h1)
  · exact Here.endWf_ok h

theorem nextWf_execWflush {k} (h : s.memWf) : NextWf (execWflush k s) := by
  refine nextWf_onWindow h fun hr => ?_
  split
  · exact endWf_bind (Here.endWf_writeBack h) fun _ h1 => Here.endWf_ok h1
  · exact Here.endWf_ok h

end Sys2Proof.Machine

/-! Atomics and fences (R209 to R213, R236). -/
namespace Sys2Proof.Machine

variable {s : State}

theorem memWf_atomicAt {pa n f} (h : s.memWf) : (s.atomicAt pa n f).1.memWf := by
  unfold State.atomicAt
  dsimp only
  split
  · exact memWf_putBytes _ _ (memWf_recall _ h)
  · exact memWf_recall _ h

theorem memWf_atomicLane {core who pa n f} (h : s.memWf) : (s.atomicLane core who pa n f).1.memWf := by
  unfold State.atomicLane
  dsimp only
  split
  · exact memWf_noteWrite (memWf_setMem (memWf_atomicAt h))
  · exact memWf_setMem (memWf_atomicAt h)

theorem memWf_atomicLanes {core who n f l} (h : s.memWf) : (s.atomicLanes core who n f l).1.memWf := by
  induction l generalizing s with
  | nil => exact h
  | cons x rest ih =>
    unfold State.atomicLanes
    split
    · exact ih h
    · split
      · exact ih h
      · exact ih (memWf_atomicLane h)

theorem memWf_aligned {a n r} (hr : r.1.memWf) (h : s.memWf) : (aligned a n r s).1.memWf := by
  unfold aligned
  split
  · exact hr
  · exact h

theorem memWf_alignedGlobals {core la k n ls} {addr : Nat → Nat} (h : s.memWf) :
    (checkLanes (fun s l => aligned (addr l) n (s.checkGlobal core la k (addr l) n) s) s ls).1.memWf :=
  memWf_checkLanes (fun _ _ h => memWf_aligned (memWf_checkGlobal h) h) h

theorem Here.endWf_atomic {hr : Here} {o wr f} (h : s.memWf) : endWf State.memWf (hr.atomic o wr f s) := by
  refine endWf_ite (Here.endWf_ok h) (endWf_bind (Here.endWf_allPass (memWf_alignedGlobals h)) fun ps _ => ?_)
  refine endWf_ite_bind (Here.endWf_release (memWf_alignedGlobals h)) (endWf_return (memWf_alignedGlobals h)) fun s0 h0 => ?_
  have h1 {core who n f} := memWf_atomicLanes (core := core) (who := who) (n := n) (f := f) (l := ps)
    (memWf_settleOver (id := hr.f.id) (ps := ps.flatMap (·.2)) h0)
  refine endWf_ite ?_ ?_
  · exact memWf_consumeAll h1
  · exact Here.endWf_ok (memWf_ite (Here.memWf_acquire h1) h1)

theorem memWf_atomlLanes {ck clus n addr f l} (h : s.memWf) : (s.atomlLanes ck clus n addr f l).1.memWf := by
  induction l generalizing s with
  | nil => exact h
  | cons _ _ ih => exact ih (memWf_storeLocal h)

theorem nextWf_execAtoml {o} (h : s.memWf) : NextWf (execAtoml o s) := by
  refine nextWf_onWave h fun hr => endWf_ite (Here.endWf_ok h) ?_
  refine endWf_bind (Here.endWf_allPass h) fun ps _ => endWf_bind (Here.endWf_needFills h) fun s1 h1 =>
    endWf_bind (Here.endWf_localEcc h1) fun _ _ => ?_
  refine endWf_ite_bind (Here.endWf_release h1) (endWf_return h1) fun s2 h2 => ?_
  exact memWf_wake (Here.memWf_done (memWf_ite (Here.memWf_acquire (memWf_atomlLanes h2)) (memWf_atomlLanes h2)))

theorem nextWf_execFence {ord sc} (h : s.memWf) : NextWf (execFence ord sc s) :=
  nextWf_onWave h fun _ => endWf_ite_bind (Here.endWf_release h) (endWf_return h) fun _ h1 =>
    Here.endWf_ok (memWf_ite (Here.memWf_acquire h1) h1)

end Sys2Proof.Machine

/-! Barrier objects and the flag wait (R413 to R421). -/
namespace Sys2Proof.Machine

variable {s : State}

theorem memWf_setBarObj {clus off b} (h : s.memWf) : (s.setBarObj clus off b).memWf := memWf_putA h

theorem memWf_barSub {clus off n} (h : s.memWf) : (s.barSub clus off n).memWf := memWf_wake (memWf_setBarObj h)

theorem Here.endWf_barCheck {hr : Here} {a} (h : s.memWf) : endWf (fun _ => True) (hr.barCheck s a) :=
  endWf_ite h (endWf_ite h (endWf_ite h (endWf_ite h trivial)))

theorem nextWf_onBar {a sr k} (h : s.memWf) (hk : ∀ hr clus off, endWf State.memWf (k hr clus off)) :
    NextWf (onBar a sr s k) :=
  nextWf_onWave h fun _ => endWf_ite (Here.endWf_ok h) (endWf_bind (Here.endWf_barCheck h) fun _ _ => hk _ _ _)

theorem nextWf_execBari {a b} (h : s.memWf) : NextWf (execBari a b s) :=
  nextWf_onBar h fun _ _ _ => memWf_wake (Here.memWf_done (memWf_setBarObj h))

theorem nextWf_execBara {d a k} (h : s.memWf) : NextWf (execBara d a k s) :=
  nextWf_onBar h fun _ _ _ => endWf_bind (Here.endWf_release h) fun _ h1 =>
    memWf_wake (Here.memWf_done (memWf_setBarObj h1))

theorem nextWf_execBarx {a b} (h : s.memWf) : NextWf (execBarx a b s) :=
  nextWf_onBar h fun _ _ _ => endWf_ite (Here.endWf_ok h) (memWf_wake (Here.memWf_done (memWf_setBarObj h)))

theorem nextWf_execBart {d a} (h : s.memWf) : NextWf (execBart d a s) :=
  nextWf_onBar h fun _ _ _ => Here.endWf_ok (Here.memWf_acquire h)

theorem nextWf_execBarw {a b} (h : s.memWf) : NextWf (execBarw a b s) := by
  refine nextWf_onWave h fun hr => ?_
  have hacq : endWf State.memWf (hr.ok (hr.acquire s .crw) id) := Here.endWf_ok (Here.memWf_acquire h)
  split
  · exact endWf_ite hacq h
  · exact endWf_ite (Here.endWf_ok h) (endWf_bind (Here.endWf_barCheck h) fun _ _ => endWf_ite hacq (Here.memWf_await h))

theorem memWf_flagRead {pa v} (h : s.memWf) : (s.flagRead pa v).1.memWf := memWf_atomicAt h

theorem Here.endWf_flagReturn {hr : Here} {s0 : State} {d pa addr v} (h : s0.memWf) :
    endWf State.memWf (hr.flagReturn s0 d pa addr v) := by
  unfold Here.flagReturn
  refine endWf_ite (Here.memWf_consumes (memWf_settleOver h)) ?_
  split <;> rename_i e <;> have h1 := memWf_of_fst e (memWf_flagRead (memWf_settleOver h))
  · exact Here.endWf_ok (Here.memWf_acquire h1)
  · exact Here.memWf_await h1

theorem Here.endWf_flagAgain {hr : Here} {d addr v} (h : s.memWf) : endWf State.memWf (hr.flagAgain s d addr v) := by
  unfold Here.flagAgain
  split
  · next e => exact Here.endWf_flagReturn (memWf_of_fst e (memWf_translate h))
  · exact h

theorem nextWf_execBarwFlag {d a b} (h : s.memWf) : NextWf (execBarwFlag d a b s) := by
  refine nextWf_onWave h fun hr => ?_
  split
  · exact Here.endWf_ok (Here.memWf_acquire h)
  · exact Here.endWf_flagAgain h
  · have h1 {core l k a n} : (aligned a n (s.checkGlobal core l k a n) s).1.memWf := memWf_aligned (memWf_checkGlobal h) h
    exact endWf_ite (Here.endWf_ok h) (endWf_bind (Here.endWf_scalarPass h1) fun _ _ => Here.endWf_flagReturn h1)

theorem nextWf_execFlagPoll {w b} (h : s.memWf) : NextWf (execFlagPoll w b s) := by
  unfold execFlagPoll
  split
  · exact .next h
  · split
    · exact Here.nextWf_finish (Here.endWf_settle h (Here.endWf_flagAgain h))
    · exact .next h

theorem memWf_seeFlags {all} (h : s.memWf) : (s.seeFlags all).memWf := memWf_ite h h

end Sys2Proof.Machine

/-! The stores that a core owns, fact and the flip (R174 to R176, R256, R257). -/
namespace Sys2Proof.Machine

variable {s : State}

theorem memWf_tidyCore {core} (h : s.memWf) : (s.tidyCore core).memWf := memWf_ite h h

theorem memWf_tidyCluster {clus} (h : s.memWf) : (s.tidyCluster clus).memWf :=
  memWf_foldl _ (fun _ _ => memWf_tidyCore) _ _ h

theorem memWf_tidyOwners (h : s.memWf) : s.tidyOwners.memWf := memWf_foldl _ (fun _ _ => memWf_tidyCore) _ _ h

theorem memWf_own {core ctx} (h : s.memWf) : ∀ t, s.own core ctx = some t → t.memWf := by
  intro t ht
  unfold State.own at ht
  dsimp only at ht
  split at ht
  · cases ht; exact h
  · split at ht <;> cases ht; exact h

theorem nextWf_execFact {s0 : State} {g rnd sat d a b} (h : s0.memWf) : NextWf (execFact g rnd sat d a b s0) := by
  refine nextWf_onWave h fun hr => ?_
  split
  · exact Here.memWf_await h
  · next s1 e =>
    have h1 : s1.memWf := memWf_own h _ e
    exact endWf_ite (Here.memWf_hazard h) (endWf_ite (endWf_error h1) (Here.endWf_arith h1))

theorem nextWf_execActflip (h : s.memWf) : NextWf (execActflip s) := by
  refine nextWf_onWave h fun hr => ?_
  split
  · exact h
  · split
    · exact Here.memWf_await h
    · next s1 e =>
      have h1 : s1.memWf := memWf_own h _ e
      exact Here.memWf_await (memWf_of_ram rfl h1)

theorem nextWf_execActivationBankFlip {core} (h : s.memWf) : NextWf (execActivationBankFlip core s) := by
  unfold execActivationBankFlip
  split
  · exact .next h
  · exact nextWf_ite (.next h) (.next (memWf_returnFrom h))

end Sys2Proof.Machine

/-! Groups and the parking area (R340, R402 to R411). -/
namespace Sys2Proof.Machine

variable {s : State}

theorem memWf_groupRelease {ck n g} (h : s.memWf) : (s.groupRelease ck n g).memWf :=
  memWf_foldl _ (fun _ _ h1 => memWf_foldl _ (fun _ _ h2 => memWf_ite (memWf_acquire h2) h2) _ _ h1) _ _ h

theorem memWf_leaveGroups {ck wid} (h : s.memWf) : (s.leaveGroups ck wid).memWf :=
  memWf_foldl _ (fun _ _ h1 => memWf_ite (memWf_setCrew h1) (memWf_groupRelease (memWf_setCrew h1))) _ _ h

theorem nextWf_onGroup {i n vote} (h : s.memWf) : NextWf (onGroup i n vote s) := by
  refine nextWf_onWave h fun hr => ?_
  split
  · exact h
  · refine endWf_ite (endWf_error h) ?_
    split
    · exact endWf_ite (Here.endWf_ok (Here.memWf_acquire h)) (endWf_return h)
    · refine endWf_ite_bind (endWf_return h) (Here.endWf_release h) fun s0 h0 => endWf_ite ?_ ?_
      · exact Here.memWf_await (memWf_setCrew h0)
      · exact memWf_groupRelease (Here.memWf_done (Here.memWf_acquire (memWf_setCrew h0)))

theorem memWf_allocPark {ctx len al} (h : s.memWf) : ∀ t, s.allocPark ctx len al = some t → t.1.memWf := by
  intro t ht
  unfold State.allocPark at ht
  split at ht <;> cases ht
  exact memWf_setCtx h

theorem memWf_freePark {ctx a} (h : s.memWf) : (s.freePark ctx a).memWf := memWf_setCtx h

theorem memWf_grow {tk k} (h : s.memWf) : (s.grow tk k).memWf := by
  unfold State.grow
  split
  · split
    · next e => exact memWf_putWave (memWf_allocPark (memWf_freePark h) _ e)
    · exact h
  · exact h

theorem nextWf_execQxfer {d a k} (h : s.memWf) : NextWf (execQxfer d a k s) := by
  unfold execQxfer
  refine nextWf_onWave h fun _ => endWf_ite (endWf_ite (Here.memWf_hazard h) ?_) (Here.endWf_ok h)
  split
  · exact Here.endWf_ok (memWf_grow h)
  · exact h

end Sys2Proof.Machine

/-! The journal, finish scopes, and the ends of waves, instances, crews and launches (R372, R378 to R384, R474). -/
namespace Sys2Proof.Machine

variable {s : State}

theorem memWf_passes {core watch} (h : s.memWf) : (s.passes core watch).memWf := by
  unfold State.passes
  split
  · exact memWf_ite (memWf_count h) h
  · exact h

theorem memWf_journal {lid ty flags die} (h : s.memWf) : (s.journal lid ty flags die).memWf := by
  unfold State.journal
  exact memWf_ite h (memWf_with_health (memWf_putBytes _ _ h))

theorem memWf_journalOf {l ty killed} (h : s.memWf) : (s.journalOf l ty killed).memWf := memWf_ite h (memWf_journal h)

theorem memWf_putScope {ctx n count st parent} (h : s.memWf) : (s.putScope ctx n count st parent).memWf :=
  memWf_putBytes _ _ h

theorem memWf_hold {ctx n} (h : s.memWf) : (s.hold ctx n).memWf := memWf_ite h (memWf_putScope h)

theorem memWf_releaseScope {ctx n} (h : s.memWf) : (s.releaseScope ctx n).memWf :=
  memWf_foldl _ (fun _ _ => memWf_acquire) _ _ h

theorem memWf_unholdFrom {ctx k n} (h : s.memWf) : (State.unholdFrom ctx k s n).memWf := by
  induction k generalizing s n with
  | zero => exact h
  | succ k ih => exact memWf_ite h (memWf_ite (ih (memWf_releaseScope (memWf_putScope h))) (memWf_putScope h))

theorem memWf_unhold {ctx n} (h : s.memWf) : (s.unhold ctx n).memWf := memWf_unholdFrom h

theorem Here.memWf_marked {hr : Here} (h : s.memWf) : (hr.marked s).memWf := memWf_setLaunch h

theorem memWf_setRecState {key st} (h : s.memWf) : (s.setRecState key st).memWf := memWf_putBytes _ _ h

theorem memWf_withdraw {x} (h : s.memWf) : (s.withdraw x).memWf := by
  cases x with
  | some k => exact memWf_setLaunch h
  | none => exact h

theorem memWf_closeRecord {key} (h : s.memWf) : (s.closeRecord key).memWf := by
  unfold State.closeRecord
  split
  · exact memWf_withdraw (memWf_unhold (memWf_setRecState h))
  · exact h

theorem memWf_eraseCopy {k} (h : s.memWf) : (s.eraseCopy k).memWf := h

theorem memWf_freeWave {k} (h : s.memWf) : (s.freeWave k).memWf := by
  unfold State.freeWave
  split
  · next w _ =>
    have h1 : (s.leaveGroups w.crew w.wid).memWf := memWf_leaveGroups h
    exact h1
  · exact h

theorem memWf_freeInst {k} (h : s.memWf) : (s.freeInst k).memWf := by
  unfold State.freeInst
  split <;> exact h

theorem memWf_dropCrew {ck} (h : s.memWf) : (s.dropCrew ck).memWf := by
  unfold State.dropCrew
  split
  · refine memWf_tidyCluster ?_
    split <;> exact h
  · exact h

theorem memWf_sweep (h : s.memWf) : s.sweep.memWf := memWf_foldl _ (fun _ _ => memWf_dropCrew) _ _ h

theorem memWf_stopLaunch {s0 : State} {l} (h : s0.memWf) : (s0.stopLaunch l).memWf := by
  have h1 := memWf_settle (p := fun p => p.who == some l) h
  unfold State.stopLaunch
  refine memWf_with_samples (memWf_foldl _ (fun _ _ => memWf_dropCrew) _ _ (memWf_with_link ?_))
  refine memWf_foldl _ (fun _ _ => memWf_eraseCopy) _ _ (memWf_foldl _ (fun _ _ => memWf_freeInst) _ _ ?_)
  refine memWf_foldl _ (fun _ _ => memWf_freeWave) _ _ (memWf_foldl _ (fun _ _ => memWf_closeRecord) _ _ ?_)
  exact memWf_with_detached h1

end Sys2Proof.Machine

/-! Copies and their segments (R214 to R225). -/
namespace Sys2Proof.Machine

variable {s : State}

theorem memWf_addCopy {c by_} (h : s.memWf) : (s.addCopy c by_).memWf := h

theorem Here.endWf_copy {hr : Here} {c0} (h : s.memWf) : endWf State.memWf (hr.copy s c0) := by
  unfold Here.copy
  dsimp only
  split
  · exact endWf_ite h h
  · refine endWf_ite (Here.endWf_ok h) (endWf_ite (Here.memWf_hazard h) (endWf_ite ?_ (Here.endWf_ok (memWf_addCopy h))))
    split
    · next s1 e =>
      have h1 : s1.memWf := memWf_own h _ e
      exact Here.endWf_ok (memWf_addCopy h1)
    · exact Here.memWf_await h

theorem nextWf_copyForm {o kind ty} (h : s.memWf) : NextWf (copyForm o kind ty s) :=
  nextWf_onWave h fun _ => endWf_ite (Here.endWf_ok h) (Here.endWf_copy h)

theorem nextWf_execCpyw {o sparse} (h : s.memWf) : NextWf (execCpyw o sparse s) := by
  cases sparse with
  | some t | none => exact nextWf_copyForm h

theorem nextWf_execCpact {a} (h : s.memWf) : NextWf (execCpact a s) := by
  unfold execCpact
  generalize 4096 = n
  exact nextWf_onWave h fun _ => endWf_ite (Here.endWf_ok h) (Here.endWf_copy h)

theorem nextWf_execCpwait {a} (h : s.memWf) : NextWf (execCpwait a s) := by
  unfold execCpwait
  refine nextWf_onWave h fun _ => ?_
  split
  · exact endWf_ite (Here.endWf_ok (Here.memWf_acquire h)) h
  · exact endWf_ite (Here.endWf_ok h) (endWf_ite (Here.endWf_ok (Here.memWf_acquire h)) (Here.memWf_await h))

theorem memWf_segSide {c sd write a n patched} (h : s.memWf) : (s.segSide c sd write a n patched).1.memWf := by
  unfold State.segSide
  split
  · exact h
  · split
    · split <;> rename_i e <;> have h1 := memWf_of_fst e (memWf_translate h)
      iterate 4 exact h1
      · exact memWf_countWalks h1
      · refine memWf_ite_fst (memWf_ite_fst h1 h1) ?_
        split
        · exact memWf_consume h1
        · exact h1
    · split <;> exact h
    · exact h

theorem memWf_putW {core a l} (h : s.memWf) : (s.putW core a l).memWf := h

theorem memWf_putAct {core a l} (h : s.memWf) : (s.putAct core a l).memWf := h

theorem memWf_segPut {c a l} (h : s.memWf) : (s.segPut c a l).memWf := by
  unfold State.segPut
  split
  · exact memWf_noteWrite (memWf_putBytes _ _ (memWf_settleOver h))
  · exact memWf_wake (memWf_putA h)
  · exact memWf_putAct h
  · exact memWf_putW h

theorem memWf_segWrite {key c i m} (h : s.memWf) : (s.segWrite key c i m).memWf :=
  memWf_ite (memWf_segPut h) (memWf_ite (memWf_segPut h) (memWf_foldl _ (fun _ _ h1 => memWf_ite h1 (memWf_segPut h1)) _ _ h))

theorem memWf_finishSeg {key i} (h : s.memWf) : (s.finishSeg key i).memWf := by
  unfold State.finishSeg
  dsimp only
  split
  · exact h
  · split
    · refine memWf_sweep (memWf_tidyCore ?_)
      split
      · exact memWf_barSub (memWf_eraseCopy h)
      · exact memWf_eraseCopy h
    · split
      · exact memWf_barSub h
      · exact h

theorem memWf_parkSeg {key i c x a} (h : s.memWf) : (s.parkSeg key i c x a).memWf := h

theorem memWf_segRead {c va p n} (h : s.memWf) : (s.segRead c va p n).1.memWf :=
  memWf_ite_fst h (memWf_settle (memWf_sawPosts (memWf_settleOver h)))

theorem memWf_segOwn {c} (h : s.memWf) : ∀ t, s.segOwn c = some t → t.memWf := by
  intro t ht
  unfold State.segOwn at ht
  split at ht
  · exact memWf_own h _ ht
  · cases ht; exact h

/-- The start of a segment: what it reads or stops with leaves memory canonical. -/
inductive StartWf : Except (Host.Outcome State Fault Refusal) (State × Moving) → Prop
  | ok {s : State} {m : Moving} (h : s.memWf) : StartWf (.ok (s, m))
  | error {x : Host.Outcome State Fault Refusal} (h : NextWf x) : StartWf (.error x)

theorem StartWf.of_eq {x : Except (Host.Outcome State Fault Refusal) (State × Moving)} {t : State} {m : Moving} (h : StartWf x)
    (e : x = .ok (t, m)) : t.memWf := by
  cases e ▸ h with
  | ok h => exact h

theorem StartWf.stop {x : Except (Host.Outcome State Fault Refusal) (State × Moving)} {y : Host.Outcome State Fault Refusal}
    (h : StartWf x) (e : x = .error y) : NextWf y := by
  cases e ▸ h with
  | error h => exact h

theorem startWf_segStart {key i c} (h : s.memWf) : StartWf (s.segStart key i c) := by
  unfold State.segStart
  split
  · exact .ok h
  · dsimp only
    split
    · exact .error (.next h)
    · next s0 e =>
      have h0 : s0.memWf := memWf_segOwn h _ e
      have h2 {sa n p da k} : ((s0.segSide c c.srcSide false sa n p).1.segSide c c.dstSide true da k p).1.memWf :=
        memWf_segSide (memWf_segSide h0)
      split
      · exact .error (.fault _)
      · exact .error (.fault _)
      · exact .error (.next h2)
      · exact .error (.next h2)
      · exact .error (.next h2)
      · exact .error (.next h2)
      · exact .error (.next h2)
      · exact .ok (memWf_segRead h2)

theorem nextWf_runSeg {key i c} (h : s.memWf) : NextWf (s.runSeg key i c) := by
  unfold State.runSeg
  split
  · next e => exact (startWf_segStart h).stop e
  · next e => exact .next (memWf_finishSeg (memWf_segWrite ((startWf_segStart h).of_eq e)))

theorem nextWf_execCopySegment {copy seg} (h : s.memWf) : NextWf (execCopySegment copy seg s) := by
  unfold execCopySegment
  split
  · exact .next h
  · exact nextWf_ite (nextWf_runSeg h) (.next h)

theorem nextWf_copyBytes {copy seg mask} (h : s.memWf) : NextWf (s.copyBytes copy seg mask) := by
  unfold State.copyBytes
  split
  · exact .next h
  · refine nextWf_ite (.next h) ?_
    split
    · next e => exact (startWf_segStart h).stop e
    · next e => exact .next (memWf_of_ram rfl (memWf_segWrite ((startWf_segStart h).of_eq e)))

theorem memWf_finish {p q} (h : s.memWf) : (s.finish p q).memWf :=
  memWf_foldl _ (fun _ _ h1 => memWf_foldl _ (fun _ _ h2 => memWf_finishSeg (memWf_segWrite h2)) _ _ h1) _ _ (memWf_settle h)

theorem memWf_finishAll (h : s.memWf) : s.finishAll.memWf := memWf_finish h

end Sys2Proof.Machine

/-! The map instructions and shootdowns (R330 to R334). -/
namespace Sys2Proof.Machine

variable {s : State}

theorem memWf_placeTables {va entry l} (h : s.memWf) : (State.placeTables va s entry l).1.memWf := by
  induction l generalizing s entry with
  | nil => exact h
  | cons _ _ ih => exact ih (memWf_put64 _ _ (memWf_putBytes _ _ h))

theorem TErr.memWf_toAbort {hr : Here} {ctx a} {e : TErr} (h : s.memWf) : (e.toAbort hr s ctx a).memWf := by
  cases e with
  | absent => trivial
  | memecc => exact memWf_countWalks h
  | _ => exact h

theorem Here.memWf_shoot {hr : Here} {ctx lo len d v} (h : s.memWf) : (hr.shoot s ctx lo len d v).memWf :=
  Here.memWf_await (memWf_setMem h)

theorem nextWf_onMap {sr k} (h : s.memWf) (hk : ∀ x, endWf State.memWf (k x)) : NextWf (onMap sr s k) := by
  unfold onMap
  refine nextWf_onWave h fun _ => ?_
  split
  · exact h
  · exact hk _

theorem Here.endWf_mapLeaf {hr : Here} {d a b c ctx sz} (h : s.memWf) : endWf State.memWf (hr.mapLeaf s d a b c ctx sz) := by
  unfold Here.mapLeaf
  split
  · exact TErr.memWf_toAbort h
  · dsimp only
    split
    · exact h
    · refine endWf_ite (endWf_error h) ?_
      split
      · exact h
      · refine endWf_bind (Here.endWf_release h) fun s1 h1 => ?_
        have h2 {va entry l} := memWf_placeTables (va := va) (entry := entry) (l := l) h1
        refine Here.memWf_shoot (memWf_put64 _ _ (memWf_setMem ?_))
        split <;> split <;> split <;> exact h2

theorem Here.endWf_unmapLeaf {hr : Here} {d a ctx sz} (h : s.memWf) : endWf State.memWf (hr.unmapLeaf s d a ctx sz) := by
  unfold Here.unmapLeaf
  split
  · exact TErr.memWf_toAbort h
  · exact Here.endWf_ok (Here.memWf_marked h)
  · refine endWf_ite (endWf_error h) (endWf_ite (endWf_error h) (endWf_bind (Here.endWf_release h) fun s1 h1 => ?_))
    refine Here.memWf_shoot (memWf_put64 _ _ (memWf_setMem ?_))
    split <;> exact h1

theorem nextWf_execPginv {a b ctx} (h : s.memWf) : NextWf (execPginv a b ctx s) :=
  nextWf_onMap h fun _ => endWf_ite (endWf_error h) (endWf_ite (endWf_error h)
    (endWf_bind (Here.endWf_release h) fun _ h1 => Here.memWf_shoot h1))

theorem nextWf_execShootdown {id} (h : s.memWf) : NextWf (execShootdown id s) := by
  unfold execShootdown
  split
  · exact .next h
  · exact .next (memWf_returnFrom (memWf_finish (memWf_dropTlb (memWf_setMem h))))

end Sys2Proof.Machine

/-! Leaves of protected pages and copies of frames (R325 to R327). -/
namespace Sys2Proof.Machine

variable {s : State}

theorem memWf_setLeaf {ctx va st} (h : s.memWf) : (s.setLeaf ctx va st).memWf := by
  unfold State.setLeaf
  split
  · exact memWf_dropTlb (memWf_put64 _ _ h)
  · exact h

theorem memWf_copyFrame {src dst n} (h : s.memWf) : (s.copyFrame src dst n).memWf := by
  unfold State.copyFrame
  exact memWf_foldl _ (fun _ _ => memWf_countFrame) _ _ (memWf_of_ram rfl (memWf_homeWrite (k := none) _ _ _ h))

theorem memWf_snapshot {key hr} (h : s.memWf) : (s.snapshot key hr).memWf :=
  memWf_setMem (memWf_setLeaf (memWf_setLaunch (memWf_copyFrame h)))

theorem memWf_foreignWrite {pa n} (h : s.memWf) : (s.foreignWrite pa n).memWf :=
  memWf_noteWrite (memWf_foldl _ (fun _ _ => memWf_snapshot) _ _ h)

end Sys2Proof.Machine

/-! Queues, packets and finish scopes (R345 to R359, R378 to R381). -/
namespace Sys2Proof.Machine

variable {s : State}

theorem memWf_setQueue {ctx q f} (h : s.memWf) : (s.setQueue ctx q f).memWf := h

theorem memWf_tailWrite {ctx q tx} (h : s.memWf) : (s.tailWrite ctx q tx).memWf := memWf_ite h (memWf_setQueue h)

theorem memWf_setHealth {f} (h : s.memWf) : (s.setHealth f).memWf := h

theorem memWf_refuse {off} (h : s.memWf) : (s.refuse off).memWf := by
  unfold State.refuse
  exact memWf_setHealth (f := fun x => { x with errst := _ }) h

theorem memWf_parkLaunch {key x step off faddr} (h : s.memWf) : (s.parkLaunch key x step off faddr).memWf := h

theorem memWf_takeIn {key} (h : s.memWf) : (s.takeIn key).memWf :=
  memWf_ite (memWf_parkLaunch h) (memWf_setLaunch (memWf_hold h))

theorem memWf_admitMarker {key} (h : s.memWf) : (s.admitMarker key).memWf :=
  memWf_ite (memWf_parkLaunch h) (memWf_setLaunch h)

theorem memWf_accept {ctx q i p} (h : s.memWf) : (s.accept ctx q i p).memWf :=
  memWf_ite (memWf_journal h) (memWf_ite (memWf_admitMarker (memWf_journalOf h)) (memWf_takeIn (memWf_journalOf h)))

theorem memWf_leaveReady {ctx q f} (h : s.memWf) : (s.leaveReady ctx q f).memWf := h

theorem memWf_queueFails {ctx q x a redo} (h : s.memWf) : (s.queueFails ctx q x a redo).memWf := h

theorem memWf_dispAccess {die ctx va k} (h : s.memWf) : (s.dispAccess die ctx va k).1.memWf := by
  unfold State.dispAccess
  split
  · next e => exact memWf_of_fst e (memWf_translate h)
  · next e => exact memWf_of_fst e (memWf_translate h)
  · next e => exact memWf_of_fst e (memWf_translate h)
  · next e => exact memWf_countWalks (memWf_of_fst e (memWf_translate h))
  · next e => exact memWf_of_fst e (memWf_translate h)
  · next e =>
      have h1 := memWf_of_fst e (memWf_translate h)
      exact memWf_ite_fst (memWf_consume h1) h1

theorem memWf_dispWrite {die ctx va v who} (h : s.memWf) : (s.dispWrite die ctx va v who).1.memWf := by
  unfold State.dispWrite
  dsimp only
  split
  · next e =>
      have h1 := memWf_of_fst e (memWf_dispAccess h)
      split
      · split
        · next e2 => exact memWf_noteWrite (memWf_put64 _ _ (memWf_of_fst e2 (memWf_dispAccess (memWf_snapshot h1))))
        · exact memWf_dispAccess (memWf_snapshot h1)
      · exact h1
  · split
    · next e => exact memWf_noteWrite (memWf_put64 _ _ (memWf_of_fst e (memWf_dispAccess h)))
    · exact memWf_dispAccess h

theorem nextWf_writeHeadm {ctx q} (h : s.memWf) : NextWf (s.writeHeadm ctx q) := by
  unfold State.writeHeadm
  dsimp only
  split
  · exact .fault _
  · next e => exact .next (memWf_setQueue (memWf_of_fst e (memWf_dispWrite h)))
  · next e => exact .next (memWf_queueFails (memWf_of_fst e (memWf_dispWrite h)))
  · next e => exact .next (memWf_setQueue (memWf_of_fst e (memWf_dispWrite h)))

theorem nextWf_serve {ctx q} (h : s.memWf) : NextWf (s.serve ctx q) := by
  refine nextWf_ite (.next h) (nextWf_ite (nextWf_writeHeadm h) (nextWf_ite (.next h) ?_))
  dsimp only
  split
  · exact .fault _
  · next e => exact .next (memWf_of_fst e (memWf_dispAccess h))
  · next e => exact .next (memWf_queueFails (memWf_of_fst e (memWf_dispAccess h)))
  · next s1 pa e =>
    have h1 : s1.memWf := memWf_of_fst e (memWf_dispAccess h)
    generalize BitVec.ofNat 1024 (s1.getNat pa 128) = p
    exact nextWf_ite (.next (memWf_setQueue h1)) (nextWf_writeHeadm (memWf_setQueue (memWf_accept h1)))

theorem nextWf_rereads {late l} (h : s.memWf) : NextWf (State.rereads late l s) := by
  induction l generalizing s with
  | nil => exact .next h
  | cons x rest ih =>
    refine nextWf_ite ?_ (ih h)
    split
    · next e => exact ih ((nextWf_serve h).of_eq e)
    · exact nextWf_serve h

theorem nextWf_execDoorbell {ctx q tx} (h : s.memWf) : NextWf (execDoorbell ctx q tx s) :=
  nextWf_ite (.next (memWf_refuse h)) (.next (memWf_tailWrite h))

theorem memWf_endMarker {key killed} (h : s.memWf) : (s.endMarker key killed).memWf :=
  memWf_journalOf (memWf_setLaunch h)

theorem nextWf_execMarkerComplete {k} (h : s.memWf) : NextWf (execMarkerComplete k s) := by
  unfold execMarkerComplete
  split
  · exact .next h
  · refine nextWf_ite (.next h) (nextWf_ite (.next (memWf_endMarker h)) ?_)
    split
    · exact .fault _
    · next e => exact .next (memWf_of_fst e (memWf_dispWrite h))
    · next e => exact .next (memWf_parkLaunch (memWf_of_fst e (memWf_dispWrite h)))
    · next e => exact .next (memWf_endMarker (memWf_of_fst e (memWf_dispWrite h)))

theorem nextWf_execQueueEnable {ctx q} (h : s.memWf) : NextWf (execQueueEnable ctx q s) :=
  nextWf_ite (.next h) (nextWf_ite (.next (memWf_refuse h)) (nextWf_writeHeadm (memWf_setQueue h)))

theorem nextWf_execQueueStop {ctx q} (h : s.memWf) : NextWf (execQueueStop ctx q s) :=
  nextWf_ite (.next (memWf_leaveReady h)) (.next h)

theorem nextWf_execQueueStart {ctx q} (h : s.memWf) : NextWf (execQueueStart ctx q s) :=
  nextWf_ite (.next (memWf_setQueue h)) (.next h)

theorem nextWf_execQueueDisable {ctx q} (h : s.memWf) : NextWf (execQueueDisable ctx q s) :=
  nextWf_ite (.next h) (.next (memWf_leaveReady h))

theorem nextWf_execQpost {a q} (h : s.memWf) : NextWf (execQpost a q s) :=
  nextWf_onWave h fun _ => endWf_ite (Here.endWf_ok h) (endWf_ite (endWf_error h)
    (endWf_bind (Here.endWf_release h) fun _ h1 => Here.endWf_ok (memWf_tailWrite (Here.memWf_marked h1))))

theorem nextWf_execQwait {d a q} (h : s.memWf) : NextWf (execQwait d a q s) := by
  unfold execQwait
  refine nextWf_onWave h fun _ => ?_
  split
  · exact endWf_ite (Here.endWf_ok (Here.memWf_acquire h)) h
  · exact endWf_ite (Here.endWf_ok h) (endWf_ite (Here.endWf_ok (Here.memWf_acquire h)) (Here.memWf_await h))

theorem Here.endWf_checkRange {hr : Here} {k a n fail} (h : s.memWf) (hk : ∀ x y, y.memWf → (fail x y).memWf) :
    endWf (fun p => p.1.memWf) (hr.checkRange s k a n fail) := by
  unfold Here.checkRange
  split
  · trivial
  · next e => exact Here.memWf_await (memWf_of_fst e (memWf_checkGlobal h))
  · next e =>
      have h1 := memWf_of_fst e (memWf_checkGlobal h)
      exact hk _ _ (memWf_ite (memWf_countWalks h1) h1)
  · next e => exact memWf_of_fst e (memWf_checkGlobal h)

theorem Here.endWf_readRange {hr : Here} {ps fail} (h : s.memWf) (hf : ∀ c t, t.memWf → (fail c t).memWf) :
    endWf (fun p => p.1.memWf) (hr.readRange s ps fail) := by
  have h1 : (s.setMem (ps.foldl (fun m p => m.evictL1 (p.pa / 128) [hr.w.core]) s.mem)).memWf :=
    memWf_of_ram (MemSys.ram_foldl (f := fun m (p : Piece) => m.evictL1 (p.pa / 128) _) (fun _ _ => rfl) _ _) h
  refine endWf_ite (endWf_error ?_) (endWf_return (Here.memWf_loadDone (memWf_loadPieces h1)))
  split
  · exact Here.memWf_hazard (memWf_consumeAll h1)
  · exact hf _ _ (memWf_consumeAll h1)

theorem Here.endWf_publish {hr : Here} {a q i} (h : s.memWf) : endWf State.memWf (hr.publish s a q i) := by
  have hf {hr : Here} {x : Nat} : ∀ c t, t.memWf →
      (Abort.trap { hr.report c with faddr := BitVec.ofNat 64 x } (hr.await t .none)).memWf := fun _ _ ht => Here.memWf_await ht
  refine endWf_ite (endWf_return (Here.memWf_await h)) (endWf_bind (Here.endWf_checkRange h hf) ?_)
  rintro ⟨s1, ps⟩ h1
  refine endWf_bind (Here.endWf_checkRange h1 hf) ?_
  rintro ⟨s2, qs⟩ h2
  refine endWf_bind (Here.endWf_readRange h2 hf) ?_
  rintro ⟨s3, p⟩ h3
  dsimp only
  split
  · exact Here.memWf_await h3
  · exact endWf_bind (Here.endWf_release (Here.memWf_post h3)) fun _ h5 =>
      Here.endWf_ok (memWf_tailWrite (memWf_settle (Here.memWf_post h5)))

theorem nextWf_execEnq {d a q} (h : s.memWf) : NextWf (execEnq d a q s) := by
  have hf {hr : Here} {x : Nat} : ∀ c t, t.memWf →
      (Abort.trap (hr.lanesReport c hr.f.mask fun _ => BitVec.ofNat 64 x) t).memWf := fun _ _ ht => ht
  refine nextWf_onWave h fun hr => ?_
  split
  · exact Here.endWf_publish h
  · refine endWf_ite (Here.endWf_ok h) (endWf_ite (Here.endWf_publish h) (endWf_ite (endWf_error (hf _ _ h)) ?_))
    refine endWf_bind (Here.endWf_checkRange h hf) ?_
    rintro ⟨s1, qs⟩ h1
    refine endWf_ite (endWf_error h1) (endWf_bind (Here.endWf_checkRange h1 hf) ?_)
    rintro ⟨s2, ps⟩ h2
    refine endWf_bind (Here.endWf_readRange h2 hf) ?_
    rintro ⟨s3, p⟩ h3
    refine endWf_ite (endWf_error h3) (endWf_ite (endWf_error (Here.memWf_consumes h3)) ?_)
    exact endWf_bind (Here.endWf_release h3) fun s4 h4 =>
      Here.endWf_publish (memWf_putWave (memWf_atomicLane (Here.memWf_marked h4)))

theorem nextWf_execEnqPublish {w b} (h : s.memWf) : NextWf (execEnqPublish w b s) := by
  unfold execEnqPublish
  split
  · exact .next h
  · split
    · exact Here.nextWf_finish (Here.endWf_settle h (Here.endWf_publish h))
    · exact .next h

theorem nextWf_execFsopen {d a} (h : s.memWf) : NextWf (execFsopen d a s) := by
  refine nextWf_onWave h fun hr => endWf_ite (Here.endWf_ok h) (endWf_bind (Here.endWf_release h) fun s1 h1 => ?_)
  dsimp only
  split
  · exact Here.endWf_ok (memWf_hold (memWf_putScope (Here.memWf_marked h1)))
  · exact Here.endWf_ok (Here.memWf_marked h1)

theorem nextWf_execFsclose {a} (h : s.memWf) : NextWf (execFsclose a s) := by
  refine nextWf_onWave h fun hr => endWf_ite (Here.endWf_ok h) (endWf_bind (Here.endWf_release h) fun s1 h1 => ?_)
  have h2 : (hr.done (hr.marked s1) id).memWf := Here.memWf_done (Here.memWf_marked h1)
  refine endWf_ite (endWf_return h2) (endWf_ite (endWf_return ?_) (endWf_return (memWf_putScope h2)))
  exact memWf_unhold (memWf_releaseScope (memWf_putScope h2))

theorem nextWf_execFswait {a} (h : s.memWf) : NextWf (execFswait a s) := by
  unfold execFswait
  refine nextWf_onWave h fun _ => ?_
  split
  · exact endWf_ite h (Here.endWf_ok (Here.memWf_acquire h))
  · exact endWf_ite (Here.endWf_ok h) (endWf_ite (Here.memWf_await h) (Here.endWf_ok (Here.memWf_acquire h)))

end Sys2Proof.Machine

/-! The registers of BAR0, ageing, power, quarantine and reset (R468 to R482). -/
namespace Sys2Proof.Machine

variable {s : State}

theorem nextWf_execMdrd {d e} (h : s.memWf) : NextWf (execMdrd d e s) := by
  unfold execMdrd
  refine nextWf_onWave h fun _ => ?_
  split
  · exact Here.endWf_ok h
  · exact Here.endWf_ok (memWf_refuse h)

theorem memWf_writeJbase {v} (h : s.memWf) : (s.writeJbase v).memWf := by
  unfold State.writeJbase
  dsimp only
  split
  · refine memWf_setHealth (memWf_setMem ?_)
    split <;> exact h
  · split
    · exact memWf_refuse h
    · exact memWf_setHealth h

theorem memWf_writeQptab {v} (h : s.memWf) : (s.writeQptab v).memWf := by
  unfold State.writeQptab
  dsimp only
  split
  · exact memWf_refuse h
  · refine memWf_setHealth (memWf_setMem ?_)
    split <;> split <;> exact h

theorem memWf_writeErrst {v} (h : s.memWf) : (s.writeErrst v).memWf := memWf_ite (memWf_setHealth h) (memWf_refuse h)

theorem memWf_writeControl {e v} (h : s.memWf) : (s.writeControl e v).memWf := by
  unfold State.writeControl
  split
  · exact memWf_writeErrst h
  · exact memWf_writeJbase h
  · exact memWf_writeQptab h
  · exact memWf_ite (memWf_setHealth h) (memWf_refuse h)
  · exact memWf_ite (memWf_raise (memWf_setHealth h)) (memWf_refuse h)
  · exact memWf_refuse h

theorem nextWf_execPartitionWrite {p off v} (h : s.memWf) : NextWf (execPartitionWrite p off v s) :=
  nextWf_ite (.next (memWf_refuse h)) (nextWf_ite (.next (memWf_refuse h))
    (nextWf_ite (.next (memWf_refuse h)) (.next (memWf_setHealth h))))

theorem memWf_attest (h : s.memWf) : s.attest.memWf := memWf_ite h (memWf_setHealth h)

theorem nextWf_execAttestationRequest {nonce v} (h : s.memWf) : NextWf (execAttestationRequest nonce v s) :=
  .next (memWf_ite (memWf_attest (memWf_setHealth h)) (memWf_setHealth h))

theorem nextWf_execPowerUpdate {watts cap lift} (h : s.memWf) : NextWf (execPowerUpdate watts cap lift s) :=
  .next (memWf_ite (memWf_foldl _ (fun _ _ => memWf_setHealth) _ _ (memWf_setHealth h))
    (memWf_foldl _ (fun _ _ => memWf_setHealth) _ _ (memWf_setHealth h)))

theorem nextWf_execCoreQuarantine {core} (h : s.memWf) : NextWf (execCoreQuarantine core s) :=
  nextWf_ite (.next (memWf_setHealth h)) (.next h)

theorem memWf_afterReset {verified images} (h : s.memWf) : (s.afterReset verified images).memWf := h

end Sys2Proof.Machine

/-! Checks at dispatch, shadows, completion, replay and kill (R325, R369 to R375). -/
namespace Sys2Proof.Machine

variable {s : State}

theorem memWf_dispRead {die ctx k va n} (h : s.memWf) : (State.dispRead die ctx k s va n).1.memWf := by
  induction k generalizing s va n with
  | zero => exact h
  | succ k ih =>
    unfold State.dispRead
    split
    · exact h
    · dsimp only
      split <;> rename_i e <;> have h1 := memWf_of_fst e (memWf_dispAccess h)
      · exact h1
      · exact h1
      · exact h1
      · split
        · next e => exact memWf_of_fst e (ih h1)
        · exact ih h1

theorem memWf_entryOf {die ctx pc} (h : s.memWf) : (s.entryOf die ctx pc).1.memWf := by
  have hl {core ctx x} := memWf_landing (core := core) (ctx := ctx) (tx := x) h
  unfold State.entryOf
  split
  · exact h
  · split
    · next e => split <;> exact hl _ e
    · exact h

theorem memWf_readField {l va n} (h : s.memWf) : (s.readField l va n).1.memWf := memWf_ite_fst h (memWf_dispRead h)

theorem memWf_groupTable {l} (h : s.memWf) : (s.groupTable l).1.memWf := by
  unfold State.groupTable
  refine memWf_ite_fst h ?_
  split
  · next e => exact memWf_of_fst e (memWf_readField h)
  · next e => exact memWf_of_fst e (memWf_readField h)

theorem memWf_wsetPages {l k va hi} (h : s.memWf) : (State.wsetPages l k s va hi).1.memWf := by
  induction k generalizing s va with
  | zero => exact h
  | succ k ih =>
    unfold State.wsetPages
    split
    · exact h
    · split
      · exact h
      · split <;> rename_i e <;> have h1 := memWf_of_fst e (memWf_walk h)
        · exact h1
        · exact h1
        · split
          · exact h1
          · split
            · next e => exact memWf_of_fst e (ih h1)
            · exact ih h1

theorem memWf_checkWset {l} (h : s.memWf) : (s.checkWset l).1.memWf := by
  unfold State.checkWset
  dsimp only
  split
  · exact h
  · split <;> rename_i e <;> have h1 := memWf_of_fst e (memWf_dispRead h)
    · exact h1
    · split
      · exact h1
      · split <;> rename_i e <;> have h2 := memWf_of_fst e (memWf_dispRead h1)
        · exact h2
        · split
          · exact h2
          · split <;> rename_i e <;> refine memWf_of_fst e (memWf_foldl_fst (fun p x hp => ?_) _ _ h2)
            all_goals
              split
              · split <;> rename_i e <;> exact memWf_of_fst e (memWf_wsetPages hp)
              · exact hp

theorem memWf_dispatchChecks {key} (h : s.memWf) : (s.dispatchChecks key).1.memWf := by
  unfold State.dispatchChecks
  dsimp only
  split
  · exact h
  · have h2 := memWf_entryOf (die := (s.launch key).die) (ctx := (s.launch key).ctx) (pc := (s.launch key).entry) h
    refine memWf_ite_fst h2 ?_
    have h3 := memWf_ite_fst (c := (s.launch key).seqPc = 0) (p := (_, some 0)) h2
      (memWf_entryOf (die := (s.launch key).die) (ctx := (s.launch key).ctx) (pc := (s.launch key).seqPc) h2)
    refine memWf_ite_fst h3 (memWf_ite_fst h3 (memWf_ite_fst h3 (memWf_ite_fst h3 ?_)))
    split <;> rename_i e <;> have h4 := memWf_of_fst e (memWf_readField h3)
    · exact h4
    · split
      · exact h4
      · refine memWf_ite_fst h4 ?_
        split <;> rename_i e <;> have h5 := memWf_of_fst e (memWf_groupTable h4)
        · exact h5
        · refine memWf_ite_fst h5 ?_
          split <;> rename_i e <;> have h6 := memWf_of_fst e (memWf_checkWset (memWf_setLaunch h5))
          · exact h6
          · exact memWf_ite_fst h6 (memWf_ite_fst h6 h6)

theorem memWf_startLaunch {key c sh} (h : s.memWf) : (s.startLaunch key c sh).memWf :=
  memWf_journalOf (memWf_setLaunch (memWf_foldl _ (fun _ _ => memWf_setLeaf) _ _ (memWf_ite h (memWf_finishAll h))))

theorem nextWf_tryDispatch {s0 : State} {key} (h : s0.memWf) : NextWf (s0.tryDispatch key) := by
  unfold State.tryDispatch
  dsimp only
  refine nextWf_ite (.next (memWf_startLaunch (memWf_setLaunch h))) ?_
  split
  · exact .fault _
  · next e => exact .next (memWf_of_fst e (memWf_dispatchChecks (memWf_setLaunch h)))
  · next e => exact .next (memWf_parkLaunch (memWf_of_fst e (memWf_dispatchChecks (memWf_setLaunch h))))
  · next e =>
      have h1 := memWf_of_fst e (memWf_dispatchChecks (memWf_setLaunch h))
      refine nextWf_ite (.next h1) ?_
      split
      · exact .next h1
      · exact .next (memWf_startLaunch h1)

theorem memWf_releaseShadows {key} (h : s.memWf) : (s.releaseShadows key).memWf :=
  memWf_setLaunch (memWf_setMem (memWf_foldl _ (fun _ _ => memWf_setLeaf) _ _ h))

theorem nextWf_execSnapshotCopy {ctx va} (h : s.memWf) : NextWf (execSnapshotCopy ctx va s) := by
  unfold execSnapshotCopy
  refine nextWf_ite ?_ (.next h)
  split
  · exact .next (memWf_snapshot h)
  · exact .next (memWf_setMem h)

theorem memWf_rollBack {key audit} (h : s.memWf) : (s.rollBack key audit).memWf :=
  memWf_ite (memWf_setLaunch (memWf_stopLaunch h)) h

theorem nextWf_execLaunchReplay {key} (h : s.memWf) : NextWf (execLaunchReplay key s) := by
  unfold execLaunchReplay
  split
  · exact .next h
  · exact nextWf_ite (.next h) (nextWf_ite (.next (memWf_setLaunch h))
      (.next (memWf_setLaunch (memWf_journalOf (memWf_setLaunch
      (memWf_foldl _ (fun _ _ h1 => memWf_setLeaf (memWf_copyFrame h1)) _ _ h))))))

theorem memWf_killLaunch {key} (h : s.memWf) : (s.killLaunch key).memWf := by
  unfold State.killLaunch
  split
  · exact h
  · exact memWf_ite h (memWf_ite (memWf_endMarker h) (memWf_setLaunch (memWf_with_detached (memWf_stopLaunch h))))

theorem memWf_killParked {key} (h : s.memWf) : (s.killParked key).memWf :=
  memWf_ite (memWf_setLaunch h) (memWf_killLaunch h)

theorem memWf_missDeadline {key} (h : s.memWf) : (s.missDeadline key).memWf :=
  memWf_ite (memWf_count (memWf_setLaunch h)) h

theorem memWf_missDeadlines (h : s.memWf) : s.missDeadlines.memWf :=
  memWf_foldl _ (fun _ _ => memWf_missDeadline) _ _ h

theorem nextWf_execDeadlineMiss {key} (h : s.memWf) : NextWf (execDeadlineMiss key s) := by
  unfold execDeadlineMiss
  split
  · exact .next (memWf_missDeadline h)
  · exact .next h

theorem memWf_endLaunch {key} (h : s.memWf) : (s.endLaunch key).memWf :=
  memWf_ite (memWf_unhold (memWf_journalOf (memWf_setLaunch h))) (memWf_journalOf (memWf_setLaunch h))

theorem nextWf_completeLaunch {s0 : State} {key} (h : s0.memWf) : NextWf (s0.completeLaunch key) := by
  unfold State.completeLaunch
  dsimp only
  refine nextWf_ite (.next (memWf_endLaunch (memWf_releaseShadows h))) ?_
  split
  · exact .fault _
  · next e => exact .next (memWf_of_fst e (memWf_dispWrite (memWf_releaseShadows h)))
  · next e => exact .next (memWf_setLaunch (memWf_parkLaunch (memWf_of_fst e (memWf_dispWrite (memWf_releaseShadows h)))))
  · next e => exact .next (memWf_endLaunch (memWf_of_fst e (memWf_dispWrite (memWf_releaseShadows h))))

theorem nextWf_execLaunchComplete {key} (h : s.memWf) : NextWf (execLaunchComplete key s) := by
  unfold execLaunchComplete
  split
  · exact .next h
  · exact nextWf_ite (nextWf_completeLaunch h) (.next h)

end Sys2Proof.Machine

/-! Queue pairs, messages, packets and their delivery (R449 to R466). -/
namespace Sys2Proof.Machine

variable {s : State}

theorem memWf_setQp {k f} (h : s.memWf) : (s.setQp k f).memWf := h

theorem memWf_detachLink {w qk o send x faddr off} (h : s.memWf) : (s.detachLink w qk o send x faddr off).memWf := h

theorem memWf_parkLink {qk send o x faddr off} (h : s.memWf) : (s.parkLink qk send o x faddr off).memWf :=
  memWf_detachLink (memWf_setQp h)

theorem memWf_linkSub {o n} (h : s.memWf) : (s.linkSub o n).memWf := by
  unfold State.linkSub
  split
  · exact memWf_barSub h
  · exact h

theorem memWf_linkEnd {qk send o st tlen n} (h : s.memWf) : (s.linkEnd qk send o st tlen n).memWf := by
  unfold State.linkEnd
  split
  · exact memWf_parkLink h
  · exact memWf_sweep (memWf_linkSub (memWf_setQp h))

theorem memWf_flushOp {qk send o} (h : s.memWf) : (State.flushOp qk send s o).memWf := by
  unfold State.flushOp
  split
  · exact memWf_detachLink h
  · exact memWf_linkSub h

theorem memWf_flush {qk st} (h : s.memWf) : (s.flush qk st).memWf :=
  memWf_sweep (memWf_foldl _ (fun _ _ => memWf_flushOp) _ _
    (memWf_foldl _ (fun _ _ => memWf_flushOp) _ _ (memWf_setQp (memWf_foldl _ (fun _ _ => memWf_closeRecord) _ _ h))))

theorem memWf_linkXlate {die ctx va k} (h : s.memWf) : (s.linkXlate die ctx va k).1.memWf := by
  unfold State.linkXlate
  split
  · next e =>
      have h1 := memWf_of_fst e (memWf_translate h)
      split
      · exact memWf_ite (memWf_countWalks (memWf_translate (memWf_snapshot h1))) (memWf_translate (memWf_snapshot h1))
      · exact memWf_ite (memWf_countWalks h1) h1
  · exact memWf_ite (memWf_countWalks (memWf_translate h)) (memWf_translate h)

theorem memWf_linkRead {o die ctx l} (h : s.memWf) : (s.linkRead o die ctx l).1.memWf := by
  induction l generalizing s with
  | nil => exact h
  | cons x rest ih =>
    unfold State.linkRead
    split <;> rename_i e <;> have h1 := memWf_of_fst e (memWf_linkXlate h)
    · exact h1
    · split
      · exact memWf_consume h1
      · split
        · next e => exact memWf_of_fst e (ih h1)
        · exact ih h1

theorem memWf_packetData {o die ctx off n} (h : s.memWf) : (s.packetData o die ctx off n).1.memWf := by
  unfold State.packetData
  dsimp only
  split
  · exact h
  · refine memWf_ite_fst h (memWf_ite_fst ?_ (memWf_linkRead h))
    split <;> exact h

theorem memWf_sendFrame {q f} (h : s.memWf) : (s.sendFrame q f).memWf := memWf_drawn h

theorem memWf_sendPackets {qk o l} (h : s.memWf) : (State.sendPackets qk o s l).1.memWf := by
  induction l generalizing s with
  | nil => exact h
  | cons x rest ih =>
    unfold State.sendPackets
    dsimp only
    split <;> rename_i e <;> have h1 := memWf_of_fst e (memWf_packetData h)
    · exact h1
    · exact ih (memWf_sendFrame h1)

theorem nextWf_sendMessage {qk n} (h : s.memWf) : NextWf (s.sendMessage qk n) := by
  unfold State.sendMessage
  dsimp only
  split
  · exact .next h
  · split
    · exact .fault _
    · next e => exact .next (memWf_parkLink (memWf_of_fst e (memWf_sendPackets h)))
    · next e => exact .next (memWf_setQp (memWf_of_fst e (memWf_sendPackets h)))

theorem memWf_answer {qk typ m sts} (h : s.memWf) : (s.answer qk typ m sts).memWf := memWf_sendFrame (memWf_drawn h)

theorem nextWf_frameIn {f k} (h : s.memWf) (hk : ∀ x y, NextWf (k x y)) : NextWf (s.frameIn f k) :=
  nextWf_ite (hk _ _) (.next (memWf_count h))

theorem memWf_placePlan {q o rd l} (h : s.memWf) : (s.placePlan q o rd l).1.memWf := by
  induction l generalizing s with
  | nil => exact h
  | cons x rest ih =>
    unfold State.placePlan
    split <;> rename_i e <;> have h1 := memWf_of_fst e (memWf_linkXlate h)
    · exact h1
    · refine memWf_ite_fst h1 ?_
      split
      · exact memWf_consume h1
      · split
        · next e => exact memWf_of_fst e (ih h1)
        · exact ih h1

theorem memWf_placeGlobal {kind who l bs} (h : s.memWf) : (State.placeGlobal kind who s l bs).memWf := by
  induction l generalizing s bs with
  | nil => exact h
  | cons _ _ ih => exact ih (memWf_noteWrite (memWf_putBytes _ _ h))

theorem memWf_place {q o off l} (h : s.memWf) : (s.place q o off l).1.memWf := by
  unfold State.place
  dsimp only
  refine memWf_ite_fst h ?_
  split
  · split
    · exact h
    · exact memWf_wake (memWf_putA h)
  · split
    · next e => exact memWf_of_fst e (memWf_placePlan h)
    · next e => exact memWf_placeGlobal (memWf_of_fst e (memWf_placePlan h))

theorem memWf_recvDone {qk o st tlen} (h : s.memWf) : (s.recvDone qk o st tlen).memWf :=
  memWf_ite (memWf_ite (memWf_setQp (memWf_answer (memWf_linkEnd h))) (memWf_answer (memWf_linkEnd h))) (memWf_linkEnd h)

theorem nextWf_recvPacket {qk q o f} (h : s.memWf) : NextWf (s.recvPacket qk q o f) := by
  unfold State.recvPacket
  dsimp only
  refine nextWf_ite (.next (memWf_recvDone h)) (nextWf_ite (.next (memWf_count h)) ?_)
  split
  · exact .fault _
  · next e => exact .next (memWf_parkLink (memWf_setQp (memWf_of_fst e (memWf_place h))))
  · next e =>
      have h1 := memWf_of_fst e (memWf_place h)
      exact .next (memWf_ite (memWf_recvDone (memWf_setQp h1)) (memWf_setQp h1))

theorem nextWf_execDataPacketReceive {f} (h : s.memWf) : NextWf (execDataPacketReceive f s) := by
  unfold execDataPacketReceive
  refine nextWf_ite (.next h) (nextWf_frameIn h (fun _ _ => nextWf_ite (.next (memWf_count h)) ?_))
  split
  · exact .next (memWf_answer h)
  · split
    · exact .next h
    · exact nextWf_ite (.next (memWf_answer h)) (nextWf_ite (.next h) (nextWf_recvPacket h))

theorem nextWf_execAcknowledgementReceive {f} (h : s.memWf) : NextWf (execAcknowledgementReceive f s) := by
  unfold execAcknowledgementReceive
  refine nextWf_ite (.next h) (nextWf_frameIn h (fun _ _ => ?_))
  split
  · exact .next (memWf_linkEnd h)
  · exact .next h

theorem nextWf_startSend {qk o} (h : s.memWf) : NextWf (s.startSend qk o) := nextWf_sendMessage (memWf_setQp h)

theorem memWf_holdDrainx {k qk o} (h : s.memWf) : (s.holdDrainx k qk o).memWf := memWf_detachLink h

theorem nextWf_startDrainx {qk o} (h : s.memWf) : ∀ x, s.startDrainx qk o = some x → NextWf x := by
  intro x hx
  unfold State.startDrainx at hx
  extract_lets _ _ at hx
  split at hx
  · cases hx; exact .next (memWf_holdDrainx h)
  · split at hx <;> cases hx
    exact nextWf_startSend h

theorem Here.memWf_linkCheck {hr : Here} {post o} (h : s.memWf) :
    (hr.linkCheck s post o).1.memWf ∧ ∀ a, (hr.linkCheck s post o).2 = some a → a.memWf := by
  have hs : ∀ a : Option Abort, (∀ x, a = some x → x.memWf) → (s, a).1.memWf ∧ ∀ x, (s, a).2 = some x → x.memWf :=
    fun _ ha => ⟨h, ha⟩
  unfold Here.linkCheck
  dsimp only
  repeat' split
  all_goals exact hs _ (by rintro _ ⟨⟩ <;> exact h)

theorem nextWf_onLink {post o} (h : s.memWf) : NextWf (onLink post o s) := by
  unfold onLink
  split
  · exact .refused _
  · next hr _ =>
    dsimp only
    split
    · next e => exact Here.nextWf_finish (Here.endWf_settle h ((Here.endWf_check h).abort e))
    · refine nextWf_ite (.next (Here.memWf_done h)) ?_
      split
      · next e => exact Here.nextWf_finish (Here.endWf_settle h ((Here.memWf_linkCheck h).2 _ (congrArg Prod.snd e)))
      · next s1 e =>
        have h1 : s1.memWf := memWf_of_fst e (Here.memWf_linkCheck h).1
        have h2 {g} : (hr.done ((hr.marked s1).settle (·.seenBy hr.f.id)) g).memWf :=
          Here.memWf_done (memWf_settle (Here.memWf_marked h1))
        exact nextWf_ite (.next (Here.memWf_done h1)) (nextWf_ite (.next (memWf_setQp h2)) (nextWf_startSend h2))

theorem nextWf_execLpoll {d a recv} (h : s.memWf) : NextWf (execLpoll d a recv s) :=
  nextWf_onWave h (fun _ => endWf_ite (Here.endWf_ok h) (endWf_ite h (Here.endWf_ok (memWf_ite (Here.memWf_acquire h) h))))

theorem memWf_moveQp {k op} (h : s.memWf) : ∀ t, s.moveQp k op = some t → t.memWf := by
  unfold State.moveQp
  dsimp only
  split
  · rintro _ ⟨⟩; exact h
  · split
    · rintro _ ⟨⟩
    · rintro _ ⟨⟩; exact memWf_flush h
  · split
    · rintro _ ⟨⟩; exact memWf_setQp h
    · rintro _ ⟨⟩
  · split
    · rintro _ ⟨⟩; exact memWf_setQp h
    · rintro _ ⟨⟩

theorem nextWf_onQp {op d a} (h : s.memWf) : NextWf (onQp op d a s) := by
  refine nextWf_onWave h fun hr => endWf_ite (Here.endWf_ok h) (endWf_ite (endWf_error h) ?_)
  dsimp only
  split
  · next e =>
    refine Here.memWf_done ?_
    split at e
    · exact memWf_moveQp h _ e
    · cases e
  · exact Here.endWf_ok h

end Sys2Proof.Machine

/-! Branches, splits, calls and waits (R133 to R152). -/
namespace Sys2Proof.Machine

variable {s : State}

theorem nextWf_execNop (h : s.memWf) : NextWf (execNop s) :=
  nextWf_ite (nextWf_onSeq h (fun _ => SeqHere.memWf_done h)) (nextWf_onWave h (fun _ => Here.endWf_ok h))

theorem SeqHere.endWf_jump {hr : SeqHere} {t} (h : s.memWf) : endWf State.memWf (hr.jump s t) := by
  unfold SeqHere.jump
  split
  · exact h
  · split
    · trivial
    · next e =>
      have h1 := memWf_landing h _ e
      split
      · exact memWf_putInst h1
      · exact h1

theorem nextWf_execBr {t} (h : s.memWf) : NextWf (execBr t s) :=
  nextWf_ite (nextWf_onSeq h fun _ => SeqHere.endWf_jump h) <|
    nextWf_onWave h fun _ => endWf_bind (Here.endWf_relLanding h) fun _ h1 =>
      endWf_bind (Here.endWf_landed h1) fun _ _ => Here.memWf_goto h1

theorem Here.endWf_brc {hr : Here} {t cond} (h : s.memWf) : endWf State.memWf (hr.brc s t cond) :=
  endWf_bind (Here.endWf_relLanding h) fun _ h1 => endWf_bind (Here.endWf_landed h1) fun _ _ =>
    memWf_ite (Here.memWf_goto h1) (Here.memWf_done h1)

theorem nextWf_execBrv {b t j} (h : s.memWf) : NextWf (execBrv b t j s) := by
  refine nextWf_onWave h fun hr => endWf_bind (Here.endWf_relLanding h) fun p h1 =>
    endWf_bind (Here.endWf_relLanding h1) fun q h2 => ?_
  dsimp only
  split
  · exact endWf_ite (Here.memWf_done h2) (endWf_ite (Here.memWf_goto h2) (Here.endWf_split h2))
  · exact h2

theorem nextWf_execJoin (h : s.memWf) : NextWf (execJoin s) := by
  unfold execJoin
  refine nextWf_onWave h fun _ => ?_
  split
  · exact Here.memWf_goto h
  · exact Here.endWf_ok h

theorem nextWf_execCall {d t} (h : s.memWf) : NextWf (execCall d t s) := by
  refine nextWf_onWave h fun hr => endWf_bind (Here.endWf_relLanding h) fun p h1 => ?_
  dsimp only
  split
  · exact endWf_ite (Here.memWf_goto h1) (endWf_ite (endWf_error h1) (endWf_error h1))
  · exact h1

theorem Here.endWf_calliChecks {hr : Here} {tgt ls} (h : s.memWf) :
    endWf (fun p => p.1.memWf) (hr.calliChecks tgt s ls) := by
  induction ls generalizing s with
  | nil => exact h
  | cons l ls ih =>
    unfold Here.calliChecks
    split
    · next e => exact (Here.endWf_absLanding h).abort e
    · next s1 x e =>
      have h1 : endWf (fun p => p.1.memWf) (.ok (s1, x)) := e ▸ Here.endWf_absLanding h
      dsimp only
      split
      · next e => exact (ih h1).abort e
      · next s2 r e =>
        have h2 : endWf (fun p => p.1.memWf) (.ok (s2, r)) := e ▸ ih h1
        exact h2

theorem nextWf_execCalli {d a} (h : s.memWf) : NextWf (execCalli d a s) := by
  refine nextWf_onWave h fun hr => endWf_bind (Here.endWf_calliChecks h) fun p h1 => endWf_ite (endWf_error h1) ?_
  dsimp only
  split
  · exact Here.memWf_done h1
  · exact endWf_ite (Here.memWf_goto h1) (Here.endWf_split h1)

theorem Here.endWf_jumpTo {hr : Here} {v} (h : s.memWf) : endWf State.memWf (hr.jumpTo s v) :=
  endWf_bind (Here.endWf_absLanding h) fun _ h1 => endWf_bind (Here.endWf_landed h1) fun _ _ => Here.memWf_goto h1

theorem nextWf_execSleep {e} (h : s.memWf) : NextWf (execSleep e s) := by
  unfold execSleep
  refine nextWf_onWave h fun _ => ?_
  split
  · exact endWf_ite (Here.endWf_ok h) h
  · exact endWf_ite (Here.endWf_ok h) (Here.memWf_await h)

theorem nextWf_execTimeWaitExpiry {w b} (h : s.memWf) : NextWf (execTimeWaitExpiry w b s) := by
  unfold execTimeWaitExpiry
  split
  · exact .next h
  · split
    · exact nextWf_ite (.next (Here.memWf_done h)) (.next h)
    · exact .next h

end Sys2Proof.Machine

/-! Matrix operations from issue to commit (R279 to R283). -/
namespace Sys2Proof.Machine

variable {s : State}

theorem SeqHere.endWf_bad {hr : SeqHere} {x faddr} (h : s.memWf) : endWf State.memWf (hr.bad s x faddr) := h

theorem SeqHere.endWf_push {hr : SeqHere} {op a b c bank} (h : s.memWf) : endWf State.memWf (hr.push s op a b c bank) :=
  endWf_ite h (SeqHere.memWf_done h)

theorem SeqHere.endWf_alone {hr : SeqHere} {k} (h : s.memWf) (hk : endWf State.memWf k) : endWf State.memWf (hr.alone s k) :=
  endWf_ite hk h

theorem SeqHere.endWf_owned {hr : SeqHere} {k} (h : s.memWf) (hk : ∀ t, t.memWf → endWf State.memWf (k t)) :
    endWf State.memWf (hr.owned s k) := by
  unfold SeqHere.owned
  split
  · next s1 e => exact hk s1 (memWf_own h _ e)
  · exact memWf_putInst h

theorem SeqHere.endWf_inRun {hr : SeqHere} {off n k} (h : s.memWf) (hk : endWf State.memWf k) :
    endWf State.memWf (hr.inRun s off n k) :=
  endWf_ite hk (SeqHere.endWf_bad h)

theorem nextWf_execMma {o} (h : s.memWf) : NextWf (execMma o s) :=
  nextWf_onSeq h (fun _ => endWf_ite (SeqHere.endWf_bad h)
    (SeqHere.endWf_inRun h (endWf_ite (SeqHere.endWf_bad h) (SeqHere.endWf_owned h (fun _ => SeqHere.endWf_push)))))

theorem nextWf_execMmag {o} (h : s.memWf) : NextWf (execMmag o s) :=
  nextWf_onSeq h fun _ => SeqHere.endWf_alone h (endWf_ite (SeqHere.endWf_bad (memWf_putInst h))
    (SeqHere.endWf_owned h (fun _ => SeqHere.endWf_push)))

theorem nextWf_execMdrain {o} (h : s.memWf) : NextWf (execMdrain o s) :=
  nextWf_onSeq h (fun _ => SeqHere.endWf_alone h (SeqHere.endWf_inRun h
    (endWf_ite (SeqHere.endWf_inRun h (SeqHere.endWf_owned h (fun _ h1 => endWf_ite h1 (SeqHere.endWf_push h1))))
    (SeqHere.endWf_push h))))

theorem nextWf_execMrsc {ty d xa} (h : s.memWf) : NextWf (execMrsc ty d xa s) :=
  nextWf_onSeq h fun _ => endWf_ite (SeqHere.endWf_bad h) (SeqHere.endWf_inRun h (SeqHere.endWf_push h))

theorem memWf_seqFills {core ck l} (h : s.memWf) : (State.seqFills core ck s l).1.memWf := by
  induction l generalizing s with
  | nil => exact h
  | cons x rest ih =>
    unfold State.seqFills
    dsimp only
    split <;> rename_i e <;> have h1 := memWf_of_fst e (memWf_fillCheck h)
    · exact h1
    · exact h1
    · split <;> rename_i e <;> have h2 := memWf_of_fst e (ih h1)
      · exact h2
      · exact h2
      · exact memWf_setCrew h2

theorem MatCtx.memWf_ready {m : MatCtx} {rdA wrA rdW codes} (h : s.memWf) : (m.ready s rdA wrA rdW codes).1.memWf := by
  unfold MatCtx.ready
  dsimp only
  refine memWf_ite_fst h ?_
  split
  · next e => exact memWf_of_fst e (memWf_seqFills h)
  · next e =>
      have h1 := memWf_of_fst e (memWf_seqFills h)
      split
      · exact h1
      · split
        · exact h1
        · split <;> exact h1

theorem memWf_orStop {r k} (hr : r.1.memWf) (hk : ∀ t : State, t.memWf → (k t).1.memWf) : (orStop r k).1.memWf := by
  obtain ⟨t, _ | x⟩ := r
  · exact hk t hr
  · exact hr

theorem MatCtx.memWf_mma {m : MatCtx} {o} (h : s.memWf) : (m.mma s o).1.memWf :=
  memWf_orStop (MatCtx.memWf_ready h) fun _ h => h

theorem MatCtx.memWf_mmag {m : MatCtx} {o} (h : s.memWf) : (m.mmag s o).1.memWf := by
  unfold MatCtx.mmag
  dsimp only
  split
  · exact h
  · refine memWf_orStop (MatCtx.memWf_ready h) fun t ht => ?_
    split
    · exact ht
    · split
      · exact ht
      · refine memWf_orStop (MatCtx.memWf_ready ht) fun t ht => ?_
        split
        · exact ht
        · split
          · exact ht
          · split
            · exact ht
            · exact memWf_orStop (MatCtx.memWf_ready ht) fun _ => memWf_storeLocal

theorem MatCtx.memWf_mload {m : MatCtx} {ty d rs} (h : s.memWf) : (m.mload s ty d rs).1.memWf :=
  memWf_orStop (MatCtx.memWf_ready h) fun _ h => h

theorem memWf_storeRows {ck a rs rows} (h : s.memWf) : (s.storeRows ck a rs rows).memWf :=
  memWf_foldl _ (fun _ _ => memWf_storeLocal) _ _ h

theorem memWf_keepBytes {s0 c offs} (h : s.memWf) : (s.keepBytes s0 c offs).memWf :=
  memWf_of_ram (congrArg _ (State.keepBytes_mem s s0 c offs)) h

theorem MatCtx.memWf_mdrain {m : MatCtx} {o} (h : s.memWf) : (m.mdrain s o).1.memWf := by
  refine memWf_orStop (MatCtx.memWf_ready h) fun t ht => ?_
  dsimp only
  split
  · exact ht
  · exact memWf_keepBytes (memWf_storeRows ht)

theorem MatCtx.memWf_mrsc {m : MatCtx} {ty d} (h : s.memWf) : (m.mrsc s ty d).1.memWf :=
  memWf_orStop (MatCtx.memWf_ready h) fun _ h => h

theorem MatCtx.memWf_maffl {m : MatCtx} {d rs} (h : s.memWf) : (m.maffl s d rs).1.memWf :=
  memWf_orStop (MatCtx.memWf_ready h) fun _ h => h

theorem MatCtx.memWf_mscan {m : MatCtx} {d c} (h : s.memWf) : (m.mscan s d c).1.memWf :=
  memWf_orStop (MatCtx.memWf_ready h) fun _ h => h

theorem MatCtx.memWf_mcarLoad {m : MatCtx} {c} (h : s.memWf) : (m.mcarLoad s c).1.memWf :=
  memWf_orStop (MatCtx.memWf_ready h) fun _ h => h

theorem MatCtx.memWf_mcarStore {m : MatCtx} {c} (h : s.memWf) : (m.mcarStore s c).1.memWf :=
  memWf_orStop (MatCtx.memWf_ready h) fun _ => memWf_storeLocal

theorem MatCtx.memWf_commit {m : MatCtx} (h : s.memWf) : (m.commit s).1.memWf := by
  unfold MatCtx.commit
  split
  · exact MatCtx.memWf_mma h
  · exact MatCtx.memWf_mmag h
  · exact h
  · exact MatCtx.memWf_mload h
  · exact MatCtx.memWf_mdrain h
  · exact MatCtx.memWf_mrsc h
  · exact MatCtx.memWf_maffl h
  · exact MatCtx.memWf_mscan h
  · exact MatCtx.memWf_mcarLoad h
  · exact MatCtx.memWf_mcarStore h
  · exact h
  · exact h

theorem memWf_rollInst {m x faddr detail} (h : s.memWf) : (s.rollInst m x faddr detail).memWf :=
  memWf_adjournInst (memWf_putInst h)

theorem memWf_committed {k i} (h : s.memWf) : (s.committed k i).memWf := memWf_wake (memWf_putInst h)

theorem MatCtx.nextWf_mdrainx {m : MatCtx} {ty rnd sat d qk} (h : s.memWf) : NextWf (m.mdrainx s ty rnd sat d qk) := by
  unfold MatCtx.mdrainx
  split <;> rename_i e
  · exact .next (memWf_rollInst (memWf_of_fst e (MatCtx.memWf_ready h)))
  · exact .fault _
  · exact .next (memWf_of_fst e (MatCtx.memWf_ready h))
  · have h1 := memWf_of_fst e (MatCtx.memWf_ready h)
    dsimp only
    split
    · next e => exact nextWf_startDrainx (memWf_setLaunch (memWf_committed h1)) _ e
    · exact .next h1

theorem nextWf_drainBytes {k mask} (h : s.memWf) : NextWf (s.drainBytes k mask) := by
  unfold State.drainBytes
  split
  · exact .next h
  · split
    · exact .next h
    · split
      · dsimp only
        split
        · exact .next (memWf_wake (memWf_putInst (memWf_foldl _ (fun _ _ => memWf_storeLocal) _ _ h)))
        · exact .next h
      · exact .next h

theorem nextWf_execMatrixCommit {core} (h : s.memWf) : NextWf (execMatrixCommit core s) := by
  unfold execMatrixCommit
  split
  · exact .next h
  · split
    · exact .next h
    · dsimp only
      split
      · exact MatCtx.nextWf_mdrainx h
      · split <;> rename_i e
        · exact .next (memWf_committed (memWf_of_fst e (MatCtx.memWf_commit h)))
        · exact .next (memWf_rollInst (memWf_of_fst e (MatCtx.memWf_commit h)))
        · exact .fault _
        · exact .next (memWf_of_fst e (MatCtx.memWf_commit h))

end Sys2Proof.Machine

/-! Instructions of the sequencer and the audit (R286 to R291, R302 to R306, R376, R377). -/
namespace Sys2Proof.Machine

variable {s : State}

theorem SeqHere.endWf_readRun {hr : SeqHere} {off n k} (h : s.memWf) (hk : ∀ x, endWf State.memWf (k x)) :
    endWf State.memWf (hr.readRun s off n k) := by
  unfold SeqHere.readRun
  refine SeqHere.endWf_inRun h (endWf_ite h ?_)
  split
  · exact SeqHere.endWf_bad h
  · exact hk _

/-- Skipping over a word of the line that is held. -/
theorem skipFrom_line {core ctx k pc l n} : State.skipFrom core ctx (k + 1) s pc (.line l) n =
    let nx := advancePc pc (.line l)
    match decode (lineWord l (slotOf pc)) with
    | .ok (.sloop _) | .ok (.sloopInd _) => State.skipFrom core ctx k s nx.1 nx.2 (n + 1)
    | .ok .sendl => if n = 0 then (s, .to nx.1 nx.2) else State.skipFrom core ctx k s nx.1 nx.2 (n - 1)
    | _ => State.skipFrom core ctx k s nx.1 nx.2 n := rfl

/-- Skipping at a line that is yet to be fetched. -/
theorem skipFrom_fetch {core ctx k pc n} : State.skipFrom core ctx (k + 1) s pc .none n =
    match s.fetchLine core ctx (lineAddr pc) with
    | (s1, .error e) =>
      match fetchCause e with
      | .ok c => (s1, .bad c (lineAddr pc))
      | .error _ => (s1, .absent)
    | (s1, .ok none) => (s1, .bad cIFETCH (lineAddr pc))
    | (s1, .ok (some l)) =>
      match lineCause l true with
      | some b => (s1, .bad (cause b) (lineAddr pc))
      | none => State.skipFrom core ctx k s1 pc (.line l) n := rfl

theorem memWf_skipFrom {core ctx k pc fetch x} (h : s.memWf) : (State.skipFrom core ctx k s pc fetch x).1.memWf := by
  induction k generalizing s pc fetch x with
  | zero => exact h
  | succ k ih =>
    cases fetch with
    | runoff | wrap => exact h
    | line l =>
      rw [skipFrom_line]
      generalize decode (lineWord l (slotOf pc)) = r
      cases r with
      | error => exact ih h
      | ok i =>
        cases i with
        | sendl => exact memWf_ite_fst h (ih h)
        | _ => exact ih h
    | none =>
      rw [skipFrom_fetch]
      split <;> rename_i e <;> have h1 := memWf_of_fst e (memWf_fetchLine h)
      · split <;> exact h1
      · exact h1
      · split
        · exact h1
        · exact ih h1

theorem SeqHere.endWf_loop {hr : SeqHere} {n} (h : s.memWf) : endWf State.memWf (hr.loop s n) := by
  unfold SeqHere.loop
  dsimp only
  refine endWf_ite ?_ (SeqHere.memWf_done h)
  split
  · next e => exact memWf_putInst (memWf_of_fst e (memWf_skipFrom h))
  · next e => exact SeqHere.endWf_bad (memWf_of_fst e (memWf_skipFrom h))
  · trivial

theorem nextWf_execSloopInd {xa} (h : s.memWf) : NextWf (execSloopInd xa s) :=
  nextWf_onSeq h fun _ => endWf_ite (SeqHere.endWf_bad h) (SeqHere.endWf_readRun h (fun _ => SeqHere.endWf_loop h))

theorem nextWf_execSendl (h : s.memWf) : NextWf (execSendl s) :=
  nextWf_onSeq h fun _ => endWf_ite (SeqHere.endWf_bad h) (endWf_ite (memWf_putInst h) (SeqHere.memWf_done h))

theorem SeqHere.endWf_barrier {hr : SeqHere} {off k} (h : s.memWf) (hk : ∀ x, endWf State.memWf (k x)) :
    endWf State.memWf (hr.barrier s off k) := by
  unfold SeqHere.barrier
  refine SeqHere.endWf_inRun h (endWf_ite h ?_)
  split
  · exact SeqHere.endWf_bad h
  · exact hk _

theorem nextWf_execSbarr {off} (h : s.memWf) : NextWf (execSbarr off s) :=
  nextWf_onSeq h (fun _ => SeqHere.endWf_barrier h (fun _ => endWf_ite h (memWf_wake (memWf_setBarObj (SeqHere.memWf_done h)))))

theorem nextWf_execSbwait {off ph l} (h : s.memWf) : NextWf (execSbwait off ph l s) :=
  nextWf_onSeq h (fun _ => endWf_ite (SeqHere.endWf_bad h)
    (SeqHere.endWf_barrier h (fun _ => endWf_ite (memWf_seqAcquire (SeqHere.memWf_done h)) (memWf_putInst h))))

theorem nextWf_execScpy {d a len kind ty} (h : s.memWf) : NextWf (execScpy d a len kind ty s) := by
  unfold execScpy
  dsimp only
  refine nextWf_onSeq h fun _ => SeqHere.endWf_alone h ?_
  split
  · exact SeqHere.endWf_bad h
  · exact endWf_ite (SeqHere.memWf_done h) (endWf_ite h (endWf_ite
      (SeqHere.endWf_owned h (fun _ h1 => memWf_addCopy (SeqHere.memWf_done h1))) (memWf_addCopy (SeqHere.memWf_done h))))

theorem memWf_closeTile {k} (h : s.memWf) : (s.closeTile k).memWf := by
  unfold State.closeTile
  dsimp only
  split
  · exact h
  · exact memWf_ite h (memWf_ite h (memWf_ite h (memWf_ite h h)))

theorem nextWf_execSaud {e} (h : s.memWf) : NextWf (execSaud e s) := by
  unfold execSaud
  dsimp only
  refine nextWf_onSeq h fun _ => SeqHere.endWf_alone h ?_
  split
  · exact memWf_putInst (memWf_closeTile h)
  · exact memWf_closeTile h

theorem nextWf_execSfin {off} (h : s.memWf) : NextWf (execSfin off s) := by
  unfold execSfin
  refine nextWf_onSeq h fun _ => ?_
  split
  · exact endWf_ite (SeqHere.memWf_done h) h
  · exact SeqHere.endWf_inRun h (endWf_ite h (memWf_wake (memWf_putA (SeqHere.memWf_done h))))

theorem memWf_lastingAt {clus} (h : s.memWf) : (s.lastingAt clus).memWf := h

theorem nextWf_execAuditReplay {task clus flaw} (h : s.memWf) : NextWf (execAuditReplay task clus flaw s) := by
  unfold execAuditReplay
  split
  · exact .next h
  · exact nextWf_ite (.next (memWf_of_ram rfl h)) (.next h)

theorem memWf_auditWrong {task x faulty} (h : s.memWf) : (s.auditWrong task x faulty).memWf :=
  memWf_rollBack (memWf_foldl _ (fun _ _ => memWf_lastingAt) _ _ h)

theorem nextWf_execAuditVerdict {task} (h : s.memWf) : NextWf (execAuditVerdict task s) := by
  unfold execAuditVerdict
  split
  · exact .next h
  · split
    · exact nextWf_ite (.next h) (nextWf_ite (.next h) (.next (memWf_auditWrong (memWf_count (memWf_count h)))))
    · exact nextWf_ite (.next (memWf_lastingAt (memWf_count h)))
        (nextWf_ite (.next (memWf_auditWrong (memWf_count h))) (.next (memWf_auditWrong (memWf_count h))))
    · exact .next h

end Sys2Proof.Machine

/-! Records, routing, fault tasks and messages (R423 to R440). -/
namespace Sys2Proof.Machine

variable {s : State}

theorem memWf_handlerOk {die ctx r} (h : s.memWf) : (s.handlerOk die ctx r).1.memWf := memWf_entryOf h

theorem memWf_routeFor {die ctx n} (h : s.memWf) : (s.routeFor die ctx n).1.memWf := by
  unfold State.routeFor
  refine memWf_ite_fst h ?_
  split
  · exact h
  · split
    · next e => exact memWf_of_fst e (memWf_handlerOk h)
    · next e => exact memWf_of_fst e (memWf_handlerOk h)

theorem memWf_putRecord {f slot} (h : s.memWf) : (s.putRecord f slot).memWf :=
  memWf_hold (memWf_putBytes _ _ (memWf_setCtx h))

theorem memWf_enqueueTask {key r die args} (h : s.memWf) : (s.enqueueTask key r die args).memWf := by
  unfold State.enqueueTask
  split <;> exact h

theorem nextWf_postMessage {qk l} (h : s.memWf) : ∀ x, s.postMessage qk l = some x → NextWf x := by
  intro x hx
  unfold State.postMessage at hx
  split at hx <;> cases hx
  exact nextWf_startSend h

theorem memWf_setHandling {key sent} (h : s.memWf) : (s.setHandling key sent).memWf := by
  unfold State.setHandling
  split
  · exact memWf_setRecState h
  · exact h

theorem nextWf_launchTask {key r die} (h : s.memWf) : ∀ x, s.launchTask key r die = some x → NextWf x := by
  intro x hx
  unfold State.launchTask at hx
  split at hx
  · cases hx; exact .next (memWf_enqueueTask h)
  · split at hx
    · cases hx; exact .next h
    · exact nextWf_postMessage (memWf_setHandling h) _ hx

theorem memWf_fileIn {f die n} (h : s.memWf) : (s.fileIn f die n).1.memWf := by
  unfold State.fileIn
  split
  · next e => exact memWf_putRecord (memWf_of_fst e (memWf_routeFor h))
  · next e => exact memWf_of_fst e (memWf_routeFor h)
  · next e => exact memWf_of_fst e (memWf_routeFor h)

theorem memWf_killWork {w} (h : s.memWf) : (s.killWork w).memWf := by
  unfold State.killWork
  split
  · exact memWf_sweep (memWf_freeWave h)
  · exact memWf_sweep (memWf_freeInst h)
  · split
    · exact memWf_parkSeg h
    · exact memWf_finishSeg h
  · split
    · exact memWf_linkEnd h
    · exact h
  · exact memWf_sweep (memWf_of_ram rfl h)
  · exact memWf_killParked h
  · exact memWf_setQueue h
  all_goals exact h

theorem memWf_lose {f} (h : s.memWf) : (s.lose f).memWf := memWf_count (memWf_killWork h)

theorem memWf_toZero {f die n} (h : s.memWf) : (s.toZero f die n).1.memWf := by
  unfold State.toZero
  split
  · next e => exact memWf_putRecord (memWf_of_fst e (memWf_routeFor h))
  · next e _ => exact memWf_of_fst e (memWf_routeFor h)

theorem memWf_setFaulted {c} (h : s.memWf) : (s.setFaulted c).memWf := memWf_ite (memWf_setCtx h) h

theorem memWf_reroute {key} (h : s.memWf) : (s.reroute key).memWf := by
  unfold State.reroute
  dsimp only
  split
  · exact h
  · split
    · next e => exact memWf_enqueueTask (memWf_of_fst e (memWf_routeFor (memWf_put64 _ _ h)))
    · next e =>
        have h1 := memWf_of_fst e (memWf_routeFor (memWf_put64 _ _ h))
        refine memWf_ite (memWf_lose (memWf_unhold (memWf_setRecState h1))) ?_
        split
        · next e2 => exact memWf_enqueueTask (memWf_of_fst e2
            (memWf_toZero (memWf_setFaulted (memWf_unhold (memWf_setRecState h1)))))
        · next e2 => exact memWf_lose (memWf_of_fst e2 (memWf_toZero (memWf_setFaulted (memWf_unhold (memWf_setRecState h1)))))

theorem nextWf_afterFiling {key r die} (h : s.memWf) : NextWf (s.afterFiling key r die) := by
  unfold State.afterFiling
  split
  · next e => exact nextWf_launchTask h _ e
  · exact .next (memWf_reroute h)

theorem memWf_lastingFault {core} (h : s.memWf) : (s.lastingFault core).memWf :=
  memWf_raise (memWf_setHealth (memWf_lastingAt h))

theorem memWf_judge {watch core r} (h : s.memWf) : (s.judge watch core r).memWf :=
  memWf_ite h (memWf_ite (memWf_count h) (memWf_ite h (memWf_lastingFault h)))

theorem memWf_classify {d} (h : s.memWf) : (s.classify d).memWf := by
  unfold State.classify
  split
  · split
    · split
      · exact memWf_judge (memWf_putWave h)
      · exact h
    · exact h
  · split
    · split
      · exact memWf_judge (memWf_putInst h)
      · exact h
    · exact h
  · exact h

theorem nextWf_nested {d f} (h : s.memWf) : NextWf (s.nested d f) := by
  unfold State.nested
  dsimp only
  split
  · next e => exact nextWf_afterFiling (memWf_of_fst e (memWf_toZero (memWf_killWork h)))
  · next e => exact .next (memWf_count (memWf_of_fst e (memWf_toZero (memWf_killWork h))))

theorem memWf_fileRolled {f} (h : s.memWf) : (s.fileRolled f).memWf := by
  unfold State.fileRolled
  dsimp only
  split
  · exact memWf_putRecord h
  · split
    · exact memWf_putRecord (memWf_ite h (memWf_setFaulted h))
    · exact memWf_count (memWf_ite h (memWf_setFaulted h))

theorem nextWf_arbitrate {d} (h : s.memWf) : NextWf (s.arbitrate d) := by
  unfold State.arbitrate
  dsimp only
  refine nextWf_ite (.next (memWf_killWork h)) (nextWf_ite (nextWf_nested h) ?_)
  split
  · exact .next (memWf_rollBack (memWf_count (memWf_fileRolled h)))
  · split
    · next e => exact nextWf_afterFiling (memWf_of_fst e (memWf_fileIn h))
    · next e =>
        have h1 := memWf_of_fst e (memWf_fileIn h)
        refine nextWf_ite (.next (memWf_lose h1)) ?_
        split
        · next e2 => exact nextWf_afterFiling (memWf_of_fst e2 (memWf_toZero (memWf_setFaulted h1)))
        · next e2 => exact .next (memWf_lose (memWf_of_fst e2 (memWf_toZero (memWf_setFaulted h1))))

theorem nextWf_execAdjournmentRecord {n} (h : s.memWf) : NextWf (execAdjournmentRecord n s) := by
  unfold execAdjournmentRecord
  split
  · exact .next h
  · exact nextWf_arbitrate (memWf_classify h)

theorem memWf_sendFails {qk n o} (h : s.memWf) : (s.sendFails qk n o).memWf :=
  memWf_foldl _ (fun _ _ => memWf_reroute) _ _ (memWf_detachLink (memWf_flush h))

theorem nextWf_execSendTimeout {qk msn} (h : s.memWf) : NextWf (execSendTimeout qk msn s) := by
  unfold execSendTimeout
  split
  · exact .next h
  · exact nextWf_ite (.next h) (nextWf_ite (nextWf_sendMessage h)
      (nextWf_ite (nextWf_sendMessage (memWf_setQp h)) (.next (memWf_sendFails h))))

theorem memWf_takeMessage {qk n} (h : s.memWf) : ∀ t, s.takeMessage qk n = some t → t.2.1.memWf := by
  intro t ht
  unfold State.takeMessage at ht
  split at ht <;> cases ht
  exact memWf_linkRead (memWf_setQp h)

theorem nextWf_fileProxy {f r} (h : s.memWf) : NextWf (s.fileProxy f r) := by
  unfold State.fileProxy
  split
  · exact .next (memWf_enqueueTask (memWf_putRecord h))
  · refine nextWf_ite (.next (memWf_count h)) ?_
    split
    · next e => exact nextWf_afterFiling (memWf_of_fst e (memWf_toZero (memWf_setFaulted h)))
    · next e => exact .next (memWf_count (memWf_of_fst e (memWf_toZero (memWf_setFaulted h))))

theorem nextWf_execTaskMessage {qk n} (h : s.memWf) : NextWf (execTaskMessage qk n s) := by
  unfold execTaskMessage
  split
  · exact .next h
  · next e =>
    have h1 := memWf_takeMessage h _ e
    split
    · exact .fault _
    · exact .next h1
    · exact nextWf_ite (nextWf_fileProxy h1) (.next h)

end Sys2Proof.Machine

/-! Contexts and their descriptors (R336 to R343). -/
namespace Sys2Proof.Machine

variable {s : State}

theorem MemSys.ram_mark {m : MemSys} {pa n c} : (m.mark pa n c).ram = m.ram := by
  unfold MemSys.mark
  split <;> rfl

theorem memWf_markCtx {c desc x} (h : s.memWf) : (s.markCtx c desc x).memWf :=
  memWf_of_ram (MemSys.ram_foldl (fun _ _ => MemSys.ram_mark) _ _) h

theorem memWf_closeScopes {x} (h : s.memWf) : (s.closeScopes x).memWf := memWf_putBytes _ _ h

theorem memWf_refuseCmd {c} (h : s.memWf) : (s.refuseCmd c).memWf := memWf_setHealth (memWf_refuse h)

theorem memWf_takeCmd {c} (h : s.memWf) : (s.takeCmd c).memWf := memWf_setHealth h

theorem memWf_writeDesc {c v} (h : s.memWf) : (s.writeDesc c v).memWf := memWf_setHealth h

theorem nextWf_execContextCreate {s0 : State} {c desc} (h : s0.memWf) : NextWf (execContextCreate c desc s0) := by
  unfold execContextCreate
  dsimp only
  split
  · exact .next (memWf_refuseCmd (memWf_ite (memWf_writeDesc h) h))
  · exact nextWf_ite (.next (memWf_refuseCmd (memWf_ite (memWf_writeDesc h) h)))
      (.next (memWf_closeScopes (memWf_setCtx (memWf_dropTlb
      (memWf_markCtx (memWf_takeCmd (memWf_ite (memWf_writeDesc h) h)))))))

theorem nextWf_moveCtx {c old new ok} (h : s.memWf) : NextWf (s.moveCtx c old new ok) :=
  nextWf_ite (.next (memWf_setCtx (memWf_takeCmd h))) (.next (memWf_refuseCmd h))

theorem nextWf_execContextActivate {c} (h : s.memWf) : NextWf (execContextActivate c s) := nextWf_moveCtx h

theorem nextWf_execContextSuspend {c} (h : s.memWf) : NextWf (execContextSuspend c s) := nextWf_moveCtx h

theorem nextWf_execContextResume {c} (h : s.memWf) : NextWf (execContextResume c s) := nextWf_moveCtx h

theorem nextWf_execContextClearFault {c} (h : s.memWf) : NextWf (execContextClearFault c s) := nextWf_moveCtx h

theorem nextWf_execContextFree {c} (h : s.memWf) : NextWf (execContextFree c s) :=
  nextWf_ite (.next h) (.next (memWf_dropTlb (memWf_setMem h)))

theorem nextWf_execC0descWrite {v} (h : s.memWf) : NextWf (execC0descWrite v s) := by
  unfold execC0descWrite
  refine nextWf_ite (.next (memWf_refuse h)) (nextWf_ite (.next h) ?_)
  split
  · exact .next (memWf_refuse h)
  · exact nextWf_ite (.next (memWf_refuse h)) (.next (memWf_closeScopes (memWf_setCtx (memWf_setHealth (memWf_markCtx h)))))

theorem memWf_hostRead {off size} (h : s.memWf) : (s.hostRead off size).memWf := memWf_ite h (memWf_refuse h)

end Sys2Proof.Machine

/-! Vector instructions (R164 to R173). -/
namespace Sys2Proof.Machine

variable {s : State}

theorem nextWf_vecInt1 {o f} (h : s.memWf) : NextWf (vecInt1 o f s) := nextWf_onWave h fun _ => Here.endWf_ok h

theorem nextWf_vecInt2 {o f} (h : s.memWf) : NextWf (vecInt2 o f s) := nextWf_onWave h fun _ => Here.endWf_ok h

theorem nextWf_vecInt3 {o f} (h : s.memWf) : NextWf (vecInt3 o f s) := nextWf_onWave h fun _ => Here.endWf_ok h

theorem nextWf_execVabs {o} (h : s.memWf) : NextWf (execVabs o s) := nextWf_vecInt1 h

theorem nextWf_execVbfi {o} (h : s.memWf) : NextWf (execVbfi o s) := nextWf_vecInt3 h

theorem nextWf_execVclz {o} (h : s.memWf) : NextWf (execVclz o s) := nextWf_vecInt1 h

theorem nextWf_execVpopc {o} (h : s.memWf) : NextWf (execVpopc o s) := nextWf_vecInt1 h

theorem Here.endWf_fltLanes {hr : Here} {g ty sat d mode res} (h : s.memWf) :
    endWf State.memWf (hr.fltLanes s g ty sat d mode res) :=
  Here.endWf_arith h

theorem nextWf_vecFlt1 {o f} (h : s.memWf) : NextWf (vecFlt1 o f s) := nextWf_onWave h fun _ => Here.endWf_fltLanes h

theorem nextWf_vecFlt2 {o f} (h : s.memWf) : NextWf (vecFlt2 o f s) := nextWf_onWave h fun _ => Here.endWf_fltLanes h

theorem nextWf_execFsub {o} (h : s.memWf) : NextWf (execFsub o s) := nextWf_vecFlt2 h

theorem nextWf_vecMinMax {isMax o} (h : s.memWf) : NextWf (vecMinMax isMax o s) :=
  nextWf_onWave h fun _ => Here.endWf_fltLanes h

theorem nextWf_execFclass {o} (h : s.memWf) : NextWf (execFclass o s) := nextWf_vecInt1 h

end Sys2Proof.Machine

/-! The events of the caches and of the directory, and host accesses (R233, R271 to R275, R467). -/
namespace Sys2Proof.Machine

variable {s : State}

theorem nextWf_onLine {k : State} {die line} (h : s.memWf) (hk : k.memWf) : NextWf (s.onLine die line k) :=
  nextWf_ite (.fault _) (nextWf_ite (.next h) (.next hk))

theorem nextWf_execWriteMerge {line mask data} (h : s.memWf) : NextWf (execWriteMerge line mask data s) :=
  nextWf_onLine h (memWf_ite (memWf_homeWrite _ _ _ _ h) (memWf_foldl _ (fun _ _ h1 => memWf_homeWrite _ _ _ _ h1) _ _
    (memWf_recall _ h)))

theorem nextWf_execHomeAtomic {pa op ty v} (h : s.memWf) : NextWf (execHomeAtomic pa op ty v s) :=
  nextWf_ite (.next h) (nextWf_ite (nextWf_onLine h (memWf_consume h)) (nextWf_onLine h (memWf_atomicAt h)))

theorem memWf_forget {die line} (h : s.memWf) : (s.forget die line).memWf := by
  unfold State.forget
  split
  · exact memWf_setMem h
  · exact h

theorem nextWf_execPutM {s0 : State} {die line} (h : s0.memWf) : NextWf (execPutM die line s0) := by
  have h1 : (s0.recoverLine line).memWf := memWf_recoverLine _ h
  unfold execPutM
  dsimp only
  split
  · exact nextWf_ite (.next (memWf_forget (memWf_setMem (wf_recallFrom _ _ _ h1)))) (.next h1)
  · exact .next h1

theorem nextWf_execForwardedRequest {line} (h : s.memWf) : NextWf (execForwardedRequest line s) := by
  have h1 := memWf_recoverLine line h
  unfold execForwardedRequest
  dsimp only
  split
  · split
    · refine nextWf_ite (.next (memWf_forget (memWf_probeDrop h1))) ?_
      split
      · split <;> exact .next h1
      · exact .next (memWf_forget h1)
    · exact .next h1
  · exact .next h1

theorem nextWf_execInvalidateWithWriteback {s0 : State} {die line} (h : s0.memWf) :
    NextWf (execInvalidateWithWriteback die line s0) := by
  have h1 : (s0.recoverLine line).memWf := memWf_recoverLine _ h
  have h2 {l dies} : ((s0.recoverLine line).mem.recallFrom l dies).ram.wf = true := wf_recallFrom _ _ _ h1
  exact nextWf_ite (.next (memWf_forget (memWf_probeDrop h1))) (.next (memWf_forget h2))

theorem nextWf_execSilentEviction {die line} (h : s.memWf) : NextWf (execSilentEviction die line s) := by
  unfold execSilentEviction
  split
  · exact nextWf_ite (.next (memWf_setMem h)) (.next h)
  · exact .next h

theorem memWf_reclaim {clus unit} (h : s.memWf) : (s.reclaim clus unit).memWf := by
  simpa only [State.memWf, State.reclaim, State.setMem, MemSys.dropL1] using h

theorem nextWf_execPageWalk {core ctx va k} (h : s.memWf) : NextWf (execPageWalk core ctx va k s) := by
  unfold execPageWalk
  split
  · exact .fault _
  · next e => exact .next (memWf_countWalks (memWf_of_fst e (memWf_translate h)))
  · next e => exact .next (memWf_of_fst e (memWf_translate h))

theorem nextWf_execHostMemoryAccess {pa write} (h : s.memWf) : NextWf (execHostMemoryAccess pa write s) := by
  cases write with
  | none => exact nextWf_ite (.fault _) (.next (memWf_ite (memWf_consume (memWf_doGetS _ _ h)) (memWf_doGetS _ _ h)))
  | some l => exact nextWf_ite (.fault _) (.next (memWf_putBytes _ _ (memWf_foreignWrite h)))

end Sys2Proof.Machine

/-! Placement, eviction and restore of crews, waves and instances (R340, R370, R399, R400). -/
namespace Sys2Proof.Machine

variable {s : State}

theorem nextWf_writeBase {key p k} (h : s.memWf) (hk : ∀ x, x.memWf → NextWf (k x)) : NextWf (s.writeBase key p k) := by
  unfold State.writeBase
  refine nextWf_ite (hk _ h) ?_
  split
  · exact .fault _
  · next e => exact .next (memWf_of_fst e (memWf_dispAccess h))
  · next e => exact .next (memWf_parkLaunch (memWf_of_fst e (memWf_dispAccess h)))
  · next e =>
      have h1 := memWf_of_fst e (memWf_dispAccess h)
      exact hk _ (memWf_noteWrite (memWf_putBytes _ _ (memWf_ite (memWf_drawn h1) h1)))

theorem memWf_newWave {ck l core wid} (h : s.memWf) : ∀ t, s.newWave ck l core wid = some t → t.memWf := by
  unfold State.newWave
  split
  · rintro _ ⟨⟩
  · next e =>
    rintro _ ⟨⟩
    exact memWf_putWave (memWf_drawn (memWf_allocPark h _ e))

theorem memWf_newInst {ck l core} (h : s.memWf) : ∀ t, s.newInst ck l core = some t → t.memWf := by
  unfold State.newInst
  split
  · rintro _ ⟨⟩
  · next e =>
    rintro _ ⟨⟩
    exact memWf_putInst (memWf_allocPark h _ e)

theorem memWf_allOf {f l} (hf : ∀ (s : State) (x : Nat), s.memWf → ∀ t, f s x = some t → t.memWf) (h : s.memWf) :
    ∀ t, allOf f s l = some t → t.memWf := by
  induction l generalizing s with
  | nil => rintro _ ⟨⟩; exact h
  | cons x rest ih =>
    unfold allOf
    split
    · next e => exact ih (hf _ _ h _ e)
    · rintro _ ⟨⟩

theorem memWf_populate {ck l p} (h : s.memWf) : ∀ t, s.populate ck l p = some t → t.memWf := by
  unfold State.populate
  split
  · rintro _ ⟨⟩
  · next s1 e =>
    have h1 : s1.memWf := memWf_allOf (fun _ _ => memWf_newWave) h _ e
    split
    · rintro _ ⟨⟩; exact h1
    · exact memWf_allOf (fun _ _ => memWf_newInst) h1

theorem memWf_freshCores {p} (h : s.memWf) : (s.freshCores p).memWf :=
  memWf_of_ram (MemSys.ram_foldl (f := fun m k => m.dropL1 (8 * p.clus + k)) (fun _ _ => rfl) _ _) h

theorem memWf_startTask {key} (h : s.memWf) : (s.startTask key).memWf := by
  unfold State.startTask
  split
  · exact memWf_ite (memWf_setRecState h) h
  · exact h

theorem nextWf_placeCrew {key p} (h : s.memWf) : NextWf (s.placeCrew key p) := by
  have h0 : (s.tidyCluster p.clus).memWf := memWf_tidyCluster h
  unfold State.placeCrew
  dsimp only
  split
  · exact .next h
  · split
    · exact .next h
    · refine nextWf_writeBase h0 fun s1 h1 => ?_
      split
      · exact .next h1
      · next e =>
        have h2 := memWf_populate (memWf_with_crews (memWf_foldl _ (fun _ _ => memWf_reclaim) _ _ h1)) _ e
        exact .next (memWf_startTask (memWf_setLaunch (memWf_freshCores h2)))

theorem nextWf_execLaunchDispatch {key} (h : s.memWf) : NextWf (execLaunchDispatch key s) := by
  unfold execLaunchDispatch
  split
  · exact nextWf_ite (nextWf_tryDispatch h) (.next h)
  · exact .next h

theorem nextWf_execCrewPlacement {l clus unit cores} (h : s.memWf) : NextWf (execCrewPlacement l clus unit cores s) :=
  nextWf_placeCrew h

theorem memWf_sealFault {k w c} (h : s.memWf) : (s.sealFault k w c).memWf := memWf_putBytes _ _ h

theorem memWf_restoreWave {k w core slot} (h : s.memWf) : (s.restoreWave k w core slot).memWf :=
  memWf_ite (memWf_sealFault h) (memWf_ite (memWf_sealFault h) (memWf_foldl _ (fun _ _ => memWf_acquire) _ _ (memWf_putWave h)))

theorem memWf_loaded {k} (h : s.memWf) : (s.loaded k).memWf := h

theorem nextWf_execWaveRestore {k core slot} (h : s.memWf) : NextWf (execWaveRestore k core slot s) := by
  unfold execWaveRestore
  split
  · exact nextWf_ite (.next (memWf_restoreWave h)) (.next h)
  · exact .next h

theorem memWf_evictWave {k} (h : s.memWf) : (s.evictWave k).memWf := by
  unfold State.evictWave
  split
  · exact memWf_saveWave (memWf_putWave h)
  · exact h

theorem memWf_evictWaves {l : List Nat} (h : s.memWf) : (l.foldl (fun s k => s.evictWave k) s).memWf :=
  memWf_foldl _ (fun _ _ => memWf_evictWave) _ _ h

theorem memWf_parkInst {k} (h : s.memWf) : (s.parkInst k).memWf := by
  unfold State.parkInst
  split
  · exact memWf_saveInst (memWf_putInst h)
  · exact h

theorem memWf_parkInsts {l : List (Nat × Inst)} (h : s.memWf) : (l.foldl (fun s x => s.parkInst x.1) s).memWf :=
  memWf_foldl _ (fun _ _ => memWf_parkInst) _ _ h

theorem memWf_restoreInst {k i} (h : s.memWf) : (s.restoreInst k i).memWf := memWf_ite h (memWf_putInst h)

theorem memWf_restoreOn {k i} (h : s.memWf) : (s.restoreOn k i).memWf := memWf_restoreInst h

theorem nextWf_execSequencerRestore {k} (h : s.memWf) : NextWf (execSequencerRestore k s) := by
  unfold execSequencerRestore
  split
  · exact nextWf_ite (.next (memWf_restoreOn h)) (.next h)
  · exact .next h

theorem memWf_flushCrew {ck core ks} (h : s.memWf) : ∀ t, State.flushCrew ck core s ks = .ok (some t) → t.memWf := by
  induction ks generalizing s with
  | nil => rintro _ ⟨⟩; exact h
  | cons key rest ih =>
    unfold State.flushCrew
    split <;> rename_i e
    · exact ih (memWf_wbWrite (memWf_of_fst e (memWf_wbCheck h)))
    · exact ih (memWf_of_fst e (memWf_wbCheck h))
    · rintro _ ⟨⟩
    · rintro _ ⟨⟩

theorem memWf_saveCrew {s0 : State} {ck a c cores waves seqs} (h : s0.memWf) : (s0.saveCrew ck a c cores waves seqs).memWf :=
  memWf_tidyCluster (memWf_with_crews (memWf_putImage _ _ _ h))

theorem memWf_evictCrew {ck} (h : s.memWf) : ∀ t, s.evictCrew ck = .ok t → t.memWf := by
  intro t ht
  unfold State.evictCrew at ht
  split at ht
  · cases ht; exact h
  · split at ht
    · cases ht; exact h
    · split at ht
      · cases ht
      · cases ht; exact h
      · next s1 e =>
        have h1 : s1.memWf := memWf_flushCrew h _ e
        dsimp only at ht
        split at ht
        · cases ht; exact h
        · next s2 a e =>
          have h2 : s2.memWf := memWf_allocPark h1 _ e
          rw [← Except.ok.inj ht]
          exact memWf_saveCrew (memWf_foldl _ (fun _ _ => memWf_parkInst) _ _ (memWf_evictWaves h2))

theorem memWf_loadCrew {ck a c} (h : s.memWf) : (s.loadCrew ck a c).memWf :=
  memWf_foldl _ (fun _ _ => memWf_acquire) _ _ (memWf_recallRange _ _ h)

theorem memWf_restoreCrew {ck c} (h : s.memWf) : (s.restoreCrew ck c).memWf := by
  unfold State.restoreCrew
  refine memWf_foldl _ (fun _ _ h1 => ?_) _ _ (memWf_foldl _ (fun _ _ h2 => ?_) _ _ ?_)
  · split
    · exact memWf_ite (memWf_restoreOn h1) h1
    · exact h1
  · split
    · exact memWf_ite (memWf_restoreWave h2) h2
    · exact h2
  · split
    · exact memWf_freePark (memWf_loadCrew (memWf_foldl _ (fun _ _ => memWf_reclaim) _ _ h))
    · exact memWf_foldl _ (fun _ _ => memWf_reclaim) _ _ h

theorem nextWf_execCrewRestore {s0 : State} {ck} (h : s0.memWf) : NextWf (execCrewRestore ck s0) := by
  unfold execCrewRestore
  split
  · exact nextWf_ite (.next (memWf_restoreCrew (memWf_tidyCluster h))) (.next h)
  · exact .next h

end Sys2Proof.Machine

/-! The instructions on records, dispositions, and the end of a context (R338, R431 to R447). -/
namespace Sys2Proof.Machine

variable {s : State}

theorem nextWf_onRecord {a sr k} (h : s.memWf) (hk : ∀ x y, endWf State.memWf (k x y)) : NextWf (onRecord a sr s k) :=
  nextWf_onWave h fun _ => endWf_ite h (hk _ _)

theorem Here.endWf_pkAt {hr : Here} {x cur} (h : s.memWf) : endWf (fun _ => True) (hr.pkAt s x cur) := by
  refine endWf_ite (endWf_error h) ?_
  split
  · trivial
  · split
    · trivial
    · exact h

theorem nextWf_execPkrd {d a b imm} (h : s.memWf) : NextWf (execPkrd d a b imm s) :=
  nextWf_onRecord h fun _ _ => endWf_bind (Here.endWf_pkAt h) fun _ _ => Here.endWf_ok h

theorem Here.memWf_status {hr : Here} {d n} (h : s.memWf) : (hr.status s d n).memWf :=
  Here.memWf_done (Here.memWf_marked h)

theorem memWf_mended {x w} (h : s.memWf) : (s.mended x w).memWf := by
  cases w <;> exact h

theorem nextWf_execPkwr {d a b c imm} (h : s.memWf) : NextWf (execPkwr d a b c imm s) := by
  refine nextWf_onRecord h fun _ _ => endWf_bind (Here.endWf_pkAt h) fun x _ => ?_
  dsimp only
  split
  · exact Here.memWf_status h
  · refine endWf_ite (Here.memWf_status h) (Here.memWf_status ?_)
    exact memWf_ite (memWf_mended (memWf_put64 _ _ h)) (memWf_put64 _ _ h)

theorem nextWf_execPkclr {d a b} (h : s.memWf) : NextWf (execPkclr d a b s) := by
  unfold execPkclr
  refine nextWf_onRecord h fun _ _ => ?_
  split
  · exact Here.memWf_status h
  · exact endWf_ite (Here.memWf_status h) (Here.memWf_status (memWf_put64 _ _ h))

theorem memWf_restartWave {key k d} (h : s.memWf) : (s.restartWave key k d).memWf := by
  unfold State.restartWave
  dsimp only
  split
  · exact h
  · split
    · exact memWf_putWave (memWf_putBytes _ _ (memWf_put64 _ _ h))
    · exact memWf_putWave h

theorem memWf_restartInst {key k d} (h : s.memWf) : (s.restartInst key k d).memWf := by
  unfold State.restartInst
  split
  · exact h
  · split
    · exact memWf_putInst (memWf_put64 _ _ h)
    · exact memWf_putInst h

theorem memWf_restartSeg {key c i d} (h : s.memWf) : (s.restartSeg key c i d).memWf := h

theorem nextWf_restartLink {key qk send n d} (h : s.memWf) : NextWf (s.restartLink key qk send n d) := by
  unfold State.restartLink
  refine nextWf_ite (nextWf_sendMessage (memWf_setQp h)) ?_
  split
  · split
    · exact .next (memWf_ite (memWf_recvDone (memWf_setQp h)) (memWf_setQp h))
    · exact .next (memWf_setQp h)
  · exact .next (memWf_setQp h)

theorem nextWf_restartHeld {k d} (h : s.memWf) : NextWf (s.restartHeld k d) := by
  unfold State.restartHeld
  split
  · exact .next h
  · have h1 : ({ s with link := { s.link with held := s.link.held.erase k } } : State).memWf := h
    dsimp only
    split
    · next e => exact nextWf_startDrainx h1 _ e
    · exact .next (memWf_holdDrainx h1)

theorem memWf_restartLaunch {key l d} (h : s.memWf) : (s.restartLaunch key l d).memWf :=
  memWf_ite (memWf_admitMarker (memWf_setLaunch h)) (memWf_ite (memWf_takeIn (memWf_setLaunch h)) (memWf_setLaunch h))

theorem nextWf_disposeWork {key w d} (h : s.memWf) : NextWf (s.disposeWork key w d) := by
  refine nextWf_ite (.next (memWf_killWork h)) ?_
  cases w with
  | wave => exact .next (memWf_restartWave h)
  | inst => exact .next (memWf_restartInst h)
  | seg => exact .next (memWf_restartSeg h)
  | link => exact nextWf_restartLink h
  | held => exact nextWf_restartHeld h
  | launch => exact .next (memWf_restartLaunch h)
  | queue => exact .next (memWf_setQueue h)
  | packet | event => exact .next h

theorem nextWf_replyTo {key r d} (h : s.memWf) : NextWf (s.replyTo key r d) := by
  unfold State.replyTo
  split
  · exact .next h
  · dsimp only
    split
    · next e => exact nextWf_postMessage (memWf_closeRecord h) _ e
    · exact .next (memWf_closeRecord h)

theorem nextWf_dispose {key r d} (h : s.memWf) : NextWf (s.dispose key r d) :=
  nextWf_ite (nextWf_replyTo h) (nextWf_ite (.next (memWf_closeRecord h)) (nextWf_disposeWork (memWf_closeRecord h)))

theorem nextWf_onDisposition {d a sr disp} (h : s.memWf) : NextWf (onDisposition d a sr disp s) := by
  unfold onDisposition
  split
  · exact .refused _
  · next hr _ =>
    have hc {u} : endWf State.memWf (hr.settle s (hr.check s hr.f.mask u >>= fun _ =>
        if !hr.pkNamed s (hr.s a) then .error (.trap (hr.report cPROT) s) else hr.release s .sys)) :=
      Here.endWf_settle h (endWf_bind (Here.endWf_check h) fun _ _ => endWf_ite (endWf_error h) (Here.endWf_release h))
    split
    · next e => exact Here.nextWf_finish (hc.abort e)
    · next s1 e =>
      have h1 : s1.memWf := hc.of_eq e
      split
      · exact .next (Here.memWf_status h1)
      · exact nextWf_ite (nextWf_dispose (Here.memWf_status h1)) (.next (Here.memWf_status h1))

theorem memWf_applyImage {key r image} (h : s.memWf) : (s.applyImage key r image).memWf :=
  memWf_put64 _ _ (memWf_foldl _ (fun _ _ h1 => memWf_ite (memWf_put64 _ _ h1) h1) _ _ h)

theorem nextWf_remoteDisposition {qk m} (h : s.memWf) : NextWf (s.remoteDisposition qk m) := by
  unfold State.remoteDisposition
  dsimp only
  split
  · exact .next (memWf_count h)
  · split
    · exact .next h
    · exact nextWf_ite (nextWf_dispose (memWf_applyImage h)) (.next (memWf_applyImage h))

theorem nextWf_execDispositionMessage {qk n} (h : s.memWf) : NextWf (execDispositionMessage qk n s) := by
  unfold execDispositionMessage
  split
  · exact .next h
  · next e =>
    have h1 := memWf_takeMessage h _ e
    split
    · exact .fault _
    · exact .next h1
    · exact nextWf_ite (nextWf_remoteDisposition h1) (.next h)

theorem memWf_destroyCtx {c} (h : s.memWf) : (s.destroyCtx c).memWf :=
  memWf_foldl _ (fun _ _ => memWf_flush) _ _ (memWf_foldl _ (fun _ _ => memWf_killParked) _ _
    (memWf_foldl _ (fun _ _ => memWf_closeRecord) _ _ (memWf_foldl _ (fun _ _ => memWf_killLaunch) _ _ h)))

theorem nextWf_execContextDestroy {c} (h : s.memWf) : NextWf (execContextDestroy c s) :=
  nextWf_ite (.next (memWf_setCtx (memWf_destroyCtx (memWf_takeCmd h)))) (.next (memWf_refuseCmd h))

end Sys2Proof.Machine

/-! Exact predicates (R308 to R318), and the writes of the host to BAR0 (R468, R470 to R473). -/
namespace Sys2Proof.Machine

variable {s : State}

theorem Here.memWf_issued {hr : Here} {tx} (h : s.memWf) : (hr.issued s tx).memWf := memWf_drawn (Here.memWf_done h)

theorem nextWf_onGeo {o n m lane} (h : s.memWf) : NextWf (onGeo o n m lane s) :=
  nextWf_onWave h fun _ => endWf_ite (Here.memWf_hazard h) (endWf_ite h (Here.memWf_issued h))

theorem memWf_commitPred {x} (h : s.memWf) : (s.commitPred x).memWf := h

theorem nextWf_execPredicateCommit {core} (h : s.memWf) : NextWf (execPredicateCommit core s) := by
  unfold execPredicateCommit
  split
  · exact .next h
  · exact .next (memWf_commitPred h)
  · exact .next (memWf_commitPred (memWf_drawn h))

theorem nextWf_contextCommand {c cmd} (h : s.memWf) : NextWf (contextCommand c cmd s) := by
  unfold contextCommand
  split
  · exact nextWf_execContextCreate h
  · exact nextWf_execContextActivate h
  · exact nextWf_execContextSuspend h
  · exact nextWf_execContextResume h
  · exact nextWf_execContextDestroy h
  · exact nextWf_execContextClearFault h
  · exact .next (memWf_refuseCmd h)

theorem nextWf_queueWrite {c q r v} (h : s.memWf) : NextWf (queueWrite c q r v s) := by
  unfold queueWrite
  split
  · exact nextWf_execDoorbell h
  · exact nextWf_execQueueEnable h
  · exact nextWf_execQueueStop h
  · exact nextWf_execQueueStart h
  · exact nextWf_execQueueDisable h
  · exact .next (memWf_refuse h)

theorem nextWf_measureWrite {o v} (h : s.memWf) : NextWf (measureWrite o v s) :=
  nextWf_ite (.next (memWf_setHealth h)) (nextWf_ite (nextWf_execAttestationRequest h) (.next (memWf_refuse h)))

theorem nextWf_execControlRegisterWrite {off size v} (h : s.memWf) : NextWf (execControlRegisterWrite off size v s) :=
  nextWf_ite (.next (memWf_refuse h)) (nextWf_ite (nextWf_execC0descWrite h)
    (nextWf_ite (.next (memWf_writeControl h)) (nextWf_ite (nextWf_execPartitionWrite h)
    (nextWf_ite (.next (memWf_writeDesc h)) (nextWf_ite (nextWf_contextCommand h)
    (nextWf_ite (nextWf_queueWrite h) (nextWf_ite (nextWf_measureWrite h) (.next (memWf_refuse h)))))))))

end Sys2Proof.Machine

/-! Lane and predicate instructions, scalars, and the ends of fragments, waves and instances (R137, R149, R153 to R162, R183
to R190). -/
namespace Sys2Proof.Machine

variable {s : State}

theorem nextWf_shuffle {o vr src} (h : s.memWf) : NextWf (shuffle o vr src s) :=
  nextWf_onWave h fun _ => endWf_bind (Here.endWf_ecc h) fun _ _ => Here.endWf_ok h

theorem nextWf_execVshflUp {o n} (h : s.memWf) : NextWf (execVshflUp o n s) := nextWf_shuffle h

theorem nextWf_execVshflDown {o n} (h : s.memWf) : NextWf (execVshflDown o n s) := nextWf_shuffle h

theorem nextWf_execVshflXor {o n} (h : s.memWf) : NextWf (execVshflXor o n s) := nextWf_shuffle h

theorem Here.endWf_relCheck {hr : Here} {m base b} (h : s.memWf) : endWf (fun _ => True) (hr.relCheck s m base b) :=
  endWf_ite trivial h

theorem nextWf_execVmovrel {o} (h : s.memWf) : NextWf (execVmovrel o s) :=
  nextWf_onWave h fun _ => endWf_bind (Here.endWf_relCheck h) fun _ _ =>
    endWf_bind (Here.endWf_ecc h) fun _ _ => Here.endWf_ok h

theorem nextWf_execVstrel {o} (h : s.memWf) : NextWf (execVstrel o s) :=
  nextWf_onWave h fun _ => endWf_bind (Here.endWf_relCheck h) fun _ _ =>
    endWf_bind (Here.endWf_ecc h) fun _ _ => Here.endWf_ok h

theorem Here.endWf_setLanes {hr : Here} {m d f} (h : s.memWf) : endWf State.memWf (hr.setLanes s m d f) :=
  Here.endWf_ok h

theorem Here.endWf_closeEach {hr : Here} {ks} (h : s.memWf) : endWf State.memWf (hr.closeEach s ks) := by
  induction ks generalizing s with
  | nil => exact h
  | cons k ks ih => exact endWf_bind (Here.endWf_writeBack h) fun _ h1 => ih (memWf_setCrew h1)

theorem Here.endWf_closeWindows {hr : Here} (h : s.memWf) : endWf State.memWf (hr.closeWindows s) :=
  endWf_ite (Here.endWf_closeEach h) h

theorem Here.endWf_retire {hr : Here} (h : s.memWf) : endWf State.memWf (hr.retire s) :=
  endWf_bind (Here.endWf_closeWindows h) fun _ h1 => memWf_leaveGroups (memWf_putWave (memWf_passes h1))

theorem Here.endWf_endFragment {hr : Here} (h : s.memWf) : endWf State.memWf (hr.endFragment s) := by
  unfold Here.endFragment
  refine endWf_ite (memWf_putWave h) ?_
  split
  · exact memWf_consume h
  · exact memWf_putWave h
  · exact Here.endWf_retire h

theorem SeqHere.endWf_finishInst {hr : SeqHere} (h : s.memWf) : endWf State.memWf (hr.finishInst s) :=
  endWf_ite (memWf_sweep (memWf_freeInst (memWf_closeTile (memWf_passes h)))) h

theorem nextWf_execEndF (h : s.memWf) : NextWf (execEndF s) :=
  nextWf_ite (nextWf_onSeq h (fun _ => SeqHere.endWf_finishInst h)) (nextWf_onWave h (fun _ => Here.endWf_endFragment h))

theorem nextWf_execWaveRetire {w} (h : s.memWf) : NextWf (execWaveRetire w s) := by
  unfold execWaveRetire
  split
  · exact nextWf_ite (.next (memWf_sweep (memWf_freeWave h))) (.next h)
  · exact .next h

theorem nextWf_scalarInt {o f} (h : s.memWf) : NextWf (scalarInt o f s) := nextWf_onWave h fun _ => Here.endWf_ok h

theorem nextWf_scalarInt2 {o f} (h : s.memWf) : NextWf (scalarInt2 o f s) := nextWf_onWave h fun _ => Here.endWf_ok h

theorem nextWf_scalarMove {d srcs f} (h : s.memWf) : NextWf (scalarMove d srcs f s) :=
  nextWf_onWave h fun _ => Here.endWf_ok h

theorem nextWf_scalarFlt {o n f} (h : s.memWf) : NextWf (scalarFlt o n f s) :=
  nextWf_onWave h fun _ => Here.endWf_arithS h

theorem nextWf_execSfadd {o} (h : s.memWf) : NextWf (execSfadd o s) := nextWf_scalarFlt h

theorem nextWf_execSfmul {o} (h : s.memWf) : NextWf (execSfmul o s) := nextWf_scalarFlt h

theorem nextWf_execSffma {o} (h : s.memWf) : NextWf (execSffma o s) := nextWf_scalarFlt h

end Sys2Proof.Machine

/-! The choice of a dispatcher and the evictions it makes (R396 to R401). -/
namespace Sys2Proof.Machine

variable {s : State}

theorem memWf_raiseShare {die cs c} (h : s.memWf) : (s.raiseShare die cs c).memWf := by
  unfold State.raiseShare
  split
  · exact memWf_ite h (memWf_setCtx h)
  · exact h

theorem memWf_seeGains {die} (h : s.memWf) : (s.seeGains die).memWf :=
  memWf_foldl _ (fun _ _ h1 => memWf_ite h1 (memWf_setCtx (memWf_raiseShare h1))) _ _ h

theorem memWf_seeAllGains (h : s.memWf) : s.seeAllGains.memWf := memWf_foldl _ (fun _ _ => memWf_seeGains) _ _ h

theorem memWf_evictAll {ks} (h : s.memWf) : ∀ t, s.evictAll ks = .ok t → t.memWf := by
  induction ks generalizing s with
  | nil => rintro _ ⟨⟩; exact h
  | cons k ks ih =>
    unfold State.evictAll
    split
    · next e => exact ih (memWf_evictCrew h _ e)
    · rintro _ ⟨⟩

theorem nextWf_placeWith {key r} (h : s.memWf) : NextWf (s.placeWith key r) := by
  unfold State.placeWith
  split
  · exact .fault _
  · next s1 e =>
    have h1 : s1.memWf := memWf_evictAll h _ e
    exact nextWf_ite (.next h1) (nextWf_placeCrew (memWf_ite (memWf_evictWaves h1) (memWf_parkInsts (memWf_evictWaves h1))))

theorem nextWf_returnCrew {ck} (h : s.memWf) : ∀ x, s.returnCrew ck = some x → NextWf x := by
  unfold State.returnCrew
  dsimp only
  split
  · rintro _ ⟨⟩
  · split
    · rintro _ ⟨⟩; exact .fault _
    · next s1 e =>
      have h1 : s1.memWf := memWf_evictAll h _ e
      split
      · rintro _ ⟨⟩
        refine .next (memWf_restoreCrew (memWf_tidyCluster (memWf_parkInsts (memWf_foldl _ (fun t i ht => ?_) _ _ h1))))
        split
        · exact memWf_evictWaves ht
        · exact ht
      · split
        · rintro _ ⟨⟩; exact .next h1
        · rintro _ ⟨⟩

theorem nextWf_serveCand {c} (h : s.memWf) : ∀ x, s.serveCand c = some x → NextWf x := by
  cases c with
  | launch k =>
    unfold State.serveCand
    dsimp only
    split
    · split
      · split
        · rintro _ ⟨⟩; exact nextWf_placeWith h
        · rintro _ ⟨⟩
      · rintro _ ⟨⟩
    · split
      · next e =>
        split
        · rintro _ ⟨⟩; exact .next ((nextWf_tryDispatch h).of_eq e)
        · rintro _ ⟨⟩
      · rintro _ ⟨⟩; exact nextWf_tryDispatch h
  | wave k =>
    unfold State.serveCand
    dsimp only
    split
    · rintro _ ⟨⟩
    · split
      · split
        · rintro _ ⟨⟩
        · rintro _ ⟨⟩; exact .next (memWf_restoreWave (memWf_evictWaves h))
      · rintro _ ⟨⟩
  | inst k =>
    unfold State.serveCand
    dsimp only
    split
    · rintro _ ⟨⟩
    · split
      · rintro _ ⟨⟩
      · rintro _ ⟨⟩; exact .next (memWf_restoreOn (memWf_parkInsts h))
  | crew k => exact nextWf_returnCrew h

theorem nextWf_firstServed {cs} (h : s.memWf) : NextWf (s.firstServed cs) := by
  induction cs with
  | nil => exact .next h
  | cons c cs ih =>
    unfold State.firstServed
    split
    · next e => exact nextWf_serveCand h _ e
    · exact ih

theorem nextWf_execDispatcherChoice {die} (h : s.memWf) : NextWf (execDispatcherChoice die s) := nextWf_firstServed h

theorem nextWf_execCrewEviction {ck} (h : s.memWf) : NextWf (execCrewEviction ck s) := by
  refine nextWf_ite ?_ (.next h)
  split
  · next e => exact .next (memWf_evictCrew h _ e)
  · exact .fault _

theorem nextWf_execSequencerPark {k} (h : s.memWf) : NextWf (execSequencerPark k s) := by
  unfold execSequencerPark
  split
  · exact nextWf_ite (.next (memWf_parkInst h)) (.next h)
  · exact .next h

end Sys2Proof.Machine

/-! Every instruction and every event: the law of its meaning. -/
namespace Sys2Proof.Machine

variable {s : State}

/-- Every instruction and every event of `exec` leaves main memory canonical. -/
theorem nextWf_exec {i} (h : s.memWf) : NextWf (exec i s) := by
  cases i with
  | nop => exact nextWf_execNop h
  | br => exact nextWf_execBr h
  | brcNeS | brcEqS | brcAnyP | brcAllP | brcNoneP => exact nextWf_onWave h fun _ => Here.endWf_brc h
  | brv => exact nextWf_execBrv h
  | join => exact nextWf_execJoin h
  | call => exact nextWf_execCall h
  | calli => exact nextWf_execCalli h
  | ret | jmp => exact nextWf_onWave h fun _ => Here.endWf_jumpTo h
  | endF => exact nextWf_execEndF h
  | yield | vmov | vbcast | vperm | ppopc | pballot | vlid | wprio | flrd | clkrd =>
    exact nextWf_onWave h fun _ => Here.endWf_ok h
  | brk => exact nextWf_ite (nextWf_onSeq h (fun _ => memWf_putInst h)) (nextWf_onWave h (fun _ => h))
  | sleep => exact nextWf_execSleep h
  | timeWaitExpiry => exact nextWf_execTimeWaitExpiry h
  | rgn | swrMode | swrFlags => exact nextWf_onWave h fun _ => endWf_ite (Here.endWf_ok h) h
  | add | sub | mul | mulh | div | rem | and | or | xor | shl | shr | sar | min | max => exact nextWf_scalarInt2 h
  | mad => exact nextWf_scalarInt h
  | clz | popc | brev | bfe | bfi | sel | mov | movi | movh | lea | srd => exact nextWf_scalarMove h
  | cmp => exact nextWf_onWave h fun _ => endWf_ite (Here.endWf_arithS h) (Here.endWf_ok h)
  | cvts => exact nextWf_onWave h fun _ => Here.endWf_arithS h
  | sfadd => exact nextWf_execSfadd h
  | sfmul => exact nextWf_execSfmul h
  | sffma => exact nextWf_execSffma h
  | vadd | vsub | vmul | vmulh | vdiv | vand | vor | vxor | vshl | vshr | vsar | vmin | vmax => exact nextWf_vecInt2 h
  | vmad | vbfe => exact nextWf_vecInt3 h
  | vabs => exact nextWf_execVabs h
  | vbfi => exact nextWf_execVbfi h
  | vclz => exact nextWf_execVclz h
  | vpopc => exact nextWf_execVpopc h
  | fadd | fmul | fdiv => exact nextWf_vecFlt2 h
  | fsub => exact nextWf_execFsub h
  | ffma | fldexp | fdot2 => exact nextWf_onWave h fun _ => Here.endWf_fltLanes h
  | fsqrt | frcp | frsq | frint | fexp2 | flog2 | fsin | fcos => exact nextWf_vecFlt1 h
  | fmin | fmax => exact nextWf_vecMinMax h
  | fclass => exact nextWf_execFclass h
  | fcmp | cvt | pack | unpack | fdp4 | vred | vscan => exact nextWf_onWave h fun _ => Here.endWf_arith h
  | fact => exact nextWf_execFact h
  | actflip => exact nextWf_execActflip h
  | activationBankFlip => exact nextWf_execActivationBankFlip h
  | dxq | dxd => exact nextWf_onWave h fun _ => endWf_bind (Here.endWf_ecc h) fun _ _ => Here.endWf_arith h
  | vshflUp => exact nextWf_execVshflUp h
  | vshflDown => exact nextWf_execVshflDown h
  | vshflXor => exact nextWf_execVshflXor h
  | vshflIdx => exact nextWf_shuffle h
  | vmovrel => exact nextWf_execVmovrel h
  | vstrel => exact nextWf_execVstrel h
  | vcmp | plop | pfirst | pfrom => exact nextWf_onWave h fun _ => Here.endWf_setLanes h
  | vsel => exact nextWf_onWave h fun _ => endWf_bind (Here.endWf_ecc h) fun _ _ => Here.endWf_ok h
  | ldg | ldgs => exact nextWf_onWave h fun _ => endWf_bind (Here.endWf_loadGlobal h) fun _ hp => Here.endWf_loaded hp
  | stg => exact nextWf_execStg h
  | ldl => exact nextWf_execLdl h
  | stl => exact nextWf_execStl h
  | lds => exact nextWf_execLds h
  | sts ty hnt => exact nextWf_execSts (hnt := hnt) h
  | pfg => exact nextWf_onWave h fun _ => Here.endWf_ok (memWf_foldl _ (fun _ _ => Here.memWf_prefetch) _ _ h)
  | cinv => exact nextWf_execCinv h
  | wopen => exact nextWf_onWindow h fun _ => endWf_ite (Here.endWf_ok h) (Here.endWf_ok (memWf_setCrew h))
  | wclose => exact nextWf_execWclose h
  | wflush => exact nextWf_execWflush h
  | winv => exact nextWf_onWindow h fun _ => endWf_ite (Here.endWf_ok (memWf_setCrew h)) (Here.endWf_ok h)
  | windowFill => exact nextWf_execWindowFill h
  | atom | atomc | red => exact nextWf_onWave h fun _ => Here.endWf_atomic h
  | atoml => exact nextWf_execAtoml h
  | fence => exact nextWf_execFence h
  | cpy | cpys | cpyg => exact nextWf_copyForm h
  | cpyw => exact nextWf_execCpyw h
  | cpcommit => exact nextWf_onWave h fun _ => endWf_ite (Here.endWf_ok h) (Here.endWf_ok h)
  | cpwait => exact nextWf_execCpwait h
  | cpact => exact nextWf_execCpact h
  | copySegment => exact nextWf_execCopySegment h
  | mma => exact nextWf_execMma h
  | mmag => exact nextWf_execMmag h
  | mzero | mcarReset => exact nextWf_onSeq h fun _ => SeqHere.endWf_push h
  | mload | mcarLoad => exact nextWf_onSeq h fun _ => SeqHere.endWf_inRun h (SeqHere.endWf_push h)
  | mdrain => exact nextWf_execMdrain h
  | mdrainx => exact nextWf_onSeq h fun _ => SeqHere.endWf_alone h (SeqHere.endWf_push h)
  | mrsc => exact nextWf_execMrsc h
  | maffl => exact nextWf_onSeq h fun _ => SeqHere.endWf_inRun h (SeqHere.endWf_inRun h (SeqHere.endWf_push h))
  | mscan => exact nextWf_onSeq h fun _ => endWf_ite (SeqHere.endWf_bad h) (SeqHere.endWf_push h)
  | mcarStore => exact nextWf_onSeq h fun _ => SeqHere.endWf_alone h (SeqHere.endWf_inRun h (SeqHere.endWf_push h))
  | matrixCommit => exact nextWf_execMatrixCommit h
  | sloop => exact nextWf_onSeq h fun _ => endWf_ite (SeqHere.endWf_bad h) (SeqHere.endWf_loop h)
  | sloopInd => exact nextWf_execSloopInd h
  | sendl => exact nextWf_execSendl h
  | sadr => exact nextWf_onSeq h fun _ => SeqHere.endWf_readRun h (fun _ => SeqHere.memWf_done h)
  | sinc | shint => exact nextWf_onSeq h fun _ => SeqHere.memWf_done h
  | sbarr => exact nextWf_execSbarr h
  | sbwait => exact nextWf_execSbwait h
  | scpy => exact nextWf_execScpy h
  | rampDown => exact .next h
  | saud => exact nextWf_execSaud h
  | sfin => exact nextWf_execSfin h
  | auditReplay => exact nextWf_execAuditReplay h
  | auditVerdict => exact nextWf_execAuditVerdict h
  | orient2 | orient3 | incirc | insph | segx => exact nextWf_onGeo h
  | predicateCommit => exact nextWf_execPredicateCommit h
  | gstat => exact nextWf_onWave h fun _ => endWf_ite (Here.memWf_hazard h) (Here.endWf_ok h)
  | bari => exact nextWf_execBari h
  | bara => exact nextWf_execBara h
  | barx => exact nextWf_execBarx h
  | barw => exact nextWf_execBarw h
  | barwFlag => exact nextWf_execBarwFlag h
  | flagPoll => exact nextWf_execFlagPoll h
  | bart => exact nextWf_execBart h
  | grpa | grpe | grpvAnd | grpvOr | grpvAdd => exact nextWf_onGroup h
  | qxfer => exact nextWf_execQxfer h
  | enq => exact nextWf_execEnq h
  | enqPublish => exact nextWf_execEnqPublish h
  | qpost => exact nextWf_execQpost h
  | qwait => exact nextWf_execQwait h
  | fsopen => exact nextWf_execFsopen h
  | fsclose => exact nextWf_execFsclose h
  | fswait => exact nextWf_execFswait h
  | lpost | lsend => exact nextWf_onLink h
  | lpoll => exact nextWf_execLpoll h
  | lqpQuery | lqpReset | lqpInit | lqpReady => exact nextWf_onQp h
  | pkrd => exact nextWf_execPkrd h
  | pkwr => exact nextWf_execPkwr h
  | pkclr => exact nextWf_execPkclr h
  | pkres | pkret | pkredir | pkkill => exact nextWf_onDisposition h
  | pgmap => exact nextWf_onMap h fun _ => endWf_ite h (endWf_ite h (endWf_ite h (Here.endWf_mapLeaf h)))
  | pgunmap => exact nextWf_onMap h fun _ => endWf_ite h (endWf_ite h (Here.endWf_unmapLeaf h))
  | pginv => exact nextWf_execPginv h
  | shootdown => exact nextWf_execShootdown h
  | mdrd => exact nextWf_execMdrd h
  | mdwr => exact nextWf_onWave h fun _ => endWf_ite h (Here.endWf_ok (memWf_writeControl (Here.memWf_marked h)))
  | flclr => exact nextWf_onWave h fun _ => endWf_ite h (Here.endWf_ok (memWf_setHealth (Here.memWf_marked h)))
  | ctxrd => exact nextWf_onWave h fun _ => endWf_ite h (Here.endWf_ok h)
  | lineFetch => exact nextWf_execLineFetch h
  | fragmentAged => exact nextWf_execFragmentAged h
  | budgetExhausted => exact nextWf_execBudgetExhausted h
  | pageWalk => exact nextWf_execPageWalk h
  | snapshotCopy => exact nextWf_execSnapshotCopy h
  | getS => exact nextWf_onLine h (memWf_doGetS _ _ h)
  | getM => exact nextWf_onLine h (memWf_doGetM _ _ h)
  | writeMerge => exact nextWf_execWriteMerge h
  | homeAtomic => exact nextWf_execHomeAtomic h
  | putM => exact nextWf_execPutM h
  | forwardedRequest => exact nextWf_execForwardedRequest h
  | invalidateWithWriteback => exact nextWf_execInvalidateWithWriteback h
  | directoryRecovery => exact .next (memWf_recoverLine _ h)
  | hostMemoryAccess => exact nextWf_execHostMemoryAccess h
  | unitReclaim => exact nextWf_ite (.next h) (.next (memWf_reclaim h))
  | doorbell => exact nextWf_execDoorbell h
  | tailWrite => exact .next (memWf_tailWrite h)
  | slotReread | packetConsume => exact nextWf_serve h
  | markerComplete => exact nextWf_execMarkerComplete h
  | queueEnable => exact nextWf_execQueueEnable h
  | queueStop => exact nextWf_execQueueStop h
  | queueStart => exact nextWf_execQueueStart h
  | queueDisable => exact nextWf_execQueueDisable h
  | dispatcherChoice => exact nextWf_execDispatcherChoice h
  | launchDispatch => exact nextWf_execLaunchDispatch h
  | crewPlacement => exact nextWf_execCrewPlacement h
  | waveRetire => exact nextWf_execWaveRetire h
  | waveRestore => exact nextWf_execWaveRestore h
  | sequencerPark => exact nextWf_execSequencerPark h
  | sequencerRestore => exact nextWf_execSequencerRestore h
  | crewEviction => exact nextWf_execCrewEviction h
  | crewRestore => exact nextWf_execCrewRestore h
  | launchComplete => exact nextWf_execLaunchComplete h
  | launchReplay => exact nextWf_execLaunchReplay h
  | launchKill => exact .next (memWf_killLaunch h)
  | adjournmentRecord => exact nextWf_execAdjournmentRecord h
  | taskMessage => exact nextWf_execTaskMessage h
  | dispositionMessage => exact nextWf_execDispositionMessage h
  | dataPacketReceive => exact nextWf_execDataPacketReceive h
  | acknowledgementReceive => exact nextWf_execAcknowledgementReceive h
  | holdReceive => exact nextWf_ite (.next h) (nextWf_frameIn h (fun _ _ => .next (memWf_setQp h)))
  | sendTimeout => exact nextWf_execSendTimeout h
  | contextCreate => exact nextWf_execContextCreate h
  | contextActivate => exact nextWf_execContextActivate h
  | contextSuspend => exact nextWf_execContextSuspend h
  | contextResume => exact nextWf_execContextResume h
  | contextDestroy => exact nextWf_execContextDestroy h
  | contextClearFault => exact nextWf_execContextClearFault h
  | contextFree => exact nextWf_execContextFree h
  | c0descWrite => exact nextWf_execC0descWrite h
  | jbaseWrite => exact .next (memWf_writeJbase h)
  | qptabWrite => exact .next (memWf_writeQptab h)
  | errstWrite => exact .next (memWf_writeErrst h)
  | partitionWrite => exact nextWf_execPartitionWrite h
  | controlRegisterWrite => exact nextWf_execControlRegisterWrite h
  | attestationRequest => exact nextWf_execAttestationRequest h
  | ageingCheck => exact nextWf_ite (.next h) (.next (memWf_raise (memWf_setHealth (memWf_setHealth h))))
  | powerUpdate => exact nextWf_execPowerUpdate h
  | coreQuarantine => exact nextWf_execCoreQuarantine h
  | reset => exact .next (memWf_raise (memWf_afterReset h))
  | silentEviction => exact nextWf_execSilentEviction h
  | l1LineEviction => exact .next (memWf_setMem h)
  | deadlineMiss => exact nextWf_execDeadlineMiss h

end Sys2Proof.Machine

/-! Issue, turns, and what follows a turn (R98 to R100, R102, R109, R136, R385, R394). -/
namespace Sys2Proof.Machine

variable {s : State}

theorem nextWf_issueWord {w hr} (h : s.memWf) : NextWf (issueWord w hr s) := by
  unfold issueWord
  refine nextWf_ite (Here.nextWf_finish (Here.endWf_settle h h)) ?_
  split
  · exact nextWf_exec h
  · exact Here.nextWf_finish (Here.endWf_settle h h)

theorem Here.memWf_afterFirst {hr : Here} {w} (h : s.memWf) : (hr.afterFirst w s).memWf := memWf_putWave h

/-- A pair goes back to the state before it when its second instruction cannot go on. -/
theorem nextWf_issuePair {w1 w2 hr} (h : s.memWf) : NextWf (issuePair w1 w2 hr s) := by
  have htrap {r} : NextWf (hr.finish (hr.settle s (.error (.trap r s)))) := Here.nextWf_finish (Here.endWf_settle h h)
  refine nextWf_ite htrap ?_
  split
  · next s1 e =>
    have h1 : s1.memWf := (nextWf_issueWord h).of_eq e
    split
    · split
      · split
        · exact .next (memWf_adjourn h)
        · exact nextWf_ite (.next h) (.next (memWf_adjourn h))
      · exact nextWf_issueWord (Here.memWf_afterFirst h)
    · refine nextWf_ite (.next h) ?_
      split
      · exact .next h1
      · split
        · next e2 =>
          split
          · exact .next (memWf_adjourn h)
          · exact nextWf_ite (.next h) (.next ((nextWf_issueWord h1).of_eq e2))
        · exact nextWf_issueWord h1
  · exact nextWf_issueWord h

theorem memWf_noteIssue {hr yields} (h : s.memWf) : (s.noteIssue hr yields).memWf := h

theorem memWf_passedBy {hr} (h : s.memWf) : (s.passedBy hr).memWf := by
  unfold State.passedBy
  split
  · exact memWf_ite (memWf_passes (memWf_putWave h)) h
  · exact h

theorem memWf_noteSeqIssue {k} (h : s.memWf) : (s.noteSeqIssue k).memWf := by
  unfold State.noteSeqIssue
  split
  · exact memWf_ite (memWf_passes (memWf_putInst h)) h
  · exact h

theorem nextWf_issueHeld {hr l} (h : s.memWf) : NextWf (issueHeld hr l s) :=
  nextWf_ite (.next h) (nextWf_ite (nextWf_issuePair h) (nextWf_issueWord h))

theorem Here.nextWf_after {hr : Here} {x} (hx : NextWf x) : NextWf (hr.after x) := by
  cases hx with
  | next h => exact nextWf_ite (.next (memWf_passedBy (memWf_noteIssue h))) (.next h)
  | fault r => exact .fault r
  | refused r => exact .refused r

theorem nextWf_issueTurn {k side} (h : s.memWf) : NextWf (issueTurn k side s) := by
  unfold issueTurn
  split
  · exact .next h
  · have harrive {hr : Here} : NextWf (hr.finish (hr.settle s (hr.arrive s))) :=
      Here.nextWf_finish (Here.endWf_settle h (Here.endWf_arrive h))
    refine nextWf_ite (.next (memWf_budgetOut h)) (nextWf_ite harrive ?_)
    split
    · next e => exact Here.nextWf_finish (Here.endWf_settle h ((Here.endWf_enterLine h).abort e))
    · next s1 e =>
      have h1 : s1.memWf := (Here.endWf_enterLine h).of_eq e
      have h2 : ({ s1 with cur := some (.frag k side) } : State).memWf := h1
      dsimp only
      split
      · split
        · exact nextWf_ite (.next h2) (Here.nextWf_after (nextWf_issueHeld h2))
        · exact .next h2
      · exact .next h2

theorem nextWf_issueBoth {k side} (h : s.memWf) : NextWf (issueBoth k side s) := by
  unfold issueBoth
  split
  · refine nextWf_ite (.next h) ?_
    split
    · next s1 e =>
      have h1 : s1.memWf := (nextWf_issueTurn h).of_eq e
      split
      · exact .next h
      · have h2 {w d} : ({ s1 with waves := w, detached := d } : State).memWf := h1
        dsimp only
        split
        · next s3 e =>
          have h3 : s3.memWf := (nextWf_issueTurn h2).of_eq e
          split
          · exact .next h
          · exact .next (memWf_of_ram rfl h3)
        · exact nextWf_issueTurn h2
    · exact nextWf_issueTurn h
  · exact .next h

theorem nextWf_seqIssueTurn {k} (h : s.memWf) : NextWf (seqIssueTurn k s) := by
  unfold seqIssueTurn
  split
  · exact .next h
  · refine nextWf_ite (nextWf_ite (.next (memWf_adjournInst h)) (.next h)) ?_
    split
    · next e => exact SeqHere.nextWf_finish h ((SeqHere.endWf_enterLine h).abort e)
    · next s1 e =>
      have h1 : (s1.noteSeqIssue k).memWf := memWf_noteSeqIssue ((SeqHere.endWf_enterLine h).of_eq e)
      have h2 {c q} : ({ s1.noteSeqIssue k with cur := c, seqs := q } : State).memWf := h1
      dsimp only
      split
      · split
        · refine nextWf_ite (SeqHere.nextWf_finish h2 h2) ?_
          split
          · exact nextWf_exec h2
          · exact SeqHere.nextWf_finish h2 h2
        · exact .next h2
      · exact .next h2

theorem memWf_upset {u} (h : s.memWf) : (s.upset u).memWf := by
  cases u with
  | l1 => exact memWf_count (memWf_setMem h)
  | corrected => exact memWf_ite (memWf_count h) h
  | _ => exact h

theorem memWf_prefetch {core ctx va} (h : s.memWf) : (s.prefetch core ctx va).memWf := by
  unfold State.prefetch
  split
  · next e =>
      have h1 := memWf_of_fst e (memWf_translate h)
      exact memWf_ite h1 (memWf_tagL1 (memWf_coreLine _ _ _ h1))
  · exact h

theorem nextWf_dutyTurn {d} (h : s.memWf) : NextWf (dutyTurn s d) := by
  cases d with
  | choice => exact nextWf_execDispatcherChoice h
  | loaded => exact .next (memWf_loaded h)
  | retire => exact nextWf_execWaveRetire h
  | complete => exact nextWf_execLaunchComplete h
  | deadline => exact nextWf_execDeadlineMiss h
  | record => exact nextWf_execAdjournmentRecord h
  | task => exact nextWf_execTaskMessage h
  | disposition => exact nextWf_execDispositionMessage h
  | timeout => exact nextWf_execSendTimeout h
  | free => exact nextWf_execContextFree h
  | quarantine => exact nextWf_execCoreQuarantine h
  | replay => exact nextWf_execLaunchReplay h
  | evict => exact nextWf_execCrewEviction h
  | restore => exact nextWf_execCrewRestore h
  | park => exact nextWf_execSequencerPark h
  | perform => exact .next (memWf_settle h)
  | copyBytes => exact nextWf_copyBytes h
  | drainBytes => exact nextWf_drainBytes h
  | fill => exact .next (memWf_prefetch h)
  | windows | replace => exact .next h

theorem nextWf_turn {t} (h : s.memWf) : NextWf (turn t s) := by
  refine nextWf_ite (.next h) ?_
  cases t with
  | issue => exact nextWf_issueTurn h
  | issueBoth => exact nextWf_issueBoth h
  | seqIssue => exact nextWf_seqIssueTurn h
  | event i => exact nextWf_ite (.next h) (nextWf_exec (memWf_of_ram rfl h))
  | duty => exact nextWf_dutyTurn (memWf_of_ram rfl h)
  | elapse => exact .next h
  | cycle => exact .next (memWf_cycle h)
  | upset => exact .next (memWf_upset h)
  | hostRead => exact .next (memWf_hostRead h)

theorem memWf_performAll (h : s.memWf) : s.performAll.memWf := memWf_with_crews (memWf_settle h)

theorem memWf_afterTurn {s0} (h : s.memWf) : (State.afterTurn s0 s).memWf := by
  have h1 {l : Bool} : (((if l then s.performAll else s).tidyOwners).seeFlags l).memWf :=
    memWf_seeFlags (memWf_tidyOwners (memWf_ite (memWf_performAll h) h))
  exact memWf_seeAllGains (memWf_ite h1 (memWf_missDeadlines h1))

theorem nextWf_turned {x} (hx : NextWf x) : NextWf (s.turned x) := by
  cases hx with
  | next h => exact nextWf_ite (.next (memWf_afterTurn h)) (nextWf_rereads (memWf_afterTurn h))
  | fault r => exact .fault r
  | refused r => exact .refused r

theorem nextWf_fullTurn {t} (h : s.memWf) : NextWf (fullTurn t s) := nextWf_turned (nextWf_turn h)

theorem memWf_nextTurn (h : s.memWf) : (nextTurn s).2.memWf := by
  unfold nextTurn
  split
  · exact h
  · split
    · exact h
    · exact memWf_drawn h

end Sys2Proof.Machine

/-! One step of the package (O59). -/
namespace Sys2Proof.Machine

variable {s : State}

theorem nextWf_step (h : s.memWf) : NextWf (step s) :=
  nextWf_fullTurn (memWf_nextTurn h)

/-- Settles O59: the law of a step, whose next state is the one in question. -/
theorem memoryStaysCanonical : Obligations.MemoryStaysCanonical :=
  fun _ _ h e => (nextWf_step h).of_eq e

end Sys2Proof.Machine
